-- ==== Sys2Proof/Word.lean ====
section
/-! DEFINITION. The machine's words and octets, and nothing else. -/

namespace Sys2Proof

/-- A BAR0 register word, a Heddle X or Y register, an FP32 pattern (R4, R221, R126). -/
abbrev Word := BitVec 32

/-- One octet of memory. -/
abbrev Byte := BitVec 8

/-- The eight flags every sample carries: VALID 7, SETTLING 6, CLIPPED 5, RANGE_LO 4,
TEST 3, SUBST 2, HOLDOVER 1, PLAUS 0 (R104). -/
abbrev SampleFlags := BitVec 8

end Sys2Proof
end

