-- ==== Sys2Proof/Syntax.lean ====
section
/-! DEFINITION. The operand types of the commands and `Instr`, the one inductive of commands,
one constructor per row of spec/opcode_table.json. An operand carries what reaches the device from
outside (a converter code, a received frame, a host parameter, a pin level) or names the item the
step concerns; everything else a step needs is in the state. -/

namespace Sys2Proof

/-- A sample with its flags: a 24-bit two's-complement value on the scale of R34, and the flags of R104. -/
structure Sample where
  v : Int
  f : SampleFlags
  deriving DecidableEq, Repr

/-! ### The image (R417–R432) in decoded form -/

/-- One PARAM run: the registers with IDs `id`, `id + 1`, … take the values (R425). -/
structure ParamRun where
  id : Nat
  vals : List Word
  deriving DecidableEq, Repr

/-- A SIGNALS entry (R428): primary per secondary unit, SV scale, INJ_GAIN, INJ_TAU, all FP32. -/
structure SignalEntry where
  primary : Word
  svScale : Word
  injGain : Word
  injTau : Word
  deriving DecidableEq, Repr

/-- A LOGIC block entry (R428). -/
structure LogicBlock where
  start : Nat
  length : Nat
  callable : Bool
  heddle : Nat
  task : Nat
  wcet : Nat
  limit : Nat
  minInterUs : Nat
  tcfg : Word
  tphs : Word
  deriving DecidableEq, Repr

/-- The LOGIC section (R428): blocks, RETN and the instruction words. -/
structure LogicSection where
  blocks : List LogicBlock
  retn : Nat
  code : List (BitVec 64)
  deriving DecidableEq, Repr

/-- One run of Q stop values: octet offset and data (R428). -/
structure QStopRun where
  octet : Nat
  data : List Byte
  deriving DecidableEq, Repr

/-- The LOGICDATA section (R428). -/
structure LogicData where
  k : List Word
  w : List (BitVec 16)
  c : List Word
  qstop : List QStopRun
  deriving DecidableEq, Repr

/-- A TUNABLES entry (R428): area 4 W or 7 K. -/
structure Tunable where
  area : Nat
  fp32 : Bool
  w32 : Bool
  index : Nat
  min : Word
  max : Word
  deriving DecidableEq, Repr

/-- A GOOSEPUB member: kind of R332 and index. -/
structure PubMember where
  kind : Nat
  index : Nat
  deriving DecidableEq, Repr

/-- A GOOSEPUB block (R331, R428). -/
structure PubBlock where
  g : Nat
  dst : BitVec 48
  confRev : Word
  gocbRef : String
  datSet : String
  goID : String
  members : List PubMember
  deriving DecidableEq, Repr

/-- A GOOSESUB map (R338): member, type (0 BOOLEAN, 1 INT32, 2 FLOAT32, 3 quality, 4 UtcTime), target, default. -/
structure SubMap where
  member : Nat
  type : Nat
  target : Nat
  default : Word
  deriving DecidableEq, Repr

/-- A GOOSESUB subscription (R337, R338, R428). -/
structure SubBlock where
  s : Nat
  dst : BitVec 48
  confRev : Word
  gocbRef : String
  datSet : String
  types : List Nat
  maps : List SubMap
  deriving DecidableEq, Repr

/-- An SVPUB or SVSUB entry (R341, R344, R428). -/
structure SvBlock where
  n : Nat
  dst : BitVec 48
  confRev : Word
  svID : String
  deriving DecidableEq, Repr

/-- A HANK entry (R345, R428). -/
structure HankDecl where
  m : Nat
  mac : BitVec 48
  product : Word
  safe : List Byte
  subst : List Byte
  param : List Byte
  deriving DecidableEq, Repr

/-- The PAIRING section (R368, R428). -/
structure Pairing where
  yarn : Word
  adoptive : Bool
  ownerPair : Nat
  alone : Nat
  claimWd : Nat
  digA : BitVec 384
  digB : BitVec 384
  deriving DecidableEq, Repr

/-- An OVERLAY section (R431): number and the entries (parameter ID, value). -/
structure OverlaySection where
  number : Nat
  entries : List (Nat × Word)
  deriving DecidableEq, Repr

/-- The outcome of checking the signature block of an object (R461), as a fact about its octets. -/
structure SigCheck where
  keysMatch : Bool
  rsaOk : Bool
  slhOk : Bool
  deriving DecidableEq, Repr

/-- A manifest entry (R421) with the outcome of its digest check. -/
structure ManifestEntry where
  type : Nat
  inst : Nat
  optional : Bool
  offset : Nat
  length : Nat
  digestOk : Bool
  deriving DecidableEq, Repr

/-- An image slot's image in decoded form (R419–R431). `badSection` is the manifest index and the octet
offset of the first section whose content is malformed (R428), if any. -/
structure Image where
  magicOk : Bool
  major : Nat
  minFw : Word
  deviceType : Nat
  serial : Word
  ownerPair : Nat
  sig : SigCheck
  hash : BitVec 384
  manifest : List ManifestEntry
  badSection : Option (Nat × Nat)
  params : List ParamRun
  signals : List SignalEntry
  reels : Option (List (List Word))
  logic : Option LogicSection
  logicData : Option LogicData
  tunables : List Tunable
  goosePub : List PubBlock
  gooseSub : List SubBlock
  svPub : List SvBlock
  svSub : List SvBlock
  hank : List HankDecl
  pairing : Option Pairing
  overlays : List OverlaySection
  deriving DecidableEq, Repr

/-- A firmware package (R417, R461). -/
structure Firmware where
  version : Word
  hash : BitVec 384
  sig : SigCheck
  deriving DecidableEq, Repr

/-- A directory copy (R417): valid magic, version and CRC; SEQ; the preferred slots; the slots' offset and length. -/
structure Directory where
  valid : Bool
  seq : Word
  prefImage : Bool
  prefFw : Bool
  fwSlots : List (Nat × Nat)
  imgSlots : List (Nat × Nat)
  deriving DecidableEq, Repr

/-- A pairing token (R368, R462): its format and lengths, its signature block, its fields. -/
structure PairingToken where
  formatOk : Bool
  sig : SigCheck
  signSlot : Nat
  identity : BitVec 384
  yarn : Word
  sideB : Bool
  deriving DecidableEq, Repr

/-- Boot memory as the device finds it (R415). -/
structure Boot where
  size : Nat
  dir0 : Directory
  dir1 : Directory
  fw0 : Option Firmware
  fw1 : Option Firmware
  img0 : Option Image
  img1 : Option Image
  token : Option PairingToken
  deriving DecidableEq, Repr

/-! ### Converters -/

/-- What one calibration measured (R71), as sums of converter codes: 1,024 conversions of AGND at each gain with the sums of their
squares, of VREF_MID at ×1, of the test DAC at −3.5 and +3.5 V at ×1 and at −0.75 and +0.75 of full scale at ×2, ×4, ×8; 14 conversions
of each of the 4,096 steps of the ramp; and the diode temperature in °C. -/
structure CalResult where
  agnd : List Int
  agndSq : List Nat
  vref : Int
  dacLow : List Int
  dacHigh : List Int
  ramp : List Int
  temp : Int
  deriving DecidableEq, Repr

/-- A conversion entering as a lane sample (R36, R41): the converter codes of the entry's repeats, the code of the previous slice's
cross-check conversion in one of its slots, and the codes of a converter that shadows the lane's slice, or in `xckShadow` the previous one. -/
structure LaneIn where
  codes : List Int
  xck : Option Int
  shadow : List Int
  xckShadow : Option Int
  deriving DecidableEq, Repr

/-! ### Network -/

/-- The value of a GOOSE member, received or sent (R332, R338). -/
inductive GooseVal where
  | bool (b : Bool)
  | int (w : Word)
  | float (w : Word)
  | quality (q : BitVec 13)
  | utc (sec : Word) (fracQ : Word)
  | other
  deriving DecidableEq, Repr

/-- The PRP trailer of a received frame (R327): sequence number, LAN B, source MAC. -/
structure PrpTag where
  seq : BitVec 16
  lanB : Bool
  mac : BitVec 48
  deriving DecidableEq, Repr

/-- A received GOOSE message (R337). `lenOk` is false where the frame is too long or its CRC fails. -/
structure GooseMsg where
  dst : BitVec 48
  appid : Nat
  gocbRef : String
  datSet : String
  confRev : Word
  ndsCom : Bool
  simulation : Bool
  test : Bool
  tal : Nat
  stNum : Word
  sqNum : Word
  vals : List GooseVal
  prp : Option PrpTag
  lenOk : Bool
  deriving DecidableEq, Repr

/-- One ASDU of a received sampled-value frame (R344): smpCnt, smpSynch, eight (value, quality) channels. -/
structure SvAsdu where
  smpCnt : Nat
  smpSynch : Nat
  chans : List (Int × Word)
  deriving DecidableEq, Repr

/-- A received sampled-value frame (R344). -/
structure SvMsg where
  dst : BitVec 48
  appid : Nat
  svID : String
  confRev : Word
  simulation : Bool
  datasetOk : Bool
  asdus : List SvAsdu
  prp : Option PrpTag
  lenOk : Bool
  deriving DecidableEq, Repr

/-- A Hank PDU (R346). -/
structure HankPdu where
  typ : Nat
  m : Nat
  seq : BitVec 16
  ack : BitVec 16
  flags : BitVec 16
  time : BitVec 64
  age : BitVec 16
  payload : List Byte
  lenOk : Bool
  prp : Option PrpTag
  mac : BitVec 48
  deriving DecidableEq, Repr

/-- A PTP Sync, with the time stamps already turned into an offset to the source in ns (R299). -/
structure PtpSync where
  twoStep : Bool
  seq : BitVec 16
  gmId : BitVec 64
  domain : Nat
  offset : Int
  deriving DecidableEq, Repr

/-- An Announce (R299, R307), its interval in ms, `better` being the outcome of the data set comparison against the best master held. -/
structure PtpAnnounce where
  gmId : BitVec 64
  domain : Nat
  clockClass : Nat
  accuracy : Nat
  stepsRemoved : Nat
  intervalMs : Nat
  better : Bool
  utcValid : Bool
  leap61 : Bool
  leap59 : Bool
  utcOffset : Int
  deriving DecidableEq, Repr

/-- A GOOSE message as sent (R331–R336). -/
structure GooseOut where
  g : Nat
  stNum : Word
  sqNum : Word
  tal : Nat
  test : Bool
  t : Int
  timeQ : Nat
  vals : List GooseVal
  deriving DecidableEq, Repr

/-- A sampled-value frame as sent (R341–R343): bay and its ASDUs. -/
structure SvOut where
  bay : Nat
  gmId : Option (BitVec 64)
  asdus : List SvAsdu
  deriving DecidableEq, Repr

/-- A frame as handed to a transmit ring. -/
inductive TxBody where
  | goose (m : GooseOut)
  | sv (m : SvOut)
  | hank (p : HankPdu)
  | prpSupervision
  | pdelayReq (seq : BitVec 16)
  | pdelayResp (seq : BitVec 16)
  | pdelayFollowUp (seq : BitVec 16)
  /-- A frame of an HSR ring, forwarded as it came: its tag names its source and number (R327). -/
  | ring (t : PrpTag)
  deriving DecidableEq, Repr

/-- A transmitted frame: its body, its pair, and the PRP sequence number where the pair runs PRP (R327, R381). -/
structure TxFrame where
  body : TxBody
  process : Bool
  prpSeq : Option (BitVec 16)
  high : Bool
  deriving DecidableEq, Repr

/-! ### Twin -/

/-- What the peer sends at link-up (R369). -/
structure PeerIdentity where
  sideB : Bool
  role : Nat
  imageHash : BitVec 384
  certDigest : BitVec 384
  certOk : Bool
  token : Option PairingToken
  deriving DecidableEq, Repr

/-- What the actor sends of one block for one release (R287). -/
structure LoopValues where
  out : Int
  mode : Nat
  y : Int
  integ : Int
  d : Int
  q : Int
  xPrev : Int
  sp : Int
  lseq : Byte
  mseq : Byte
  pos : Int
  vel : Int
  acc : Int
  plan : List (Int × Nat)
  planT0 : Nat
  target : Int
  deriving DecidableEq, Repr

/-- An Almanac record (R399, R400): header fields and the payload words. -/
structure AlmRecord where
  kind : Nat
  severity : Nat
  flags : Nat
  number : Word
  subject : Nat
  segment : Nat
  segments : Nat
  opStart : Word
  opEnd : Word
  pwrCyc : Word
  time : BitVec 64
  payload : List Word
  refSince : BitVec 16
  deriving DecidableEq, Repr

/-- The motor state of one bay as saved and copied (R180). -/
structure MotorCopy where
  state : Nat
  thetaS : Rat
  thetaR : Rat
  dth : Rat
  starts : Word
  startList : List Nat
  deriving DecidableEq, Repr

/-- The snapshot of the items of R386, with the outcome of its CRC. -/
structure Snapshot where
  crcOk : Bool
  retW : List (Nat × Byte)
  cArea : List (Nat × Byte)
  online : List (Nat × Word)
  force : List (Nat × Word)
  logicMode : Nat
  overlay : Nat
  motors : List MotorCopy
  loops : List (Nat × LoopValues)
  bins : List (Nat × Word)
  captureNext : Word
  prpSeqS : BitVec 16
  prpSeqP : BitVec 16
  gooseNums : List (Nat × (Word × Word))
  hankNums : List (Nat × Word)
  tlrn : List (Nat × Word)
  frameCounts : List (Nat × Nat)
  freqs : List (Nat × Rat)
  deriving DecidableEq, Repr

/-- A change the actor streams after its snapshot (R385). -/
inductive StreamedChange where
  | mem (a : Nat) (b : Byte)
  | reg (a : Nat) (w : Word)
  | online (i : Nat) (w : Word)
  | overlay (k : Nat)
  | motor (bay : Nat) (m : MotorCopy)
  | prp (station process : BitVec 16)
  | mode (m : Nat)
  /-- The actor's tracking timeline: frame `n` of a bay has its first sample at device time `at_` and runs at `ft` Hz (R12). -/
  | timeline (bay n at_ : Nat) (ft : Rat)
  deriving DecidableEq, Repr

/-! ### Host -/

/-- A command entry the host placed on Q00 or Q03 (R478): TAG, P0–P3 and whether every other field is 0. -/
structure HostEntry where
  tag : BitVec 16
  p0 : Word
  p1 : Word
  p2 : Word
  p3 : Word
  resvZero : Bool
  deriving DecidableEq, Repr

/-- A token on Q03 (R462), decoded, with the outcomes of its signature check. -/
structure Token where
  formatOk : Bool
  type : Nat
  signSlot : Nat
  target : Nat
  sig : SigCheck
  identity : BitVec 384
  challenge : BitVec 128
  rsaHash : BitVec 384
  slhHash : BitVec 384
  deriving DecidableEq, Repr

/-- Where an ECC error was found (R450). -/
inductive EccRegion where
  | engineLocal
  | supervisor
  | capture (block : Nat)
  | frame
  | network
  | chain
  | other
  deriving DecidableEq, Repr

/-- What the power-good instant finds outside (R440, R445, R470, R502, R518): Boot memory, the straps, PFW, REFCLK,
the engines that will pass self-test, whether VBAT was lost, the Keep memory media identified, its size in KiB. -/
structure PowerIn where
  boot : Boot
  spiMode : Bool
  sideB : Bool
  pfw : Bool
  refclk : Bool
  healthy : BitVec 24
  vbatLost : Bool
  keepMedia : Nat
  keepKiB : Nat
  deriving DecidableEq, Repr

/-- What the Reeve reads in a cycle (R450): the eight temperatures in 0.1 °C, and the writes of engines outside their work (R29), as
engine and internal address. -/
structure ReeveIn where
  temps : List Int
  strays : List (Nat × Nat)
  deriving DecidableEq, Repr

/-- The peer's word on a capture (R210): its trigger's device time and its record's number; with `ask` false the number alone. -/
structure PeerCapture where
  t : Nat
  num : Word
  ask : Bool
  deriving DecidableEq, Repr

/-- The place of an operand that carries nothing: what the row acts on, the device computes from its own state. -/
structure Computed where
  deriving DecidableEq, Repr

/-- The commands: one constructor per row of spec/opcode_table.json, in the table's order. The rows of the Heddle
instruction set name the Heddle that executes its next instruction. -/
inductive Instr where
  /-- POWER_GOOD (R440). -/
  | powerGood (p : PowerIn)
  /-- SAMPLE_CLOCK_LOCK (R75). -/
  | sampleClockLock (q : List CalResult)
  /-- STARTUP_CAL_DONE (R75). -/
  | startupCalDone (r : List CalResult)
  /-- ENGINES_LOADED (R441). -/
  | enginesLoaded
  /-- ACQ_REEL_SWITCH (R48). -/
  | acqReelSwitch
  /-- STEP_INJECTION_START (R81). -/
  | stepInjectionStart (bay : Fin 8) (atStart : Bool)
  /-- STEP_INJECTION_END (R83). -/
  | stepInjectionEnd (bay : Fin 8) (resp : Computed)
  /-- INJECTION_WATCH_END (R83). -/
  | injectionWatchEnd (pin : Fin 96)
  /-- OPEN_CHECK_REVERSAL (R81). -/
  | openCheckReversal (pin : Fin 96) (mean : Computed)
  /-- INPUT_CHECK_REQUEST (R79). -/
  | inputCheckRequest
  /-- LANE_SAMPLE (R36). -/
  | laneSample (lane : Fin 128) (d : LaneIn)
  /-- ACC_WINDOW_END (R58). -/
  | accWindowEnd (lane : Fin 128)
  /-- URGENT_SERVE (R50). -/
  | urgentServe (slice : Fin 17) (code : Int)
  /-- REEL_CYCLE_BOUNDARY (R33). -/
  | reelCycleBoundary
  /-- ROTATION_DUE (R68). -/
  | rotationDue
  /-- SHADOW_END (R68). -/
  | shadowEnd
  /-- CALIBRATION_DONE (R73). -/
  | calibrationDone (r : CalResult)
  /-- SEARCH_START (R77). -/
  | searchStart
  /-- SEARCH_PHASE_END (R77). -/
  | searchPhaseEnd
  /-- OUT_OF_TURN_TAKEOVER (R80). -/
  | outOfTurnTakeover (slice : Fin 17)
  /-- CHAIN_RESTART (R94). -/
  | chainRestart (bay : Fin 8)
  /-- FRAME_CLOSE (R9). -/
  | frameClose (bay : Fin 8)
  /-- FRAME_PROCESS (R119). -/
  | frameProcess (bay : Fin 8) (resNs : Nat)
  /-- CLUSTER_GATE_ENTER (R15). -/
  | clusterGateEnter (c : Fin 4) (gap : Computed)
  /-- CLUSTER_GATE_ENTRY_DONE (R17). -/
  | clusterGateEntryDone (c : Fin 4)
  /-- CLUSTER_WAKE (R17). -/
  | clusterWake (c : Fin 4)
  /-- WATCHMAN_FEED_SAMPLE (R145). -/
  | watchmanFeedSample (bay : Fin 8) (phase : Fin 3) (codes : List Int) (f : Computed)
  /-- WATCHMAN_DROP (R145). -/
  | watchmanDrop (bay : Fin 8)
  /-- ARC_HOLD_EXPIRE (R168). -/
  | arcHoldExpire (inst : Fin 512) (light : Bool)
  /-- LIGHT_ASSERT (R144). -/
  | lightAssert (i : Fin 4)
  /-- LIGHT_RELEASE (R513). -/
  | lightRelease (i : Fin 4)
  /-- TRIP_PULSE_END (R139). -/
  | tripPulseEnd (ch : Fin 32)
  /-- BIN_CHANGE (R486). -/
  | binChange (i : Fin 32) (level : Bool) (ts : Nat)
  /-- TRIP_FB_CHANGE (R486). -/
  | tripFbChange (p : Fin 16) (level : Bool)
  /-- ARRIVAL_DETECT (R112). -/
  | arrivalDetect (bay : Fin 8) (mode : Fin 3) (neg clipped t : Computed)
  /-- ARRIVAL_REARM (R112). -/
  | arrivalRearm (bay : Fin 8) (mode : Fin 3) (peak : Computed)
  /-- WFD_RECORD_TAKE (R194). -/
  | wfdRecordTake (bay : Fin 8)
  /-- WFD_SUPERVISION (R195). -/
  | wfdSupervision (inst : Fin 512) (dAlpha dBeta clipped : Computed)
  /-- WFD_HOLD_END (R195). -/
  | wfdHoldEnd (inst : Fin 512)
  /-- CFL_LOCATE (R197). -/
  | cflLocate (inst : Fin 512)
  /-- CAPTURE_SAMPLE_WRITE (R204). -/
  | captureSampleWrite (plan : Fin 16)
  /-- CAPTURE_RESULTS_RECEIVE (R205). -/
  | captureResultsReceive (bay : Fin 8)
  /-- RECORD_CLOSE (R209). -/
  | recordClose (plan : Fin 16)
  /-- SNAPSHOT_COPY (R211). -/
  | snapshotCopy (bay : Fin 8)
  /-- PEER_CAPTURE_REQUEST (R210). -/
  | peerCaptureRequest (plan : Fin 16) (m : PeerCapture)
  /-- PERIODIC_RELEASE (R247). -/
  | periodicRelease (h : Fin 4) (t : Fin 16)
  /-- EVENT_RELEASE (R250). -/
  | eventRelease (h : Fin 4) (t : Fin 16)
  /-- EXECUTION_START (R253). -/
  | executionStart (h : Fin 4)
  /-- FREE_RUN_CYCLE_START (R251). -/
  | freeRunCycleStart (h : Fin 4)
  /-- BUDGET_IDLE_END (R252). -/
  | budgetIdleEnd (h : Fin 4)
  /-- TIMER_SWEEP (R236). -/
  | timerSweep
  /-- ONLINE_APPLY (R264). -/
  | onlineApply
  /-- LDB (R231). -/
  | ldb (h : Fin 4)
  /-- ANDB (R231). -/
  | andb (h : Fin 4)
  /-- ORB (R231). -/
  | orb (h : Fin 4)
  /-- XORB (R231). -/
  | xorb (h : Fin 4)
  /-- STB (R231). -/
  | stb (h : Fin 4)
  /-- SETB (R231). -/
  | setb (h : Fin 4)
  /-- CLRB (R231). -/
  | clrb (h : Fin 4)
  /-- NOT (R231). -/
  | notLb (h : Fin 4)
  /-- LBSET (R231). -/
  | lbset (h : Fin 4)
  /-- RISE (R231). -/
  | rise (h : Fin 4)
  /-- FALL (R231). -/
  | fall (h : Fin 4)
  /-- GRP (R231). -/
  | grp (h : Fin 4)
  /-- GEND (R231). -/
  | gend (h : Fin 4)
  /-- CLSAT (R231). -/
  | clsat (h : Fin 4)
  /-- LDA (R232). -/
  | lda (h : Fin 4)
  /-- STA (R232). -/
  | sta (h : Fin 4)
  /-- SWAP (R232). -/
  | swap (h : Fin 4)
  /-- LDCW (R222). -/
  | ldcw (h : Fin 4)
  /-- ADD (R232). -/
  | addW (h : Fin 4)
  /-- SUB (R232). -/
  | subW (h : Fin 4)
  /-- MUL (R232). -/
  | mulW (h : Fin 4)
  /-- DIV (R232). -/
  | divW (h : Fin 4)
  /-- MOD (R232). -/
  | modW (h : Fin 4)
  /-- NEG (R232). -/
  | negW (h : Fin 4)
  /-- ABS (R232). -/
  | absW (h : Fin 4)
  /-- ADDI (R232). -/
  | addi (h : Fin 4)
  /-- AND (R232). -/
  | andW (h : Fin 4)
  /-- OR (R232). -/
  | orW (h : Fin 4)
  /-- XOR (R232). -/
  | xorW (h : Fin 4)
  /-- INV (R232). -/
  | inv (h : Fin 4)
  /-- SHL (R232). -/
  | shl (h : Fin 4)
  /-- SHR (R232). -/
  | shr (h : Fin 4)
  /-- SAR (R232). -/
  | sar (h : Fin 4)
  /-- ROL (R232). -/
  | rol (h : Fin 4)
  /-- FADD (R233). -/
  | fadd (h : Fin 4)
  /-- FSUB (R233). -/
  | fsub (h : Fin 4)
  /-- FMUL (R233). -/
  | fmul (h : Fin 4)
  /-- FDIV (R233). -/
  | fdiv (h : Fin 4)
  /-- FABS (R233). -/
  | fabs (h : Fin 4)
  /-- FNEG (R233). -/
  | fneg (h : Fin 4)
  /-- ITOF (R233). -/
  | itof (h : Fin 4)
  /-- FTOI (R233). -/
  | ftoi (h : Fin 4)
  /-- CMP (R234). -/
  | cmp (h : Fin 4)
  /-- JMP (R235). -/
  | jmp (h : Fin 4)
  /-- JMPT (R235). -/
  | jmpt (h : Fin 4)
  /-- JMPF (R235). -/
  | jmpf (h : Fin 4)
  /-- JSAT (R235). -/
  | jsat (h : Fin 4)
  /-- LOOP (R235). -/
  | loop (h : Fin 4)
  /-- CALL (R235). -/
  | call (h : Fin 4)
  /-- CALLT (R235). -/
  | callt (h : Fin 4)
  /-- RET (R235). -/
  | ret (h : Fin 4)
  /-- END (R235). -/
  | endExec (h : Fin 4)
  /-- NOP (R235). -/
  | nop (h : Fin 4)
  /-- TMR_TP (R237). -/
  | tmrTp (h : Fin 4)
  /-- TMR_TON (R237). -/
  | tmrTon (h : Fin 4)
  /-- TMR_TOF (R237). -/
  | tmrTof (h : Fin 4)
  /-- TMR_TONR (R237). -/
  | tmrTonr (h : Fin 4)
  /-- TRST (R237). -/
  | trst (h : Fin 4)
  /-- CTU (R238). -/
  | ctu (h : Fin 4)
  /-- CTD (R238). -/
  | ctd (h : Fin 4)
  /-- CLD (R238). -/
  | cld (h : Fin 4)
  /-- CRST (R238). -/
  | crst (h : Fin 4)
  /-- URGC (R239). -/
  | urgc (h : Fin 4)
  /-- TRKRST (R239). -/
  | trkrst (h : Fin 4)
  /-- TRPRST (R239). -/
  | trprst (h : Fin 4)
  /-- CAPT (R239). -/
  | capt (h : Fin 4)
  /-- OVLY (R239). -/
  | ovly (h : Fin 4)
  /-- EVTT (R239). -/
  | evtt (h : Fin 4)
  /-- BLOCK_RELEASE (R270). -/
  | blockRelease (b : Fin 512)
  /-- LOOP_VALUES_RECEIVE (R287). -/
  | loopValuesReceive (b : Fin 512) (v : LoopValues)
  /-- SECOND_BOUNDARY (R297). -/
  | secondBoundary
  /-- PTP_SYNC_RECEIVE (R299). -/
  | ptpSyncReceive (port : Fin 4) (m : PtpSync)
  /-- PTP_FOLLOW_UP_RECEIVE (R299). -/
  | ptpFollowUpReceive (port : Fin 4) (seq : BitVec 16) (offset : Int)
  /-- PTP_ANNOUNCE_RECEIVE (R307). -/
  | ptpAnnounceReceive (port : Fin 4) (m : PtpAnnounce)
  /-- PTP_ANNOUNCE_TIMEOUT (R304). -/
  | ptpAnnounceTimeout
  /-- PTP_PDELAY_REQ_SEND (R299). -/
  | ptpPdelayReqSend
  /-- PTP_PDELAY_REQ_RECEIVE (R299). -/
  | ptpPdelayReqReceive (port : Fin 4) (seq : BitVec 16)
  /-- PTP_PDELAY_RESP_RECEIVE (R299). -/
  | ptpPdelayRespReceive (port : Fin 4) (delay : Nat)
  /-- PPS_EDGE (R301). -/
  | ppsEdge
  /-- IRIGB_FRAME (R301). -/
  | irigbFrame (offset : Int)
  /-- SOURCE_SWITCH (R302). -/
  | sourceSwitch (src : Fin 4)
  /-- HOLDOVER_EXPIRE (R304). -/
  | holdoverExpire
  /-- LEAP_SECOND (R307). -/
  | leapSecond
  /-- PEAL_SLOT_LOAD (R311). -/
  | pealSlotLoad (e : Fin 1024)
  /-- PEAL_SET_GOUT (R310). -/
  | pealSetGout (e : Fin 1024)
  /-- PEAL_OVERLAY (R310). -/
  | pealOverlay (e : Fin 1024)
  /-- PEAL_CAPTURE (R310). -/
  | pealCapture (e : Fin 1024)
  /-- PEAL_PROFILE_START (R310). -/
  | pealProfileStart (e : Fin 1024)
  /-- PEAL_EVENT_TASK (R310). -/
  | pealEventTask (e : Fin 1024)
  /-- PEAL_HANK_OUTPUT (R356). -/
  | pealHankOutput (e : Fin 1024)
  /-- PEAL_GOOSE_PUBLISH (R336). -/
  | pealGoosePublish (e : Fin 1024)
  /-- PEAL_CONTROLLED_CLOSE (R310). -/
  | pealControlledClose (e : Fin 1024)
  /-- CLOSE_COMMAND (R315). -/
  | closeCommand (bay : Fin 8)
  /-- CLOSE_WINDOW_END (R316). -/
  | closeWindowEnd (bay : Fin 8)
  /-- CLOSE_PULSE_END (R314). -/
  | closePulseEnd (bay : Fin 8)
  /-- LAUNCH_APPLY (R313). -/
  | launchApply (sub : Fin 128)
  /-- PORT_LINK_CHANGE (R363). -/
  | portLinkChange (p : Fin 4) (up : Bool)
  /-- PRP_SUPERVISION_SEND (R327). -/
  | prpSupervisionSend (process : Bool)
  /-- PRP_SUPERVISION_RECEIVE (R327). -/
  | prpSupervisionReceive (p : Fin 4) (tag : PrpTag)
  /-- LANOK_TIMEOUT (R362). -/
  | lanokTimeout (p : Fin 4)
  /-- GOOSE_RECEIVE (R337). -/
  | gooseReceive (p : Fin 4) (m : GooseMsg)
  /-- GOOSE_SUB_LOST (R340). -/
  | gooseSubLost (sub : Fin 128)
  /-- GOOSE_STATE_BUILD (R333). -/
  | gooseStateBuild (g : Fin 32)
  /-- GOOSE_RETRANSMIT (R335). -/
  | gooseRetransmit (g : Fin 32)
  /-- SV_FRAME_PUBLISH (R342). -/
  | svFramePublish (bay : Fin 8)
  /-- SV_RECEIVE (R344). -/
  | svReceive (p : Fin 4) (m : SvMsg)
  /-- SV_STREAM_LOST (R344). -/
  | svStreamLost (r : Fin 16)
  /-- HANK_ANNOUNCE_RECEIVE (R349). -/
  | hankAnnounceReceive (p : Fin 4) (pdu : HankPdu)
  /-- HANK_CONFIG_RESEND (R349). -/
  | hankConfigResend (m : Fin 64)
  /-- HANK_CONFIG_ACK_RECEIVE (R349). -/
  | hankConfigAckReceive (p : Fin 4) (pdu : HankPdu)
  /-- HANK_OUTPUT_SEND (R350). -/
  | hankOutputSend (m : Fin 64)
  /-- HANK_INPUT_RECEIVE (R350). -/
  | hankInputReceive (p : Fin 4) (pdu : HankPdu)
  /-- HANK_MODULE_LOST (R353). -/
  | hankModuleLost (m : Fin 64)
  /-- PLY_LINK_UP (R369). -/
  | plyLinkUp
  /-- PLY_LINK_DOWN (R377). -/
  | plyLinkDown
  /-- PEER_IDENTITY_RECEIVE (R369). -/
  | peerIdentityReceive (p : PeerIdentity)
  /-- PEER_REFUSAL_RECEIVE (R369). -/
  | peerRefusalReceive
  /-- PEER_CLAIM_SILENT (R374). -/
  | peerClaimSilent (linkStopped : Bool)
  /-- CLAIM_DISAGREE_TIMEOUT (R374). -/
  | claimDisagreeTimeout
  /-- CLAIM_BACKOFF_END (R374). -/
  | claimBackoffEnd
  /-- CLAIM_WATCHDOG_EXPIRE (R375). -/
  | claimWatchdogExpire
  /-- ALONE_TIMEOUT (R371). -/
  | aloneTimeout
  /-- ISOLATION_TIMEOUT (R384). -/
  | isolationTimeout
  /-- PEER_RESULTS_RECEIVE (R376). -/
  | peerResultsReceive (bay : Fin 8) (n : Nat) (bits : List (Nat × (Bool × Bool)))
  /-- PEER_TRIP_STATE_RECEIVE (R376). -/
  | peerTripStateReceive (w : Word)
  /-- MERGE_WINDOW_END (R377). -/
  | mergeWindowEnd (bay : Fin 8)
  /-- SHIPPED_FRAME_RECEIVE (R378). -/
  | shippedFrameReceive (f : TxFrame)
  /-- SHIP_ACK_RECEIVE (R378). -/
  | shipAckReceive
  /-- SHIP_ACK_TIMEOUT (R378). -/
  | shipAckTimeout
  /-- COPY_SNAPSHOT_TAKE (R385). -/
  | copySnapshotTake
  /-- COPY_SNAPSHOT_RECEIVE (R385). -/
  | copySnapshotReceive (snap : Snapshot)
  /-- SHADOW_PASS_TIMEOUT (R387). -/
  | shadowPassTimeout
  /-- FORWARDED_COMMAND_RECEIVE (R379). -/
  | forwardedCommandReceive (opc : Byte) (e : HostEntry) (t : Nat)
  /-- PEER_OVERLAY_RECEIVE (R379). -/
  | peerOverlayReceive (k : Fin 9) (src : Fin 6) (t : Nat)
  /-- PEER_TRIP_RESET_RECEIVE (R380). -/
  | peerTripResetReceive (ch : Fin 32)
  /-- ALMANAC_VALUE (R393). -/
  | almanacValue (src : BitVec 16) (v invalid : Computed)
  /-- INTERRUPTION_MEASURE_END (R394). -/
  | interruptionMeasureEnd (ch : Fin 32)
  /-- INTERVAL_BOUNDARY (R398). -/
  | intervalBoundary (k : Fin 5)
  /-- ALMANAC_COMMIT (R403). -/
  | almanacCommit (verified : Bool) (cause : Fin 6) (addr : Word)
  /-- COMMIT_LATE (R403). -/
  | commitLate
  /-- KEEP_SCAN_DONE (R407). -/
  | keepScanDone
  /-- REMOTE_RECORD_RECEIVE (R408). -/
  | remoteRecordReceive (r : AlmRecord)
  /-- OVERLAY_TAKE_EFFECT (R434). -/
  | overlayTakeEffect
  /-- REEVE_CYCLE (R450). -/
  | reeveCycle (x : ReeveIn)
  /-- ECC_ERROR_DETECT (R450). -/
  | eccErrorDetect (region : EccRegion) (engine : Fin 24) (uncorrectable : Bool)
  /-- CLUSTER_CLOCK_RETURN (R450). -/
  | clusterClockReturn (c : Fin 4)
  /-- THERMAL_THROTTLE_STEP (R450). -/
  | thermalThrottleStep (c : Fin 4)
  /-- PFW_ASSERT (R375). -/
  | pfwAssert
  /-- WATCHMAN_ENTRY (R452). -/
  | watchmanEntry
  /-- WATCHMAN_EXIT (R453). -/
  | watchmanExit
  /-- RESET_N_ASSERT (R505). -/
  | resetNAssert (boot : Option Boot)
  /-- KEEP_ALIVE_TO_VBAT (R505). -/
  | keepAliveToVbat
  /-- KEEP_ALIVE_TO_VDD_KA (R505). -/
  | keepAliveToVddKa
  /-- RESTART_RESET (R444). -/
  | restartReset
  /-- TELEMETRY_POST (R482). -/
  | telemetryPost
  /-- ATTEST_REFRESH (R454). -/
  | attestRefresh
  /-- ATTEST_REPORT_DONE (R465). -/
  | attestReportDone
  /-- ECHO (R484). -/
  | echo (e : HostEntry)
  /-- URGENT_CONVERT (R484). -/
  | urgentConvert (e : HostEntry)
  /-- TRACKER_RESET (R484). -/
  | trackerReset (e : HostEntry)
  /-- TRIP_RESET (R484). -/
  | tripReset (e : HostEntry)
  /-- CAPTURE_TRIGGER (R484). -/
  | captureTrigger (e : HostEntry)
  /-- CAPTURE_ACK (R484). -/
  | captureAck (e : HostEntry)
  /-- CAPTURE_LOCK (R484). -/
  | captureLock (e : HostEntry)
  /-- CAPTURE_UNLOCK (R484). -/
  | captureUnlock (e : HostEntry)
  /-- FORCE_SET (R484). -/
  | forceSet (e : HostEntry)
  /-- FORCE_CLEAR (R484). -/
  | forceClear (e : HostEntry)
  /-- FORCE_CLEAR_ALL (R484). -/
  | forceClearAll (e : HostEntry)
  /-- ONLINE_SET (R484). -/
  | onlineSet (e : HostEntry)
  /-- LOGIC_RUN (R484). -/
  | logicRun (e : HostEntry)
  /-- LOGIC_STOP (R484). -/
  | logicStop (e : HostEntry)
  /-- LOGIC_HOLD (R484). -/
  | logicHold (e : HostEntry)
  /-- LOGIC_STEP (R484). -/
  | logicStep (e : HostEntry)
  /-- OVERLAY_SET (R484). -/
  | overlaySet (e : HostEntry)
  /-- PLY_YIELD (R484). -/
  | plyYield (e : HostEntry)
  /-- RESTART (R484). -/
  | restart (e : HostEntry)
  /-- ATTEST (R484). -/
  | attest (e : HostEntry) (nonce : BitVec 256)
  /-- OWNER_WRITE (R464). -/
  | ownerWrite (e : HostEntry) (tk : Token)
  /-- OWNER_REVOKE (R464). -/
  | ownerRevoke (e : HostEntry) (tk : Token)
  /-- DEBUG_UNLOCK (R466). -/
  | debugUnlock (e : HostEntry) (tk : Token)
  /-- DEBUG_BAN (R466). -/
  | debugBan (e : HostEntry) (tk : Token)
  /-- HST_Q_TAIL_WRITE (R477). -/
  | hstQTailWrite (r : Fin 8) (v : Word)
  /-- HST_Q_HEAD_WRITE (R477). -/
  | hstQHeadWrite (r : Fin 8) (v : Word)
  /-- HST_EVT_PEND_WRITE (R479). -/
  | hstEvtPendWrite (k : Fin 4) (v : Word)
  /-- HST_EVT_MASK_WRITE (R480). -/
  | hstEvtMaskWrite (k : Fin 4) (v : Word)
  /-- KA_ON_VBAT_CLEAR (R26). -/
  | kaOnVbatClear (v : Word)
  /-- ALM_CUR_WRITE (R406). -/
  | almCurWrite (v : Word)
  /-- ALM_WIN_W63_READ (R406). -/
  | almWinW63Read
  /-- ACC_SEQ_READ (R58). -/
  | accSeqRead (lane : Fin 128)
  /-- TRK_MIN_READ (R60). -/
  | trkMinRead (lane : Fin 128)
  /-- TRK_STAT_READ (R60). -/
  | trkStatRead (lane : Fin 128)
  /-- FRMCNT_LO_READ (R23). -/
  | frmcntLoRead (bay : Fin 8)
  /-- MEAS_FRM_READ (R151). -/
  | measFrmRead (bay : Fin 8)
  /-- MOT_STAT_READ (R200). -/
  | motStatRead (bay : Fin 8)
  /-- CFL_STAT_READ (R200). -/
  | cflStatRead (bay : Fin 8)
  /-- BSTAT_READ (R293). -/
  | bstatRead (b : Fin 512)
  /-- TIM_NOW_LO_READ (R296). -/
  | timNowLoRead
  /-- LASTTO_LO_READ (R389). -/
  | lasttoLoRead
  /-- OVL_T_LO_READ (R438). -/
  | ovlTLoRead
  /-- BIN_TS_LO_READ (R488). -/
  | binTsLoRead (i : Fin 32)
  /-- BAD_HOST_READ (R4). -/
  | badHostRead (bar2 : Bool) (off : Nat) (width : Nat)
  /-- REGISTER_WRITE_OTHER (R475). -/
  | registerWriteOther (bar2 : Bool) (off : Nat) (width : Nat) (v : Word)
  /-- PEER_CLAIM_START (R372). -/
  | peerClaimStart
  /-- SUPERVISOR_WATCHDOG_EXPIRY (R375). -/
  | supervisorWatchdogExpiry
  /-- RAIL_OUT_OF_RANGE (R518). -/
  | railOutOfRange
  /-- CRYSTAL_STOP (R518). -/
  | crystalStop
  /-- TIME_SOURCE_LOSS (R304). -/
  | timeSourceLoss (src : Fin 4)
  /-- GOOSE_LAUNCH_TIME_REACHED (R336). -/
  | gooseLaunchTimeReached (g : Fin 32)
  /-- PCIE_LINK_CHANGE (R491). -/
  | pcieLinkChange (up : Bool) (speed : Fin 4) (width : Fin 3)
  /-- STREAMED_CHANGE_RECEIVE (R385). -/
  | streamedChangeReceive (c : StreamedChange)
  deriving DecidableEq, Repr

end Sys2Proof
end

