-- ==== Sys2Proof/Config.lean ====
section
/-! DEFINITION. What an implementation fixes and what the spec leaves open, as opaque constants: no body, so no proof can see a
value. Those applied to `State.freeSeq` are the free values of assumption 4; the others are functions the spec names without
giving. -/

namespace Sys2Proof.Config

/-! ### Free values (assumption 4): applied to the counter `State.freeSeq`. -/

/-- A free 32-bit word. -/
opaque freeWord : Nat → BitVec 32
/-- A free natural number. -/
opaque freeNat : Nat → Nat
/-- A free integer. -/
opaque freeInt : Nat → Int
/-- A free choice. -/
opaque freeBool : Nat → Bool
/-- A free octet. -/
opaque freeByte : Nat → BitVec 8

/-! ### Rounding (assumption 9). -/

/-- Which way "rounded to nearest" goes at an exact tie, where the spec gives no tie rule: numerator and denominator of the
quotient rounded (R72, R56, R41, R90). -/
opaque roundTieUp : Int → Nat → Bool
/-- The logarithm of a number that has none : the spec states no result there. -/
opaque logBad : Rat → Rat

/-! ### Analog facts the spec does not give. -/

/-- Phase in ns of the test DAC's triangle, which the spec does not state (R78). -/
opaque dacPhase : Nat
/-- Test DAC code at a slot while a calibration drives it (R71, R78: its order of points is not stated). -/
opaque dacCal : Nat → Int
/-- Temperature in °C of a diode reading (R79; the transfer is not stated). -/
opaque diodeTemp : Int → Int
/-- ROM half-band taps at offsets ±(2k + 1) (R92): design, k. -/
opaque halfBandTap : Nat → Nat → Rat
/-- The 6-tap fractional-delay interpolator of the range merge (R91): place between two samples, tap. -/
opaque mergeTap : Rat → Nat → Rat
/-- The resampler's ROM (R98): phase 0–1,024, tap. -/
opaque resampleTap : Nat → Nat → Rat
/-- The Watchman feed's fixed 23-tap half-band (R114): taps at offsets ±(2k + 1). -/
opaque feedTap : Nat → Rat
/-- The 4-tap fractional delay of the wavefront branch (R112): place between two samples, tap. -/
opaque waveTap : Rat → Nat → Rat
/-- The chain's computation time within its latency (R89: at most 10 µs): the delay in ns. -/
opaque chainCompute : Rat → Nat
/-- What a delay line holds where no sample came (R91, R104: without VALID, its value not stated): lane, or 128 + signal, and index. -/
opaque missingSample : Nat → Int → Int

/-! ### Profiles (R289; assumption 11). -/

/-- What the profile does with a limit VMAX, AMAX or JMAX of 0 or below, for which no run within the limits exists: the sign of each segment's
jerk and its length in parts of 2⁻³² ns. -/
opaque noPlan : List (Int × Nat)

/-! ### Ring window (R474) -/

/-- A BAR2 offset lies in a buffer of Q03: the places of the buffers are not stated. -/
opaque bulkBuffer : Nat → Bool
/-- The ring-window offset of an entry's buffer (R476, R478): ring, index. -/
opaque ringBuffer : Nat → Nat → Nat

/-! ### Engine locals (R27, R29) -/

/-- An internal address within an engine's local memory lies in a coefficient or table area: their places are not stated. -/
opaque localTable : Nat → Bool

/-! ### The device's own identity -/

/-- The identity digest that SEC_ID shows (R463): OTP content of the one device. -/
opaque identityDigest : BitVec 384

end Sys2Proof.Config
end

