-- ==== Sys2Proof/Machine/Fp.lean ====
section
/-! DEFINITION. Binary32 arithmetic as the Heddles do it (R233): round to nearest even, subnormal operands and results taken as
zero of the same sign. Magnitudes are exact fractions of natural numbers. -/

namespace Sys2Proof.Machine

/-- What a binary32 pattern stands for, subnormals taken as zero: sign with a magnitude num × 2^sh / 2^150. -/
inductive FpNum where
  | nan
  | inf (neg : Bool)
  | zero (neg : Bool)
  /-- (−1)^neg × mant × 2^(ex − 150), with 2²³ ≤ mant < 2²⁴ and 1 ≤ ex ≤ 254. -/
  | fin (neg : Bool) (mant ex : Nat)
  deriving DecidableEq, Repr

/-- Read a binary32 pattern. -/
def fpDecode (w : Word) : FpNum :=
  let n := w.toNat
  let neg := n.testBit 31
  let ex := n / 2 ^ 23 % 256
  let frac := n % 2 ^ 23
  if ex = 255 then (if frac = 0 then .inf neg else .nan)
  else if ex = 0 then .zero neg
  else .fin neg (2 ^ 23 + frac) ex

/-- The sign bit. -/
def fpSignBit (neg : Bool) : Nat := if neg then 2 ^ 31 else 0

/-- Zero of a sign. -/
def fpZero (neg : Bool) : Word := BitVec.ofNat 32 (fpSignBit neg)

/-- Infinity of a sign. -/
def fpInf (neg : Bool) : Word := BitVec.ofNat 32 (fpSignBit neg + 0x7F800000)

/-- Some NaN pattern made from a free word: which NaN a result is, the spec does not say. -/
def fpSomeNan (f : Word) : Word :=
  let w := f ||| 0x7F800000
  if w.toNat % 2 ^ 23 = 0 then w ||| 1 else w

/-- ⌊log₂ (num/den)⌋ offset by `2^10`, for positive num and den. -/
def fpLog2 (num den : Nat) : Nat :=
  let e := 1024 + num.log2 - den.log2
  let low := if 1024 ≤ e then Nat.blt num (den * 2 ^ (e - 1024)) else Nat.blt (num * 2 ^ (1024 - e)) den
  if low then e - 1 else e

/-- num/den divided by 2^(u − 1024), rounded to nearest even. -/
def fpScaleRound (num den u : Nat) : Nat :=
  let n := if 1024 ≤ u then num else num * 2 ^ (1024 - u)
  let d := if 1024 ≤ u then den * 2 ^ (u - 1024) else den
  let q := n / d
  let r := n % d
  if 2 * r < d then q
  else if d < 2 * r then q + 1
  else if q % 2 = 0 then q else q + 1

/-- The binary32 of (−1)^neg × num/den, num and den positive: nearest even, overflow to infinity, subnormal to zero. -/
def fpRound (neg : Bool) (num den : Nat) : Word :=
  let e := fpLog2 num den
  let u := max (e - 23) 875
  let m0 := fpScaleRound num den u
  let carry := m0 = 2 ^ 24
  let m := if carry then 2 ^ 23 else m0
  let ex := (if carry then u + 1 else u) - 874
  if m < 2 ^ 23 then fpZero neg
  else if 255 ≤ ex then fpInf neg
  else BitVec.ofNat 32 (fpSignBit neg + ex * 2 ^ 23 + (m - 2 ^ 23))

/-- A signed exact value scaled by 2^150. -/
def fpExact : FpNum → Int
  | .fin neg m ex => if neg then -((m * 2 ^ ex : Nat) : Int) else ((m * 2 ^ ex : Nat) : Int)
  | _ => 0

/-- The outcome of an operation: a word, or a NaN whose pattern is not fixed. -/
inductive FpRes where
  | word (w : Word)
  | nan
  deriving DecidableEq, Repr

/-- Sum. -/
def fpAdd (a b : FpNum) : FpRes :=
  match a, b with
  | .nan, _ => .nan
  | _, .nan => .nan
  | .inf p, .inf q => if p = q then .word (fpInf p) else .nan
  | .inf p, _ => .word (fpInf p)
  | _, .inf q => .word (fpInf q)
  | .zero p, .zero q => .word (fpZero (p && q))
  | a, b =>
    let v := fpExact a + fpExact b
    if v = 0 then .word (fpZero false) else .word (fpRound (decide (v < 0)) v.natAbs (2 ^ 150))

/-- Negation. -/
def fpNegate : FpNum → FpNum
  | .nan => .nan
  | .inf p => .inf !p
  | .zero p => .zero !p
  | .fin p m e => .fin (!p) m e

/-- Product. -/
def fpMul (a b : FpNum) : FpRes :=
  match a, b with
  | .nan, _ => .nan
  | _, .nan => .nan
  | .inf p, .inf q => .word (fpInf (p != q))
  | .inf _, .zero _ => .nan
  | .zero _, .inf _ => .nan
  | .inf p, .fin q _ _ => .word (fpInf (p != q))
  | .fin p _ _, .inf q => .word (fpInf (p != q))
  | .zero p, .zero q => .word (fpZero (p != q))
  | .zero p, .fin q _ _ => .word (fpZero (p != q))
  | .fin p _ _, .zero q => .word (fpZero (p != q))
  | .fin p m e, .fin q n f => .word (fpRound (p != q) (m * n * 2 ^ (e + f)) (2 ^ 300))

/-- Quotient. -/
def fpDiv (a b : FpNum) : FpRes :=
  match a, b with
  | .nan, _ => .nan
  | _, .nan => .nan
  | .inf _, .inf _ => .nan
  | .inf p, .zero q => .word (fpInf (p != q))
  | .inf p, .fin q _ _ => .word (fpInf (p != q))
  | .zero p, .inf q => .word (fpZero (p != q))
  | .fin p _ _, .inf q => .word (fpZero (p != q))
  | .zero _, .zero _ => .nan
  | .zero p, .fin q _ _ => .word (fpZero (p != q))
  | .fin p _ _, .zero q => .word (fpInf (p != q))
  | .fin p m e, .fin q n f => .word (fpRound (p != q) (m * 2 ^ e) (n * 2 ^ f))

/-- Whether a pattern is finite. -/
def fpIsFinite (w : Word) : Bool := w.toNat / 2 ^ 23 % 256 != 255

/-- Whether a pattern is infinite. -/
def fpIsInf (w : Word) : Bool := w.toNat % 2 ^ 31 == 0x7F800000

/-- Whether a pattern is a NaN. -/
def fpIsNan (w : Word) : Bool := Nat.blt 0x7F800000 (w.toNat % 2 ^ 31)

/-- Whether a pattern is ±0. -/
def fpIsZero (w : Word) : Bool := w.toNat % 2 ^ 31 == 0

/-- A signed integer as binary32, nearest even. -/
def fpOfInt (i : Int) : Word := if i = 0 then fpZero false else fpRound (decide (i < 0)) i.natAbs 1

/-- A finite value rounded to the nearest even integer. -/
def fpToInt (neg : Bool) (m e : Nat) : Int :=
  let r := fpScaleRound (m * 2 ^ e) (2 ^ 150) 1024
  if neg then -(r : Int) else (r : Int)

/-- Whether a compares as less than b (neither a NaN); −1 less, 0 equal, 1 greater. -/
def fpCompare (a b : FpNum) : Int :=
  let key : FpNum → Int
    | .inf true => -(2 ^ 500)
    | .inf false => 2 ^ 500
    | x => fpExact x
  if key a < key b then -1 else if key a = key b then 0 else 1

/-- The exact value of a finite binary32 pattern, subnormals included; 0 for infinities and NaN. -/
def fpVal (w : Word) : Rat :=
  let n := w.toNat
  let ex := n / 2 ^ 23 % 256
  let frac := n % 2 ^ 23
  let mag : Nat := if ex = 255 then 0 else if ex = 0 then frac * 2 else (2 ^ 23 + frac) * 2 ^ ex
  let r := mkRat (mag : Int) (2 ^ 150)
  if n.testBit 31 then -r else r

end Sys2Proof.Machine
end

