-- ==== Sys2Proof/Machine/RealFn.lean ====
section
/-! DEFINITION. The real functions that the spec's formulas name, to about 70 bits after the point (assumption 9): square root, sine,
cosine and arc tangent with angles in turns, exponential, logarithm and power; and the FP32 word of an exact engine value. -/

namespace Sys2Proof.Machine

/-- The scale of the fixed-point series. -/
def fixOne : Int := 2 ^ 80

/-- A fraction in fixed point. -/
def fixOf (x : Rat) : Int := (x * (fixOne : Rat)).floor

/-- A fixed-point value as a fraction. -/
def fixRat (x : Int) : Rat := mkRat x (2 ^ 80)

/-- Product in fixed point. -/
def fixMul (a b : Int) : Int := a * b / fixOne

/-- 2π in fixed point. -/
def fixTwoPi : Int := 7595904947272677161575987

/-- ln 2 in fixed point. -/
def fixLn2 : Int := 837963523372001241319907

/-- Square root; 0 below 0. -/
def realSqrt (x : Rat) : Rat := if x ≤ 0 then 0 else mkRat (Nat.sqrt (x * 2 ^ 160).floor.toNat : Int) (2 ^ 80)

/-- 1 − y/((d + 1)(d + 2)) × (1 − y/((d + 3)(d + 4)) × …), `n` factors: the series of the cosine for d = 0, of sin x / x for d = 1,
with y = x². -/
def trigSeries (y : Int) : Nat → Nat → Int
  | 0, _ => fixOne
  | n + 1, d => fixOne - fixMul y (trigSeries y n (d + 2)) / (((d + 1) * (d + 2) : Nat) : Int)

/-- Cosine of an angle of at most an eighth of a turn. -/
def cosSmall (t : Rat) : Rat :=
  let x := fixMul (fixOf t) fixTwoPi
  fixRat (trigSeries (fixMul x x) 16 0)

/-- Sine of an angle of at most an eighth of a turn. -/
def sinSmall (t : Rat) : Rat :=
  let x := fixMul (fixOf t) fixTwoPi
  fixRat (fixMul x (trigSeries (fixMul x x) 16 1))

/-- Cosine on the first quarter of a turn. -/
def cosQuarter (t : Rat) : Rat := if t ≤ 1 / 8 then cosSmall t else sinSmall (1 / 4 - t)

/-- Cosine of an angle in turns. -/
def realCos (t : Rat) : Rat :=
  let u := t - (((t - 1 / 2).ceil : Int) : Rat)
  let a := if u < 0 then -u else u
  if a ≤ 1 / 4 then cosQuarter a else -cosQuarter (1 / 2 - a)

/-- Sine of an angle in turns. -/
def realSin (t : Rat) : Rat := realCos (t - 1 / 4)

/-- 1/(2k + 1) − y × (1/(2k + 3) − y × …), `n` terms more: the series of atan x / x with y = x². -/
def atanSeries (y : Int) : Nat → Nat → Int
  | 0, k => fixOne / ((2 * k + 1 : Nat) : Int)
  | n + 1, k => fixOne / ((2 * k + 1 : Nat) : Int) - fixMul y (atanSeries y n (k + 1))

/-- The tangent of half the angle whose tangent is `q`. -/
def halfTan (q : Rat) : Rat := q / (1 + realSqrt (1 + q * q))

/-- Arc tangent in turns of a tangent in 0–1. -/
def atanOctant (q : Rat) : Rat :=
  if q = 1 then 1 / 8
  else
    let x := fixOf (halfTan (halfTan q))
    mkRat (4 * fixMul x (atanSeries (fixMul x x) 24 0)) fixTwoPi.toNat

/-- The angle in turns of the vector (re, im), in (−1/2, 1/2]; 0 for the zero vector. -/
def realAtan (re im : Rat) : Rat :=
  let a := if re < 0 then -re else re
  let b := if im < 0 then -im else im
  let o := if a = 0 ∧ b = 0 then 0 else if b ≤ a then atanOctant (b / a) else 1 / 4 - atanOctant (a / b)
  let h := if re < 0 then 1 / 2 - o else o
  if im < 0 then -h else h

/-- 1 + x/d × (1 + x/(d + 1) × …), `n` factors. -/
def expSeries (x : Int) : Nat → Nat → Int
  | 0, _ => fixOne
  | n + 1, d => fixOne + fixMul x (expSeries x n (d + 1)) / (d : Int)

/-- e to the power. -/
def realExp (x : Rat) : Rat :=
  if x < -200 then 0
  else
    let f := fixOf x
    let n := f / fixLn2
    fixRat (expSeries (f % fixLn2) 28 1) * (2 : Rat) ^ n

/-- 1/(2k + 1) + y × (1/(2k + 3) + y × …), `n` terms more. -/
def logSeries (y : Int) : Nat → Nat → Int
  | 0, k => fixOne / ((2 * k + 1 : Nat) : Int)
  | n + 1, k => fixOne / ((2 * k + 1 : Nat) : Int) + fixMul y (logSeries y n (k + 1))

/-- Natural logarithm; a free value where it has none. -/
def realLog (x : Rat) : Rat :=
  if x ≤ 0 then Config.logBad x
  else
    let n : Int := (x.num.toNat.log2 : Int) - (x.den.log2 : Int)
    let m := x / (2 : Rat) ^ n
    let z := fixOf ((m - 1) / (m + 1))
    fixRat (2 * fixMul z (logSeries (fixMul z z) 28 0) + n * fixLn2)

/-- A positive base to a power. -/
def realPow (b e : Rat) : Rat := realExp (e * realLog b)

/-- The FP32 word of an exact engine value: nearest, a tie to even, 0 for what is below the normal range. -/
def peWord (x : Rat) : Word := if x = 0 then 0 else fpRound (decide (x < 0)) x.num.natAbs x.den

end Sys2Proof.Machine
end

