-- ==== Sys2Proof/Machine/Regs.lean ====
section
/-! DEFINITION. The register map: the BAR0 offset of every register (block bases R473, offsets of each chapter's register
table), the bit range of every field, the reset words and the numbers of the 128 event sources (R479). -/

namespace Sys2Proof.Machine

/-- A register field: its top and bottom bit. -/
structure Fld where
  hi : Nat
  lo : Nat
  deriving DecidableEq, Repr

/-! ### Addresses: `A.NAME index …` is the BAR0 offset of register NAME. -/

namespace A

/-! R23 -/
def FLT_FRMCNT_LO (n : Nat) : Nat := 0x0028F000 + 0x20 * n
def FLT_FRMCNT_HI (n : Nat) : Nat := 0x0028F004 + 0x20 * n
def FLT_FRMTIME_LO (n : Nat) : Nat := 0x0028F008 + 0x20 * n
def FLT_FRMTIME_HI (n : Nat) : Nat := 0x0028F00C + 0x20 * n
def FLT_FRMPER (n : Nat) : Nat := 0x0028F010 + 0x20 * n
def FLT_FRMSTAT (n : Nat) : Nat := 0x0028F014 + 0x20 * n
def FLT_FRMRT (n : Nat) : Nat := 0x0028F018 + 0x20 * n
/-! R25 -/
def PWR_DOMAIN_STAT : Nat := 0x00980000
def PWR_CLUSTER (n : Nat) : Nat := 0x00980010 + 0x4 * n
def PWR_PGWAKE (n : Nat) : Nat := 0x00980020 + 0x4 * n
def PWR_CGWAKE (n : Nat) : Nat := 0x00980030 + 0x4 * n
/-! R65 -/
def ACQ_STAT : Nat := 0x00100000
def ACQ_URG_DROP_A : Nat := 0x00100040
def ACQ_URG_DROP_B : Nat := 0x00100044
def ACQ_URG_RES_HOST : Nat := 0x00100048
def ACQ_URG_RES_HDL : Nat := 0x0010004C
def ACQ_XCK_THR : Nat := 0x00100050
def ACQ_XCK_STAT : Nat := 0x00100054
def ACQ_SLICE (n : Nat) : Nat := 0x00100100 + 0x4 * n
def ACQ_LANE (n : Nat) : Nat := 0x00101000 + 0x4 * n
def ACQ_ACCCFG (n : Nat) : Nat := 0x00101200 + 0x4 * n
def ACQ_ACC_SEQ (n : Nat) : Nat := 0x00102000 + 0x20 * n
def ACQ_ACC_CNT (n : Nat) : Nat := 0x00102004 + 0x20 * n
def ACQ_ACC_SUM_LO (n : Nat) : Nat := 0x00102008 + 0x20 * n
def ACQ_ACC_SUM_HI (n : Nat) : Nat := 0x0010200C + 0x20 * n
def ACQ_ACC_SSQ_LO (n : Nat) : Nat := 0x00102010 + 0x20 * n
def ACQ_ACC_SSQ_HI (n : Nat) : Nat := 0x00102014 + 0x20 * n
def ACQ_ACC_FLG (n : Nat) : Nat := 0x00102018 + 0x20 * n
def ACQ_TRK_MIN (n : Nat) : Nat := 0x00103000 + 0x20 * n
def ACQ_TRK_MAX (n : Nat) : Nat := 0x00103004 + 0x20 * n
def ACQ_TRK_MINT_LO (n : Nat) : Nat := 0x00103008 + 0x20 * n
def ACQ_TRK_MINT_HI (n : Nat) : Nat := 0x0010300C + 0x20 * n
def ACQ_TRK_MAXT_LO (n : Nat) : Nat := 0x00103010 + 0x20 * n
def ACQ_TRK_MAXT_HI (n : Nat) : Nat := 0x00103014 + 0x20 * n
def ACQ_TRK_FLG (n : Nat) : Nat := 0x00103018 + 0x20 * n
def ACQ_TRK_STAT (n : Nat) : Nat := 0x0010301C + 0x20 * n
def ACQ_REEL (n m : Nat) : Nat := 0x00108000 + 0x400 * n + 0x4 * m
/-! R85 -/
def CAL_STAT : Nat := 0x00200000
def CAL_ROT_CFG : Nat := 0x00200004
def CAL_SEARCH : Nat := 0x00200008
def CAL_CNT : Nat := 0x0020000C
def CAL_OPEN_THR : Nat := 0x00200010
def CAL_INJ_CTL : Nat := 0x00200014
def CAL_INJ_STAT : Nat := 0x00200018
def CAL_PB_THR : Nat := 0x0020001C
def CAL_DAC_OFS : Nat := 0x00200020
def CAL_DAC_GAIN : Nat := 0x00200024
def CAL_CONV (n : Nat) : Nat := 0x00200040 + 0x4 * n
def CAL_OFS (n m : Nat) : Nat := 0x00200100 + 0x20 * n + 0x8 * m
def CAL_GAIN (n m : Nat) : Nat := 0x00200104 + 0x20 * n + 0x8 * m
def CAL_LIN (n m : Nat) : Nat := 0x00201000 + 0x200 * n + 0x4 * m
def CAL_OPEN_W (n : Nat) : Nat := 0x00204000 + 0x4 * n
def CAL_INJ_W (n : Nat) : Nat := 0x00204010 + 0x4 * n
def CAL_PB : Nat := 0x00204020
def CAL_DIAG (n : Nat) : Nat := 0x00204040 + 0x4 * n
/-! R116 -/
def FLT_STAT : Nat := 0x00280000
def FLT_HBU_CFG : Nat := 0x00280004
def FLT_BAYCFG (n : Nat) : Nat := 0x00280100 + 0x20 * n
def FLT_TRKCFG (n : Nat) : Nat := 0x00280104 + 0x20 * n
def FLT_TRK (n : Nat) : Nat := 0x00280108 + 0x20 * n
def FLT_SETTLE (n : Nat) : Nat := 0x0028010C + 0x20 * n
def FLT_WFCFG (n : Nat) : Nat := 0x00280110 + 0x20 * n
def FLT_WFSTAT (n : Nat) : Nat := 0x00280114 + 0x20 * n
def FLT_SVBR (n : Nat) : Nat := 0x00280118 + 0x20 * n
def FLT_LAT (n : Nat) : Nat := 0x0028011C + 0x20 * n
def FLT_LANE (n : Nat) : Nat := 0x00280800 + 0x4 * n
def FLT_SIG (n : Nat) : Nat := 0x00281000 + 0x4 * n
def FLT_FIR (n m : Nat) : Nat := 0x00284000 + 0x100 * n + 0x4 * m
def FLT_HBU (n m : Nat) : Nat := 0x0028A000 + 0x40 * n + 0x4 * m
/-! R149 -/
def PRT_STAT : Nat := 0x00300000
def PRT_TCH_STATE : Nat := 0x00300004
def PRT_TCH_LATCHED : Nat := 0x00300008
def PRT_TCH_PULSE : Nat := 0x0030000C
def PRT_WM_STATE : Nat := 0x00300010
def PRT_LTRQ : Nat := 0x00300014
def PRT_LIGHT : Nat := 0x00300018
def PRT_WM_THR (n : Nat) : Nat := 0x00300020 + 0x4 * n
def PRT_WM_MAP (n : Nat) : Nat := 0x00300040 + 0x4 * n
def PRT_TCH_CFG (n : Nat) : Nat := 0x00300100 + 0x4 * n
def PRT_TCH_CNT (n : Nat) : Nat := 0x00300180 + 0x4 * n
def PRT_TOUT (n : Nat) : Nat := 0x00300200 + 0x4 * n
def PRT_BAYCFG (n : Nat) : Nat := 0x00300400 + 0x40 * n
def PRT_K0RE (n : Nat) : Nat := 0x00300404 + 0x40 * n
def PRT_K0IM (n : Nat) : Nat := 0x00300408 + 0x40 * n
def PRT_VNOM (n : Nat) : Nat := 0x0030040C + 0x40 * n
def PRT_ISCALE (n : Nat) : Nat := 0x00300410 + 0x40 * n
def PRT_VSCALE (n : Nat) : Nat := 0x00300414 + 0x40 * n
def PRT_RESTIME (n : Nat) : Nat := 0x00300418 + 0x40 * n
def PRT_TCH_SRC (n m : Nat) : Nat := 0x00301000 + 0x80 * n + 0x4 * m
/-! R151 -/
def PRT_MEAS_FRM (n : Nat) : Nat := 0x00308000 + 0x100 * n
def PRT_MEAS_F (n : Nat) : Nat := 0x00308004 + 0x100 * n
def PRT_MEAS_ROCOF (n : Nat) : Nat := 0x00308008 + 0x100 * n
def PRT_MEAS_FLG (n : Nat) : Nat := 0x0030800C + 0x100 * n
def PRT_MEAS_SIGM (n m : Nat) : Nat := 0x00308010 + 0x100 * n + 0x8 * m
def PRT_MEAS_SIGA (n m : Nat) : Nat := 0x00308014 + 0x100 * n + 0x8 * m
def PRT_MEAS_ISEQM (n m : Nat) : Nat := 0x00308068 + 0x100 * n + 0x8 * m
def PRT_MEAS_ISEQA (n m : Nat) : Nat := 0x0030806C + 0x100 * n + 0x8 * m
def PRT_MEAS_VSEQM (n m : Nat) : Nat := 0x00308080 + 0x100 * n + 0x8 * m
def PRT_MEAS_VSEQA (n m : Nat) : Nat := 0x00308084 + 0x100 * n + 0x8 * m
def PRT_MEAS_P (n : Nat) : Nat := 0x00308098 + 0x100 * n
def PRT_MEAS_Q (n : Nat) : Nat := 0x0030809C + 0x100 * n
def PRT_MEAS_ZM (n m : Nat) : Nat := 0x003080A0 + 0x100 * n + 0x8 * m
def PRT_MEAS_ZA (n m : Nat) : Nat := 0x003080A4 + 0x100 * n + 0x8 * m
def PRT_MEAS_THD (n m : Nat) : Nat := 0x003080D0 + 0x100 * n + 0x4 * m
/-! R150 -/
def PRT_EI_CFG (n : Nat) : Nat := 0x00310000 + 0x40 * n
def PRT_EI_PU (n : Nat) : Nat := 0x00310004 + 0x40 * n
def PRT_EI_DR (n : Nat) : Nat := 0x00310008 + 0x40 * n
def PRT_EI_TIM (n : Nat) : Nat := 0x0031000C + 0x40 * n
def PRT_EI_TMS (n : Nat) : Nat := 0x00310010 + 0x40 * n
def PRT_EI_TR (n : Nat) : Nat := 0x00310014 + 0x40 * n
def PRT_EI_TMIN (n : Nat) : Nat := 0x00310018 + 0x40 * n
def PRT_EI_GMAX (n : Nat) : Nat := 0x0031001C + 0x40 * n
def PRT_EI_BLK01 (n : Nat) : Nat := 0x00310020 + 0x40 * n
def PRT_EI_BLK23 (n : Nat) : Nat := 0x00310024 + 0x40 * n
def PRT_EI_STATE (n : Nat) : Nat := 0x00310028 + 0x40 * n
def PRT_EI_H (n : Nat) : Nat := 0x0031002C + 0x40 * n
def PRT_EI_CNT (n : Nat) : Nat := 0x00310030 + 0x40 * n
/-! R149 -/
def PRT_UC_M (n m : Nat) : Nat := 0x00318000 + 0x80 * n + 0x8 * m
def PRT_UC_T (n m : Nat) : Nat := 0x00318004 + 0x80 * n + 0x8 * m
def PRT_EX (n m : Nat) : Nat := 0x00320000 + 0x40 * n + 0x4 * m
/-! R200 -/
def PRT_MOT_STAT (n : Nat) : Nat := 0x00300800 + 0x40 * n
def PRT_MOT_THS (n : Nat) : Nat := 0x00300804 + 0x40 * n
def PRT_MOT_THR (n : Nat) : Nat := 0x00300808 + 0x40 * n
def PRT_MOT_TRST (n : Nat) : Nat := 0x0030080C + 0x40 * n
def PRT_MOT_LSTT (n : Nat) : Nat := 0x00300810 + 0x40 * n
def PRT_MOT_LSI2T (n : Nat) : Nat := 0x00300814 + 0x40 * n
def PRT_MOT_LSIPK (n : Nat) : Nat := 0x00300818 + 0x40 * n
def PRT_MOT_DTH (n : Nat) : Nat := 0x0030081C + 0x40 * n
def PRT_MOT_STARTS (n : Nat) : Nat := 0x00300820 + 0x40 * n
def PRT_CFL_STAT (n : Nat) : Nat := 0x00300824 + 0x40 * n
def PRT_CFL_DSE (n : Nat) : Nat := 0x00300828 + 0x40 * n
def PRT_CFL_DDE (n : Nat) : Nat := 0x0030082C + 0x40 * n
def PRT_CFL_TA_LO (n : Nat) : Nat := 0x00300830 + 0x40 * n
def PRT_CFL_TA_HI (n : Nat) : Nat := 0x00300834 + 0x40 * n
def PRT_WFD (n : Nat) : Nat := 0x00300838 + 0x40 * n
def PRT_WFD_VPRE (n : Nat) : Nat := 0x0030083C + 0x40 * n
/-! R218 -/
def CAP_STAT : Nat := 0x00400000
def CAP_CFG : Nat := 0x00400004
def CAP_NEXTREC : Nat := 0x00400008
def CAP_CNT : Nat := 0x0040000C
def CAP_DIR_REC (n : Nat) : Nat := 0x00400100 + 0x10 * n
def CAP_DIR_INFO (n : Nat) : Nat := 0x00400104 + 0x10 * n
def CAP_DIR_LEN (n : Nat) : Nat := 0x00400108 + 0x10 * n
def CAP_PLAN_CFG (n : Nat) : Nat := 0x00401000 + 0x40 * n
def CAP_PLAN_WIN (n : Nat) : Nat := 0x00401004 + 0x40 * n
def CAP_PLAN_STAT (n : Nat) : Nat := 0x00401008 + 0x40 * n
def CAP_PLAN_TRIG (n m : Nat) : Nat := 0x00401010 + 0x40 * n + 0x4 * m
def CAP_PLAN_SIGL (n m : Nat) : Nat := 0x00401400 + 0x10 * n + 0x4 * m
def CAP_DCH (n m : Nat) : Nat := 0x00402000 + 0x200 * n + 0x4 * m
def CAP_LINK (n : Nat) : Nat := 0x00404000 + 0x4 * n
/-! R266 -/
def HDL_STAT : Nat := 0x00480000
def HDL_CFG : Nat := 0x00480004
def HDL_BRK : Nat := 0x00480008
def HDL_OLC_CNT : Nat := 0x0048000C
def HDL_SAVE : Nat := 0x00480010
def HDL_HSTAT (n : Nat) : Nat := 0x00480020 + 0x4 * n
/-! R242 -/
def HDL_PFLT (n : Nat) : Nat := 0x00480100 + 0x8 * n
def HDL_PFCNT (n : Nat) : Nat := 0x00480104 + 0x8 * n
/-! R266 -/
def HDL_TCFG (n m : Nat) : Nat := 0x00480200 + 0x200 * n + 0x10 * m
def HDL_TPHS (n m : Nat) : Nat := 0x00480204 + 0x200 * n + 0x10 * m
def HDL_TCNT (n m : Nat) : Nat := 0x00480208 + 0x200 * n + 0x10 * m
def HDL_TEXE (n m : Nat) : Nat := 0x0048020C + 0x200 * n + 0x10 * m
def HDL_FRC_CFG (n : Nat) : Nat := 0x00481000 + 0x10 * n
def HDL_FRC_VAL (n : Nat) : Nat := 0x00481004 + 0x10 * n
def HDL_FRC_SHD (n : Nat) : Nat := 0x00481008 + 0x10 * n
/-! R293 -/
def SPN_STAT : Nat := 0x00500000
def SPN_SSTAT (n : Nat) : Nat := 0x00500010 + 0x4 * n
def SPN_BCFG (n : Nat) : Nat := 0x00501000 + 0x40 * n
def SPN_BPER (n : Nat) : Nat := 0x00501004 + 0x40 * n
def SPN_BIN01 (n : Nat) : Nat := 0x00501008 + 0x40 * n
def SPN_BIN23 (n : Nat) : Nat := 0x0050100C + 0x40 * n
def SPN_BC (n m : Nat) : Nat := 0x00501010 + 0x40 * n + 0x4 * m
def SPN_BSH (n : Nat) : Nat := 0x00501024 + 0x40 * n
def SPN_BOLO (n : Nat) : Nat := 0x00501028 + 0x40 * n
def SPN_BOHI (n : Nat) : Nat := 0x0050102C + 0x40 * n
def SPN_BDST (n : Nat) : Nat := 0x00501030 + 0x40 * n
def SPN_BSTAT (n : Nat) : Nat := 0x00501034 + 0x40 * n
def SPN_BOUT (n : Nat) : Nat := 0x00501038 + 0x40 * n
def SPN_BAGE (n : Nat) : Nat := 0x0050103C + 0x40 * n
def SPN_TSMP_LO (n : Nat) : Nat := 0x00509000 + 0x10 * n
def SPN_TSMP_HI (n : Nat) : Nat := 0x00509004 + 0x10 * n
def SPN_TISS_LO (n : Nat) : Nat := 0x00509008 + 0x10 * n
def SPN_TISS_HI (n : Nat) : Nat := 0x0050900C + 0x10 * n
def SPN_CHR_X (n m : Nat) : Nat := 0x0050C000 + 0x80 * n + 0x8 * m
def SPN_CHR_Y (n m : Nat) : Nat := 0x0050C004 + 0x80 * n + 0x8 * m
def SPN_SCALE (n m : Nat) : Nat := 0x00510000 + 0x40 * n + 0x4 * m
/-! R319 -/
def TIM_STAT : Nat := 0x00580000
def TIM_CFG : Nat := 0x00580004
def TIM_NOW_LO : Nat := 0x00580008
def TIM_NOW_HI : Nat := 0x0058000C
def TIM_OFS : Nat := 0x00580010
def TIM_FCORR : Nat := 0x00580014
def TIM_UTCOFS : Nat := 0x00580018
def TIM_GMID_LO : Nat := 0x0058001C
def TIM_GMID_HI : Nat := 0x00580020
def TIM_GMQ : Nat := 0x00580024
def TIM_PDLY_0 : Nat := 0x00580028
def TIM_PDLY_1 : Nat := 0x0058002C
def TIM_CNT : Nat := 0x00580030
def TIM_LASTSTEP : Nat := 0x00580034
def TIM_HOLDT : Nat := 0x00580038
def TIM_PPSDLY : Nat := 0x0058003C
def TIM_STEPTHR : Nat := 0x00580040
/-! R322 -/
def PEL_STAT : Nat := 0x005C0000
def PEL_CNT : Nat := 0x005C0004
def PEL_CC_CFG (n : Nat) : Nat := 0x005C0100 + 0x40 * n
def PEL_CC_TNOM (n : Nat) : Nat := 0x005C0104 + 0x40 * n
def PEL_CC_TLRN (n : Nat) : Nat := 0x005C0108 + 0x40 * n
def PEL_CC_KT (n : Nat) : Nat := 0x005C010C + 0x40 * n
def PEL_CC_TREF (n : Nat) : Nat := 0x005C0110 + 0x40 * n
def PEL_CC_KIDLE (n : Nat) : Nat := 0x005C0114 + 0x40 * n
def PEL_CC_TSRC (n : Nat) : Nat := 0x005C0118 + 0x40 * n
def PEL_CC_LAST (n : Nat) : Nat := 0x005C011C + 0x40 * n
def PEL_CC_STAT (n : Nat) : Nat := 0x005C0120 + 0x40 * n
def PEL_CC_TCMD_LO (n : Nat) : Nat := 0x005C0124 + 0x40 * n
def PEL_CC_TCMD_HI (n : Nat) : Nat := 0x005C0128 + 0x40 * n
def PEL_T_LO (n : Nat) : Nat := 0x005C1000 + 0x20 * n
def PEL_T_HI (n : Nat) : Nat := 0x005C1004 + 0x20 * n
def PEL_PER (n : Nat) : Nat := 0x005C1008 + 0x20 * n
def PEL_CTL (n : Nat) : Nat := 0x005C100C + 0x20 * n
def PEL_P0 (n : Nat) : Nat := 0x005C1010 + 0x20 * n
def PEL_P1 (n : Nat) : Nat := 0x005C1014 + 0x20 * n
def PEL_ST (n : Nat) : Nat := 0x005C1018 + 0x20 * n
def PEL_ECNT (n : Nat) : Nat := 0x005C101C + 0x20 * n
/-! R361 -/
def NET_STAT : Nat := 0x00600000
def NET_CFG : Nat := 0x00600004
def NET_MACS_LO : Nat := 0x00600010
def NET_MACS_HI : Nat := 0x00600014
def NET_MACP_LO : Nat := 0x00600018
def NET_MACP_HI : Nat := 0x0060001C
def NET_VLAN_GOOSE : Nat := 0x00600020
def NET_VLAN_SV : Nat := 0x00600024
def NET_VLAN_HANK : Nat := 0x00600028
def NET_RXOK (n : Nat) : Nat := 0x00600040 + 0x10 * n
def NET_RXDISC (n : Nat) : Nat := 0x00600044 + 0x10 * n
def NET_TXDROP (n : Nat) : Nat := 0x00600048 + 0x10 * n
def NET_PRPSTAT (n : Nat) : Nat := 0x0060004C + 0x10 * n
def NET_GP_CFG (n : Nat) : Nat := 0x00601000 + 0x20 * n
def NET_GP_TIM (n : Nat) : Nat := 0x00601004 + 0x20 * n
def NET_GP_STNUM (n : Nat) : Nat := 0x00601008 + 0x20 * n
def NET_GP_SQNUM (n : Nat) : Nat := 0x0060100C + 0x20 * n
def NET_GP_STAT (n : Nat) : Nat := 0x00601010 + 0x20 * n
def NET_GS_CFG (n : Nat) : Nat := 0x00602000 + 0x20 * n
def NET_GS_STAT (n : Nat) : Nat := 0x00602004 + 0x20 * n
def NET_GS_STNUM (n : Nat) : Nat := 0x00602008 + 0x20 * n
def NET_GS_SQNUM (n : Nat) : Nat := 0x0060200C + 0x20 * n
def NET_GS_CNT (n : Nat) : Nat := 0x00602010 + 0x20 * n
def NET_SVP_CFG (n : Nat) : Nat := 0x00603000 + 0x20 * n
def NET_SVP_STAT (n : Nat) : Nat := 0x00603004 + 0x20 * n
def NET_SVP_CNT (n : Nat) : Nat := 0x00603008 + 0x20 * n
def NET_SVS_CFG (n : Nat) : Nat := 0x00603100 + 0x20 * n
def NET_SVS_STAT (n : Nat) : Nat := 0x00603104 + 0x20 * n
def NET_SVS_CNT (n : Nat) : Nat := 0x00603108 + 0x20 * n
/-! R364 -/
def HNK_STAT : Nat := 0x00680000
def HNK_CNT : Nat := 0x00680004
def HNK_MOD_CFG (n : Nat) : Nat := 0x00680100 + 0x20 * n
def HNK_MOD_CYC (n : Nat) : Nat := 0x00680104 + 0x20 * n
def HNK_MOD_WD (n : Nat) : Nat := 0x00680108 + 0x20 * n
def HNK_MOD_ST (n : Nat) : Nat := 0x0068010C + 0x20 * n
def HNK_MOD_SEQ (n : Nat) : Nat := 0x00680110 + 0x20 * n
def HNK_MOD_CNT (n : Nat) : Nat := 0x00680114 + 0x20 * n
def HNK_MOD_DUP (n : Nat) : Nat := 0x00680118 + 0x20 * n
def HNK_MOD_RTT (n : Nat) : Nat := 0x0068011C + 0x20 * n
/-! R389 -/
def PLY_STAT : Nat := 0x00700000
def PLY_CFG : Nat := 0x00700004
def PLY_YARN : Nat := 0x00700008
def PLY_PEERST : Nat := 0x0070000C
def PLY_CNT_A : Nat := 0x00700010
def PLY_CNT_B : Nat := 0x00700014
def PLY_CNT_C : Nat := 0x00700018
def PLY_LINKSTAT : Nat := 0x0070001C
def PLY_BAY (n : Nat) : Nat := 0x00700020 + 0x4 * n
def PLY_LASTTO_LO : Nat := 0x00700040
def PLY_LASTTO_HI : Nat := 0x00700044
def PLY_PEERID (n : Nat) : Nat := 0x00700050 + 0x4 * n
/-! R412 -/
def ALM_STAT : Nat := 0x00780000
def ALM_CFG : Nat := 0x00780004
def ALM_OPSEC : Nat := 0x00780008
def ALM_PWRCYC : Nat := 0x0078000C
def ALM_CAP : Nat := 0x00780010
def ALM_USED : Nat := 0x00780014
def ALM_CNT : Nat := 0x00780018
def ALM_NEXTREC : Nat := 0x0078001C
def ALM_CUR : Nat := 0x00780020
def ALM_CURREC : Nat := 0x00780024
def ALM_WEAR : Nat := 0x00780028
def ALM_TALLY : Nat := 0x0078002C
def ALM_WIN (n : Nat) : Nat := 0x00780100 + 0x4 * n
def ALM_PLAN_CFG (n : Nat) : Nat := 0x00781000 + 0x10 * n
def ALM_PLAN_SRC (n : Nat) : Nat := 0x00781004 + 0x10 * n
def ALM_PLAN_LO (n : Nat) : Nat := 0x00781008 + 0x10 * n
def ALM_PLAN_HI (n : Nat) : Nat := 0x0078100C + 0x10 * n
def ALM_XT_CFG (n : Nat) : Nat := 0x00782000 + 0x8 * n
def ALM_BIN (n : Nat) : Nat := 0x00790000 + 0x4 * n
def ALM_XL_MIN (n : Nat) : Nat := 0x007A0000 + 0x20 * n
def ALM_XL_MAX (n : Nat) : Nat := 0x007A0004 + 0x20 * n
def ALM_XL_TMIN_LO (n : Nat) : Nat := 0x007A0008 + 0x20 * n
def ALM_XL_TMIN_HI (n : Nat) : Nat := 0x007A000C + 0x20 * n
def ALM_XL_TMAX_LO (n : Nat) : Nat := 0x007A0010 + 0x20 * n
def ALM_XL_TMAX_HI (n : Nat) : Nat := 0x007A0014 + 0x20 * n
def ALM_XL_FLG (n : Nat) : Nat := 0x007A0018 + 0x20 * n
/-! R438 -/
def CFG_STAT : Nat := 0x00800000
def CFG_FAIL : Nat := 0x00800004
def CFG_FAILITEM : Nat := 0x00800008
def CFG_SERIAL : Nat := 0x0080000C
def CFG_HASH (n : Nat) : Nat := 0x00800010 + 0x4 * n
def CFG_OVL : Nat := 0x00800040
def CFG_OVL_T_LO : Nat := 0x00800044
def CFG_OVL_T_HI : Nat := 0x00800048
def CFG_OVL_CNT : Nat := 0x0080004C
def CFG_START : Nat := 0x00800060
def CFG_OVLSRC (n : Nat) : Nat := 0x0080007C + 0x4 * n
/-! R456 -/
def SUP_STAT : Nat := 0x00000000
def SUP_RSTCAUSE : Nat := 0x00000004
def SUP_TWM : Nat := 0x00000008
def SUP_TSTART : Nat := 0x0000000C
def SUP_HEALTH : Nat := 0x00000010
def SUP_RETIRED : Nat := 0x00000014
def SUP_MIG : Nat := 0x00000018
def SUP_FAULTINFO : Nat := 0x0000001C
def SUP_PE (n : Nat) : Nat := 0x00000020 + 0x4 * n
def SUP_ECC : Nat := 0x00000040
def SUP_PFLT : Nat := 0x00000044
def SUP_CLFLOOR : Nat := 0x00000048
def SUP_TEMP (n : Nat) : Nat := 0x00000050 + 0x4 * n
/-! R468 -/
def SEC_STAT : Nat := 0x00880000
def SEC_CNT : Nat := 0x00880004
def SEC_FWVER : Nat := 0x00880008
def SEC_LASTERR : Nat := 0x0088000C
def SEC_DBG_CHAL (n : Nat) : Nat := 0x00880010 + 0x4 * n
def SEC_ID (n : Nat) : Nat := 0x00880020 + 0x4 * n
/-! R488 -/
def LIO_BIN_STATE : Nat := 0x00900000
def LIO_BIN_POL : Nat := 0x00900004
def LIO_BIN_CFG (n : Nat) : Nat := 0x00900010 + 0x4 * n
def LIO_BIN_TS_LO (n : Nat) : Nat := 0x00900100 + 0x8 * n
def LIO_BIN_TS_HI (n : Nat) : Nat := 0x00900104 + 0x8 * n
def LIO_TOUT : Nat := 0x00900200
def LIO_GOUT_CFG : Nat := 0x00900204
def LIO_GOUT : Nat := 0x00900208
def LIO_AOUT (n : Nat) : Nat := 0x00900210 + 0x4 * n
def LIO_LIGHT_THR : Nat := 0x00900220
/-! R490 -/
def HST_STAT : Nat := 0x00010000
def HST_BADADDR : Nat := 0x00010004
def HST_CNT : Nat := 0x00010008
def HST_EVT_PEND (n : Nat) : Nat := 0x00010010 + 0x4 * n
def HST_EVT_MASK (n : Nat) : Nat := 0x00010020 + 0x4 * n
def HST_Q_BASE (n : Nat) : Nat := 0x00010100 + 0x10 * n
def HST_Q_DEPTH (n : Nat) : Nat := 0x00010104 + 0x10 * n
def HST_Q_HEAD (n : Nat) : Nat := 0x00010108 + 0x10 * n
def HST_Q_TAIL (n : Nat) : Nat := 0x0001010C + 0x10 * n
def HST_MSIX_CTL (n : Nat) : Nat := 0x0001800C + 0x10 * n
def HST_MSIX_PBA (n : Nat) : Nat := 0x00019000 + 0x4 * n

end A

/-! ### Fields: `F.REGISTER_FIELD` (the field tables). -/

namespace F

/-! R24 -/
def FLT_FRMSTAT_SLIPS : Fld := ⟨31, 16⟩
def FLT_FRMSTAT_DROPS : Fld := ⟨15, 0⟩
def FLT_FRMRT_ENGINE : Fld := ⟨7, 4⟩
def FLT_FRMRT_FILL : Fld := ⟨2, 0⟩
/-! R26 -/
def PWR_DOMAIN_STAT_WATCHMAN : Fld := ⟨4, 4⟩
def PWR_DOMAIN_STAT_HOST_ON : Fld := ⟨3, 3⟩
def PWR_DOMAIN_STAT_NET_ON : Fld := ⟨2, 2⟩
def PWR_DOMAIN_STAT_SAMPLE_ON : Fld := ⟨1, 1⟩
def PWR_DOMAIN_STAT_KA_ON_VBAT : Fld := ⟨0, 0⟩
def PWR_CLUSTER_VDD_MV : Fld := ⟨25, 16⟩
def PWR_CLUSTER_CLK_MHZ : Fld := ⟨13, 4⟩
def PWR_CLUSTER_STATE : Fld := ⟨1, 0⟩
/-! R66 -/
def ACQ_STAT_REEL_SRC : Fld := ⟨31, 30⟩
def ACQ_STAT_L : Fld := ⟨16, 0⟩
def ACQ_URG_DROP_A_HDL : Fld := ⟨31, 16⟩
def ACQ_URG_DROP_A_DIAG : Fld := ⟨15, 0⟩
def ACQ_URG_DROP_B_HOST : Fld := ⟨15, 0⟩
def ACQ_XCK_THR_THR : Fld := ⟨6, 0⟩
def ACQ_XCK_STAT_NOCHK : Fld := ⟨31, 16⟩
def ACQ_XCK_STAT_SUSP_PAIR : Fld := ⟨15, 0⟩
def ACQ_SLICE_SUSPECT : Fld := ⟨31, 31⟩
def ACQ_SLICE_CONV : Fld := ⟨28, 24⟩
def ACQ_SLICE_ENTRIES : Fld := ⟨16, 8⟩
def ACQ_SLICE_OPEN : Fld := ⟨7, 0⟩
def ACQ_LANE_EN : Fld := ⟨31, 31⟩
def ACQ_LANE_ALIGN : Fld := ⟨30, 30⟩
def ACQ_LANE_SIGNED : Fld := ⟨29, 29⟩
def ACQ_LANE_SLICE : Fld := ⟨28, 24⟩
def ACQ_LANE_MUX : Fld := ⟨23, 17⟩
def ACQ_LANE_GAIN : Fld := ⟨16, 15⟩
def ACQ_LANE_RATE_N : Fld := ⟨14, 11⟩
def ACQ_LANE_BAY : Fld := ⟨10, 8⟩
def ACQ_LANE_NOBAY : Fld := ⟨7, 7⟩
def ACQ_ACCCFG_MODE : Fld := ⟨31, 31⟩
def ACQ_ACCCFG_EVT : Fld := ⟨30, 30⟩
def ACQ_ACCCFG_TRK_RDRST : Fld := ⟨29, 29⟩
def ACQ_ACCCFG_N : Fld := ⟨12, 8⟩
def ACQ_ACCCFG_CYCLES : Fld := ⟨5, 0⟩
def ACQ_ACC_CNT_CNT : Fld := ⟨20, 0⟩
def ACQ_ACC_FLG_STALE : Fld := ⟨8, 8⟩
def ACQ_ACC_FLG_FLAGS : Fld := ⟨7, 0⟩
def ACQ_TRK_FLG_MAXF : Fld := ⟨15, 8⟩
def ACQ_TRK_FLG_MINF : Fld := ⟨7, 0⟩
def ACQ_TRK_STAT_STALE : Fld := ⟨31, 31⟩
def ACQ_TRK_STAT_EMPTY : Fld := ⟨29, 29⟩
def ACQ_TRK_STAT_DISCARD : Fld := ⟨15, 0⟩
/-! R86 -/
def CAL_STAT_ROT : Fld := ⟨31, 30⟩
def CAL_STAT_SPARE : Fld := ⟨24, 20⟩
def CAL_STAT_NEXT : Fld := ⟨19, 16⟩
def CAL_STAT_ROUNDS : Fld := ⟨15, 0⟩
def CAL_ROT_CFG_EN : Fld := ⟨31, 31⟩
def CAL_ROT_CFG_INTERVAL : Fld := ⟨6, 0⟩
def CAL_SEARCH_STATE : Fld := ⟨31, 30⟩
def CAL_SEARCH_PAIR : Fld := ⟨19, 16⟩
def CAL_SEARCH_RESULT : Fld := ⟨1, 0⟩
def CAL_CNT_FAILS : Fld := ⟨31, 16⟩
def CAL_CNT_CALS : Fld := ⟨15, 0⟩
def CAL_OPEN_THR_THR : Fld := ⟨15, 0⟩
def CAL_INJ_CTL_OOS : Fld := ⟨31, 24⟩
def CAL_INJ_CTL_STARTUP : Fld := ⟨23, 23⟩
def CAL_INJ_CTL_PERIOD : Fld := ⟨7, 0⟩
def CAL_INJ_STAT_BUSY : Fld := ⟨31, 24⟩
def CAL_INJ_STAT_LAST_FAIL : Fld := ⟨23, 16⟩
def CAL_INJ_STAT_SKIPPED : Fld := ⟨15, 8⟩
def CAL_PB_THR_RATIO : Fld := ⟨7, 0⟩
def CAL_DAC_OFS_OFS : Fld := ⟨23, 0⟩
def CAL_CONV_STATE : Fld := ⟨31, 30⟩
def CAL_CONV_FAIL1 : Fld := ⟨27, 27⟩
def CAL_CONV_TEMP : Fld := ⟨23, 16⟩
def CAL_CONV_AGE : Fld := ⟨15, 0⟩
def CAL_OFS_OFS : Fld := ⟨23, 0⟩
def CAL_LIN_LIN : Fld := ⟨15, 0⟩
def CAL_DIAG_FAILRUN : Fld := ⟨27, 24⟩
def CAL_DIAG_FAILED : Fld := ⟨21, 16⟩
def CAL_DIAG_ERR_VREF : Fld := ⟨15, 0⟩
/-! R117 -/
def FLT_STAT_STOPPED : Fld := ⟨15, 8⟩
def FLT_STAT_SETTLING : Fld := ⟨7, 0⟩
def FLT_HBU_CFG_M1 : Fld := ⟨20, 16⟩
def FLT_HBU_CFG_M0 : Fld := ⟨4, 0⟩
def FLT_BAYCFG_SVDLY : Fld := ⟨12, 8⟩
def FLT_BAYCFG_NOMF : Fld := ⟨3, 3⟩
def FLT_BAYCFG_FIXED : Fld := ⟨2, 1⟩
def FLT_BAYCFG_CHAIN19K : Fld := ⟨0, 0⟩
def FLT_TRKCFG_ISRC : Fld := ⟨3, 2⟩
def FLT_TRKCFG_VSRC : Fld := ⟨1, 0⟩
def FLT_TRK_SOURCE : Fld := ⟨31, 30⟩
def FLT_TRK_LIMIT : Fld := ⟨29, 29⟩
def FLT_TRK_SLEW : Fld := ⟨28, 28⟩
def FLT_TRK_FREQ : Fld := ⟨19, 0⟩
def FLT_SETTLE_REMAIN : Fld := ⟨31, 16⟩
def FLT_SETTLE_LAST : Fld := ⟨15, 0⟩
def FLT_WFCFG_EN : Fld := ⟨31, 31⟩
def FLT_WFCFG_K : Fld := ⟨30, 27⟩
def FLT_WFCFG_THR : Fld := ⟨23, 0⟩
def FLT_WFSTAT_ARRIVALS : Fld := ⟨31, 16⟩
def FLT_WFSTAT_LOST : Fld := ⟨15, 0⟩
def FLT_SVBR_BRIDGED : Fld := ⟨31, 16⟩
def FLT_SVBR_GAPS : Fld := ⟨15, 0⟩
def FLT_LANE_NSTAGE : Fld := ⟨27, 25⟩
def FLT_LANE_ENTRY : Fld := ⟨24, 22⟩
def FLT_LANE_DESIGN : Fld := ⟨20, 0⟩
def FLT_SIG_EN : Fld := ⟨31, 31⟩
def FLT_SIG_BAY : Fld := ⟨30, 28⟩
def FLT_SIG_SRC : Fld := ⟨27, 27⟩
def FLT_SIG_MERGED : Fld := ⟨26, 26⟩
def FLT_SIG_LANE_A : Fld := ⟨25, 19⟩
def FLT_SIG_LANE_B : Fld := ⟨18, 12⟩
def FLT_SIG_FIRLEN_M1 : Fld := ⟨11, 6⟩
def FLT_SIG_KIND : Fld := ⟨5, 2⟩
/-! R152 -/
def PRT_STAT_ARMED : Fld := ⟨31, 24⟩
def PRT_STAT_HOLDDEF : Fld := ⟨2, 2⟩
def PRT_STAT_WM_SRC : Fld := ⟨1, 0⟩
def PRT_WM_STATE_WOUT : Fld := ⟨27, 24⟩
def PRT_WM_STATE_CMP : Fld := ⟨23, 0⟩
def PRT_WM_THR_THR : Fld := ⟨15, 0⟩
def PRT_WM_MAP_BAYS : Fld := ⟨7, 0⟩
def PRT_TCH_CFG_LATCH : Fld := ⟨31, 31⟩
def PRT_TCH_CFG_RST_BIN : Fld := ⟨30, 30⟩
def PRT_TCH_CFG_RST_HOST : Fld := ⟨29, 29⟩
def PRT_TCH_CFG_RST_LOGIC : Fld := ⟨28, 28⟩
def PRT_TCH_CFG_RSTBIN : Fld := ⟨27, 23⟩
def PRT_TCH_CFG_BFEN : Fld := ⟨22, 22⟩
def PRT_TCH_CFG_BFBAY : Fld := ⟨21, 19⟩
def PRT_TCH_CFG_MINPULSE : Fld := ⟨8, 0⟩
def PRT_TCH_CNT_OPS : Fld := ⟨15, 0⟩
def PRT_BAYCFG_EN : Fld := ⟨31, 31⟩
def PRT_BAYCFG_ROT : Fld := ⟨30, 30⟩
def PRT_BAYCFG_VCONN : Fld := ⟨29, 29⟩
def PRT_BAYCFG_INOM : Fld := ⟨28, 28⟩
def PRT_BAYCFG_ROCOF_WIN : Fld := ⟨27, 22⟩
def PRT_BAYCFG_REFSIG : Fld := ⟨21, 18⟩
def PRT_MEAS_FLG_REFALT : Fld := ⟨31, 31⟩
def PRT_MEAS_FLG_FINV : Fld := ⟨30, 30⟩
def PRT_MEAS_FLG_ZINV : Fld := ⟨29, 24⟩
def PRT_MEAS_FLG_RINV : Fld := ⟨23, 23⟩
def PRT_MEAS_FLG_SINV : Fld := ⟨10, 0⟩
def PRT_EI_CFG_EN : Fld := ⟨31, 31⟩
def PRT_EI_CFG_TYPE : Fld := ⟨27, 20⟩
def PRT_EI_CFG_BAY : Fld := ⟨19, 17⟩
def PRT_EI_CFG_UNDER : Fld := ⟨16, 16⟩
def PRT_EI_CFG_HOLD : Fld := ⟨11, 8⟩
def PRT_EI_CFG_FILTER : Fld := ⟨7, 6⟩
def PRT_EI_TIM_CURVE : Fld := ⟨31, 28⟩
def PRT_EI_TIM_RESET : Fld := ⟨27, 26⟩
def PRT_EI_TIM_UCURVE : Fld := ⟨5, 0⟩
def PRT_EI_STATE_OP : Fld := ⟨31, 31⟩
def PRT_EI_STATE_START : Fld := ⟨30, 30⟩
def PRT_EI_STATE_BLK : Fld := ⟨29, 29⟩
def PRT_EI_STATE_INV : Fld := ⟨28, 28⟩
def PRT_EI_STATE_DIS : Fld := ⟨27, 27⟩
def PRT_EI_STATE_PH : Fld := ⟨23, 20⟩
def PRT_EI_CNT_OPS : Fld := ⟨15, 0⟩
def EX_NOC_SRC : Fld := ⟨0, 0⟩
def EX_DPOC_DIR : Fld := ⟨0, 0⟩
def EX_DPOC_NOVOLT : Fld := ⟨1, 1⟩
def EX_DEF_DIR : Fld := ⟨0, 0⟩
def EX_DEF_MODE : Fld := ⟨1, 1⟩
def EX_DEF_ISRC : Fld := ⟨2, 2⟩
def EX_DEF_VSRC : Fld := ⟨3, 3⟩
def EX_PUV_MEAS : Fld := ⟨0, 0⟩
def EX_POV_MEAS : Fld := ⟨0, 0⟩
def EX_PUV_ALL : Fld := ⟨1, 1⟩
def EX_ROV_VSRC : Fld := ⟨0, 0⟩
def EX_ROCOF_SIGN : Fld := ⟨1, 0⟩
def EX_BF_MODE : Fld := ⟨1, 0⟩
def EX_BF_NEN : Fld := ⟨2, 2⟩
def EX_BF_CBBIN : Fld := ⟨7, 3⟩
def EX_BF_EXTEN : Fld := ⟨8, 8⟩
def EX_BF_EXTBIN : Fld := ⟨13, 9⟩
def EX_ARC_LIGHTS : Fld := ⟨3, 0⟩
def EX_ARC_FALLBACK : Fld := ⟨4, 4⟩
def EX_ARC_HOLD : Fld := ⟨12, 8⟩
def EX_ARC_ITHR : Fld := ⟨15, 0⟩
def EX_CLP_STARTCOLD : Fld := ⟨0, 0⟩
def EX_CLP_CBBIN : Fld := ⟨6, 2⟩
def EX_CLP_CBEN : Fld := ⟨7, 7⟩
def EX_TCS_PIN : Fld := ⟨3, 0⟩
def EX_TCS_POL : Fld := ⟨4, 4⟩
def EX_CTS_MODE : Fld := ⟨0, 0⟩
def EX_VTFF_MCBBIN : Fld := ⟨4, 0⟩
def EX_VTFF_MCBEN : Fld := ⟨5, 5⟩
def EX_THM_INIT : Fld := ⟨1, 0⟩
def EX_THM_CBEN : Fld := ⟨2, 2⟩
def EX_THM_CBBIN : Fld := ⟨7, 3⟩
def EX_THM_SPDEN : Fld := ⟨8, 8⟩
def EX_THM_SPDBIN : Fld := ⟨13, 9⟩
def EX_STS_MODE : Fld := ⟨0, 0⟩
def EX_LRS_SPDCHK : Fld := ⟨0, 0⟩
def EX_LOL_MODE : Fld := ⟨0, 0⟩
def EX_ABS_SPDEN : Fld := ⟨0, 0⟩
def EX_MDIF_POL : Fld := ⟨0, 0⟩
def EX_PREV_MODE : Fld := ⟨0, 0⟩
def EX_WFD_DIR : Fld := ⟨0, 0⟩
def EX_CFL_DEEN : Fld := ⟨0, 0⟩
def EX_CFL_PEERW : Fld := ⟨12, 1⟩
def EX_CFL_WFDV : Fld := ⟨15, 15⟩
def EX_CFL_WFD : Fld := ⟨8, 0⟩
/-! R201 -/
def PRT_MOT_STAT_STATE : Fld := ⟨31, 30⟩
def PRT_MOT_STAT_SPD : Fld := ⟨29, 29⟩
def PRT_MOT_STAT_CBOPEN : Fld := ⟨28, 28⟩
def PRT_MOT_STAT_STARTS_1H : Fld := ⟨20, 16⟩
def PRT_MOT_STAT_TSTOP : Fld := ⟨15, 0⟩
def PRT_CFL_STAT_SE_OK : Fld := ⟨31, 31⟩
def PRT_CFL_STAT_DE_OK : Fld := ⟨30, 30⟩
def PRT_CFL_STAT_HOLDOVER : Fld := ⟨29, 29⟩
def PRT_CFL_STAT_CLIPPED : Fld := ⟨28, 28⟩
def PRT_CFL_STAT_SEQ : Fld := ⟨15, 0⟩
def PRT_WFD_DIR : Fld := ⟨31, 30⟩
def PRT_WFD_MODES : Fld := ⟨29, 28⟩
def PRT_WFD_SUPOK : Fld := ⟨27, 27⟩
def PRT_WFD_BURSTS : Fld := ⟨15, 0⟩
/-! R219 -/
def CAP_STAT_FREE : Fld := ⟨24, 16⟩
def CAP_STAT_HELD : Fld := ⟨6, 0⟩
def CAP_CFG_OVWR : Fld := ⟨0, 0⟩
def CAP_CNT_REFUSED : Fld := ⟨31, 16⟩
def CAP_CNT_OVW : Fld := ⟨15, 0⟩
def CAP_DIR_INFO_STATE : Fld := ⟨31, 30⟩
def CAP_DIR_INFO_LOCK : Fld := ⟨29, 29⟩
def CAP_DIR_INFO_PLAN : Fld := ⟨23, 20⟩
def CAP_DIR_INFO_FIRST : Fld := ⟨8, 0⟩
def CAP_PLAN_CFG_EN : Fld := ⟨31, 31⟩
def CAP_PLAN_CFG_PEERTX : Fld := ⟨30, 30⟩
def CAP_PLAN_CFG_PEERRX : Fld := ⟨29, 29⟩
def CAP_PLAN_CFG_BAY : Fld := ⟨7, 5⟩
def CAP_PLAN_CFG_NSIG : Fld := ⟨4, 0⟩
def CAP_PLAN_WIN_POST : Fld := ⟨31, 16⟩
def CAP_PLAN_WIN_PRE : Fld := ⟨15, 0⟩
def CAP_PLAN_STAT_OPEN : Fld := ⟨31, 31⟩
def CAP_PLAN_STAT_RING : Fld := ⟨30, 16⟩
def CAP_PLAN_STAT_RECS : Fld := ⟨15, 0⟩
def CAP_LINK_END : Fld := ⟨31, 31⟩
def CAP_LINK_USED : Fld := ⟨30, 30⟩
def CAP_LINK_NEXT : Fld := ⟨8, 0⟩
/-! R242 -/
def HDL_PFLT_INDEX : Fld := ⟨31, 16⟩
def HDL_PFLT_TASK : Fld := ⟨15, 8⟩
def HDL_PFLT_CODE : Fld := ⟨1, 0⟩
def HDL_PFCNT_COUNT : Fld := ⟨15, 0⟩
/-! R267 -/
def HDL_STAT_MODE : Fld := ⟨31, 30⟩
def HDL_STAT_MODEL : Fld := ⟨29, 29⟩
def HDL_STAT_FORCE : Fld := ⟨28, 28⟩
def HDL_STAT_COMM : Fld := ⟨27, 27⟩
def HDL_STAT_WARM : Fld := ⟨26, 26⟩
def HDL_STAT_FCOUNT : Fld := ⟨16, 8⟩
def HDL_STAT_FIRST : Fld := ⟨3, 0⟩
def HDL_CFG_COMOVL : Fld := ⟨31, 28⟩
def HDL_CFG_STARTMODE : Fld := ⟨27, 27⟩
def HDL_CFG_SCAN : Fld := ⟨26, 25⟩
def HDL_CFG_BUDGET : Fld := ⟨19, 0⟩
def HDL_BRK_HELD : Fld := ⟨31, 31⟩
def HDL_BRK_HEDDLE : Fld := ⟨29, 28⟩
def HDL_BRK_TASK : Fld := ⟨27, 22⟩
def HDL_BRK_INDEX : Fld := ⟨15, 0⟩
def HDL_OLC_CNT_REFUSED : Fld := ⟨31, 16⟩
def HDL_OLC_CNT_APPLIED : Fld := ⟨15, 0⟩
def HDL_SAVE_RESULT : Fld := ⟨31, 30⟩
def HDL_SAVE_NOCOOL : Fld := ⟨29, 29⟩
def HDL_SAVE_SIZE : Fld := ⟨15, 0⟩
def HDL_HSTAT_LOAD : Fld := ⟨31, 24⟩
def HDL_HSTAT_CYCLE : Fld := ⟨23, 0⟩
def HDL_TCFG_EN : Fld := ⟨31, 31⟩
def HDL_TCFG_KIND : Fld := ⟨30, 30⟩
def HDL_TCFG_PRIO : Fld := ⟨29, 26⟩
def HDL_TCFG_PERIOD : Fld := ⟨13, 0⟩
def HDL_TPHS_SRC : Fld := ⟨31, 28⟩
def HDL_TPHS_PHASE : Fld := ⟨15, 0⟩
def HDL_TPHS_INDEX : Fld := ⟨15, 0⟩
def HDL_TCNT_SKIPS : Fld := ⟨31, 16⟩
def HDL_TCNT_RUNS : Fld := ⟨15, 0⟩
def HDL_TEXE_JITTER : Fld := ⟨31, 16⟩
def HDL_TEXE_EXEC : Fld := ⟨15, 0⟩
def HDL_FRC_CFG_EN : Fld := ⟨31, 31⟩
def HDL_FRC_CFG_AREA : Fld := ⟨30, 28⟩
def HDL_FRC_CFG_SIZE : Fld := ⟨27, 26⟩
def HDL_FRC_CFG_ADDR : Fld := ⟨23, 0⟩
/-! R294 -/
def SPN_STAT_FOLLOW : Fld := ⟨31, 31⟩
def SPN_STAT_LINKHOLD : Fld := ⟨30, 30⟩
def SPN_STAT_BLOCKS : Fld := ⟨9, 0⟩
def SPN_SSTAT_LOAD : Fld := ⟨31, 24⟩
def SPN_SSTAT_SKIPS : Fld := ⟨15, 0⟩
def SPN_BCFG_EN : Fld := ⟨31, 31⟩
def SPN_BCFG_TYPE : Fld := ⟨30, 27⟩
def SPN_BCFG_OPT : Fld := ⟨26, 26⟩
def SPN_BCFG_ERS : Fld := ⟨25, 25⟩
def SPN_BCFG_SPTRK : Fld := ⟨24, 24⟩
def SPN_BCFG_TRIPEN : Fld := ⟨23, 23⟩
def SPN_BCFG_TRIPCH : Fld := ⟨22, 18⟩
def SPN_BCFG_CURVE : Fld := ⟨15, 10⟩
def SPN_BPER_PHASE : Fld := ⟨31, 17⟩
def SPN_BPER_K : Fld := ⟨16, 0⟩
def SPN_BDST_KIND : Fld := ⟨15, 12⟩
def SPN_BDST_INDEX : Fld := ⟨11, 0⟩
def SPN_BSTAT_MODE : Fld := ⟨31, 29⟩
def SPN_BSTAT_SAT : Fld := ⟨28, 28⟩
def SPN_BSTAT_BAD : Fld := ⟨27, 27⟩
def SPN_BSTAT_STALE : Fld := ⟨26, 26⟩
def SPN_BSTAT_TRIPTRK : Fld := ⟨25, 25⟩
def SPN_BSTAT_PDONE : Fld := ⟨24, 24⟩
def SPN_BSTAT_SEL : Fld := ⟨23, 22⟩
def SPN_BSTAT_SPINDLE : Fld := ⟨21, 20⟩
/-! R320 -/
def TIM_STAT_STATE : Fld := ⟨31, 30⟩
def TIM_STAT_SRC : Fld := ⟨29, 28⟩
def TIM_STAT_PORT : Fld := ⟨27, 27⟩
def TIM_STAT_HOLDEXP : Fld := ⟨26, 26⟩
def TIM_STAT_NEVER : Fld := ⟨25, 25⟩
def TIM_STAT_RTCINV : Fld := ⟨24, 24⟩
def TIM_CFG_PTPEN : Fld := ⟨31, 31⟩
def TIM_CFG_PPSEN : Fld := ⟨30, 30⟩
def TIM_CFG_IRIGEN : Fld := ⟨29, 29⟩
def TIM_CFG_PAIR : Fld := ⟨28, 28⟩
def TIM_CFG_STEPEN : Fld := ⟨27, 27⟩
def TIM_CFG_ANYGM : Fld := ⟨26, 26⟩
def TIM_CFG_IRIGX : Fld := ⟨25, 23⟩
def TIM_CFG_DOMAIN : Fld := ⟨15, 8⟩
def TIM_UTCOFS_VALID : Fld := ⟨31, 31⟩
def TIM_UTCOFS_LI61 : Fld := ⟨30, 30⟩
def TIM_UTCOFS_LI59 : Fld := ⟨29, 29⟩
def TIM_UTCOFS_OFFSET : Fld := ⟨15, 0⟩
def TIM_GMQ_CLASS : Fld := ⟨31, 24⟩
def TIM_GMQ_ACCURACY : Fld := ⟨23, 16⟩
def TIM_GMQ_STEPSRM : Fld := ⟨15, 0⟩
def TIM_CNT_STEPS : Fld := ⟨31, 16⟩
def TIM_CNT_LOSSES : Fld := ⟨15, 0⟩
/-! R323 -/
def PEL_STAT_ARMED : Fld := ⟨26, 16⟩
def PEL_STAT_CONGEST : Fld := ⟨15, 0⟩
def PEL_CNT_LATE : Fld := ⟨31, 16⟩
def PEL_CNT_REFUSED : Fld := ⟨15, 0⟩
def PEL_CTL_EN : Fld := ⟨31, 31⟩
def PEL_CTL_LATE : Fld := ⟨30, 30⟩
def PEL_CTL_PUNIT : Fld := ⟨29, 29⟩
def PEL_CTL_ACTION : Fld := ⟨27, 24⟩
def PEL_CTL_REPEAT : Fld := ⟨15, 0⟩
def PEL_ST_STATE : Fld := ⟨31, 30⟩
def PEL_ST_LATE : Fld := ⟨29, 29⟩
def PEL_ST_REMAIN : Fld := ⟨15, 0⟩
def PEL_CC_CFG_EN : Fld := ⟨31, 31⟩
def PEL_CC_CFG_LEARN : Fld := ⟨30, 30⟩
def PEL_CC_CFG_REF : Fld := ⟨29, 28⟩
def PEL_CC_CFG_GOUT : Fld := ⟨27, 25⟩
def PEL_CC_CFG_CBBIN : Fld := ⟨24, 20⟩
def PEL_CC_CFG_W : Fld := ⟨19, 17⟩
def PEL_CC_CFG_THETA : Fld := ⟨16, 8⟩
def PEL_CC_CFG_FALLBACK : Fld := ⟨7, 7⟩
def PEL_CC_CFG_PULSE : Fld := ⟨6, 0⟩
def PEL_CC_TSRC_SRC : Fld := ⟨15, 0⟩
def PEL_CC_STAT_STATE : Fld := ⟨31, 30⟩
def PEL_CC_STAT_LIMIT : Fld := ⟨29, 29⟩
def PEL_CC_STAT_NOTEMP : Fld := ⟨28, 28⟩
def PEL_CC_STAT_CAUSE : Fld := ⟨27, 24⟩
def PEL_CC_STAT_REJECTS : Fld := ⟨15, 8⟩
def PEL_CC_STAT_LEARNS : Fld := ⟨7, 0⟩
/-! R362 -/
def NET_STAT_LINK : Fld := ⟨31, 28⟩
def NET_STAT_ACTIVE : Fld := ⟨27, 24⟩
def NET_STAT_LANOK : Fld := ⟨23, 20⟩
def NET_CFG_SMODE : Fld := ⟨31, 30⟩
def NET_CFG_PMODE : Fld := ⟨29, 28⟩
def NET_CFG_IFX : Fld := ⟨27, 24⟩
def NET_CFG_LIFECHK : Fld := ⟨13, 0⟩
def NET_VLAN_x_PCP : Fld := ⟨15, 13⟩
def NET_VLAN_x_VID : Fld := ⟨11, 0⟩
def NET_RXDISC_ERR : Fld := ⟨31, 16⟩
def NET_RXDISC_TYPE : Fld := ⟨15, 0⟩
def NET_TXDROP_DROP : Fld := ⟨15, 0⟩
def NET_PRPSTAT_DUP : Fld := ⟨31, 16⟩
def NET_PRPSTAT_WRONGLAN : Fld := ⟨15, 0⟩
def NET_GP_CFG_EN : Fld := ⟨31, 31⟩
def NET_GP_CFG_HIPRIO : Fld := ⟨30, 30⟩
def NET_GP_CFG_LAUNCH : Fld := ⟨29, 29⟩
def NET_GP_CFG_PAIR : Fld := ⟨28, 28⟩
def NET_GP_CFG_NMEMB : Fld := ⟨23, 16⟩
def NET_GP_CFG_APPID : Fld := ⟨13, 0⟩
def NET_GP_TIM_TMAX : Fld := ⟨31, 16⟩
def NET_GP_TIM_TMIN : Fld := ⟨7, 0⟩
def NET_GP_STAT_SENT : Fld := ⟨31, 16⟩
def NET_GP_STAT_DSLEN : Fld := ⟨10, 0⟩
def NET_GS_CFG_EN : Fld := ⟨31, 31⟩
def NET_GS_CFG_SIM : Fld := ⟨30, 30⟩
def NET_GS_CFG_TESTACC : Fld := ⟨29, 29⟩
def NET_GS_CFG_LAUNCH : Fld := ⟨28, 28⟩
def NET_GS_CFG_PAIR : Fld := ⟨27, 27⟩
def NET_GS_CFG_APPID : Fld := ⟨13, 0⟩
def NET_GS_STAT_STATE : Fld := ⟨31, 30⟩
def NET_GS_STAT_TEST : Fld := ⟨29, 29⟩
def NET_GS_STAT_TAL : Fld := ⟨15, 0⟩
def NET_GS_CNT_LOSSES : Fld := ⟨31, 16⟩
def NET_GS_CNT_DUPS : Fld := ⟨15, 0⟩
def NET_SVP_CFG_EN : Fld := ⟨31, 31⟩
def NET_SVP_CFG_NOASDU : Fld := ⟨27, 24⟩
def NET_SVP_CFG_APPID : Fld := ⟨13, 0⟩
def NET_SVP_STAT_SYNCH : Fld := ⟨31, 30⟩
def NET_SVP_STAT_SMPCNT : Fld := ⟨15, 0⟩
def NET_SVS_CFG_EN : Fld := ⟨31, 31⟩
def NET_SVS_CFG_SIM : Fld := ⟨30, 30⟩
def NET_SVS_CFG_RATE : Fld := ⟨29, 28⟩
def NET_SVS_CFG_APPID : Fld := ⟨13, 0⟩
def NET_SVS_STAT_STATE : Fld := ⟨31, 30⟩
def NET_SVS_STAT_SYNCH : Fld := ⟨29, 28⟩
def NET_SVS_STAT_SMPCNT : Fld := ⟨15, 0⟩
def NET_SVS_CNT_LOSSES : Fld := ⟨31, 16⟩
def NET_SVS_CNT_DUPS : Fld := ⟨15, 0⟩
/-! R365 -/
def HNK_STAT_DECL : Fld := ⟨22, 16⟩
def HNK_STAT_JOINED : Fld := ⟨14, 8⟩
def HNK_STAT_LOST : Fld := ⟨6, 0⟩
def HNK_CNT_UNTIMED : Fld := ⟨15, 0⟩
def HNK_MOD_CFG_EN : Fld := ⟨31, 31⟩
def HNK_MOD_CFG_SUBEN : Fld := ⟨30, 30⟩
def HNK_MOD_CFG_STALE : Fld := ⟨29, 26⟩
def HNK_MOD_CFG_ILEN : Fld := ⟨25, 19⟩
def HNK_MOD_CFG_OLEN : Fld := ⟨18, 12⟩
def HNK_MOD_CYC_PHASE : Fld := ⟨31, 16⟩
def HNK_MOD_CYC_CYC : Fld := ⟨15, 0⟩
def HNK_MOD_WD_ACTMASK : Fld := ⟨31, 24⟩
def HNK_MOD_WD_WDOG : Fld := ⟨15, 0⟩
def HNK_MOD_ST_STATE : Fld := ⟨31, 29⟩
def HNK_MOD_ST_ND : Fld := ⟨28, 28⟩
def HNK_MOD_ST_SAFE : Fld := ⟨27, 27⟩
def HNK_MOD_ST_FAULT : Fld := ⟨26, 26⟩
def HNK_MOD_ST_TIMED : Fld := ⟨25, 25⟩
def HNK_MOD_ST_DAN : Fld := ⟨24, 24⟩
def HNK_MOD_ST_DIAG : Fld := ⟨23, 16⟩
def HNK_MOD_ST_SEQRX : Fld := ⟨15, 0⟩
def HNK_MOD_SEQ_SEQTX : Fld := ⟨31, 16⟩
def HNK_MOD_SEQ_ACKRX : Fld := ⟨15, 0⟩
def HNK_MOD_CNT_MISSED : Fld := ⟨31, 16⟩
def HNK_MOD_CNT_LOSSES : Fld := ⟨15, 0⟩
def HNK_MOD_DUP_DUPS : Fld := ⟨15, 0⟩
/-! R390 -/
def PLY_STAT_ROLE : Fld := ⟨31, 29⟩
def PLY_STAT_SIDE : Fld := ⟨28, 28⟩
def PLY_STAT_CLAIM : Fld := ⟨27, 27⟩
def PLY_STAT_PCLAIM : Fld := ⟨26, 26⟩
def PLY_STAT_GATE : Fld := ⟨25, 25⟩
def PLY_STAT_LINK : Fld := ⟨24, 24⟩
def PLY_STAT_ISOL : Fld := ⟨23, 23⟩
def PLY_STAT_TAKEOK : Fld := ⟨22, 22⟩
def PLY_STAT_DISAGREE : Fld := ⟨21, 21⟩
def PLY_STAT_CLAIMFLT : Fld := ⟨20, 20⟩
def PLY_STAT_UNSYNC : Fld := ⟨19, 19⟩
def PLY_STAT_JSTEP : Fld := ⟨18, 17⟩
def PLY_CFG_POLICY : Fld := ⟨31, 31⟩
def PLY_CFG_PAIRED : Fld := ⟨30, 30⟩
def PLY_CFG_ALONE : Fld := ⟨29, 24⟩
def PLY_CFG_CLAIMWD : Fld := ⟨23, 16⟩
def PLY_PEERST_PROLE : Fld := ⟨31, 29⟩
def PLY_PEERST_ADMIT : Fld := ⟨28, 28⟩
def PLY_PEERST_REPL : Fld := ⟨27, 27⟩
def PLY_PEERST_PSIDE : Fld := ⟨26, 26⟩
def PLY_PEERST_QREASON : Fld := ⟨3, 0⟩
def PLY_CNT_A_MISSES : Fld := ⟨31, 16⟩
def PLY_CNT_A_LATE : Fld := ⟨15, 0⟩
def PLY_CNT_B_DISAGREE : Fld := ⟨31, 16⟩
def PLY_CNT_B_ACKTO : Fld := ⟨15, 0⟩
def PLY_CNT_C_TAKEOVERS : Fld := ⟨31, 16⟩
def PLY_CNT_C_LINKLOSS : Fld := ⟨15, 0⟩
def PLY_LINKSTAT_LOCK1 : Fld := ⟨31, 31⟩
def PLY_LINKSTAT_LOCK0 : Fld := ⟨30, 30⟩
def PLY_LINKSTAT_CRCERR : Fld := ⟨15, 0⟩
def PLY_BAY_CONSEC : Fld := ⟨31, 30⟩
def PLY_BAY_SHADOW : Fld := ⟨29, 23⟩
def PLY_BAY_WAIT : Fld := ⟨15, 0⟩
/-! R413 -/
def ALM_STAT_STATE : Fld := ⟨31, 30⟩
def ALM_STAT_END : Fld := ⟨29, 29⟩
def ALM_STAT_OVERTAKEN : Fld := ⟨28, 28⟩
def ALM_STAT_CNTREST : Fld := ⟨27, 27⟩
def ALM_STAT_MEDIA : Fld := ⟨26, 24⟩
def ALM_CFG_TZ : Fld := ⟨31, 24⟩
def ALM_CFG_MEDIA : Fld := ⟨23, 21⟩
def ALM_CNT_REFUSED : Fld := ⟨31, 16⟩
def ALM_CNT_NOTIFLOST : Fld := ⟨15, 0⟩
def ALM_CUR_MODE : Fld := ⟨31, 30⟩
def ALM_CUR_TALLY : Fld := ⟨29, 29⟩
def ALM_WEAR_ERASE : Fld := ⟨31, 16⟩
def ALM_WEAR_BAD : Fld := ⟨15, 0⟩
def ALM_TALLY_FULL : Fld := ⟨8, 8⟩
def ALM_TALLY_USED : Fld := ⟨7, 0⟩
def ALM_PLAN_CFG_EN : Fld := ⟨31, 31⟩
def ALM_PLAN_CFG_INT : Fld := ⟨30, 28⟩
def ALM_PLAN_CFG_SEV : Fld := ⟨27, 25⟩
def ALM_PLAN_CFG_LOG : Fld := ⟨24, 24⟩
def ALM_PLAN_CFG_MODE : Fld := ⟨23, 22⟩
def ALM_PLAN_CFG_PERIOD : Fld := ⟨21, 20⟩
def ALM_PLAN_CFG_NB : Fld := ⟨8, 0⟩
def ALM_PLAN_SRC_SRC : Fld := ⟨31, 16⟩
def ALM_PLAN_SRC_BASE : Fld := ⟨13, 0⟩
def ALM_XT_CFG_EN : Fld := ⟨31, 31⟩
def ALM_XT_CFG_INT : Fld := ⟨30, 28⟩
def ALM_XT_CFG_SEV : Fld := ⟨27, 25⟩
def ALM_XT_CFG_SRC : Fld := ⟨15, 0⟩
def ALM_XL_FLG_MAXHO : Fld := ⟨2, 2⟩
def ALM_XL_FLG_MINHO : Fld := ⟨1, 1⟩
def ALM_XL_FLG_EMPTY : Fld := ⟨0, 0⟩
/-! R439 -/
def CFG_STAT_STATE : Fld := ⟨31, 30⟩
def CFG_STAT_IMGSLOT : Fld := ⟨29, 29⟩
def CFG_STAT_FWSLOT : Fld := ⟨28, 28⟩
def CFG_STAT_FALLBACK : Fld := ⟨27, 27⟩
def CFG_FAIL_CODE : Fld := ⟨31, 16⟩
def CFG_FAIL_SECTION : Fld := ⟨15, 0⟩
def CFG_OVL_INFORCE : Fld := ⟨31, 28⟩
def CFG_OVL_NEXT : Fld := ⟨27, 24⟩
def CFG_OVL_PEND : Fld := ⟨23, 21⟩
def CFG_OVL_USABLE : Fld := ⟨7, 0⟩
def CFG_OVL_CNT_REFSRC : Fld := ⟨31, 28⟩
def CFG_OVL_CNT_REFCAUSE : Fld := ⟨27, 24⟩
def CFG_OVL_CNT_APPLIED : Fld := ⟨15, 0⟩
def CFG_START_OVL : Fld := ⟨3, 0⟩
def CFG_OVLSRC_BINEN : Fld := ⟨31, 31⟩
def CFG_OVLSRC_BASEOFF : Fld := ⟨30, 30⟩
def CFG_OVLSRC_BIN : Fld := ⟨28, 24⟩
def CFG_OVLSRC_GEN : Fld := ⟨23, 23⟩
def CFG_OVLSRC_GBIT : Fld := ⟨11, 0⟩
/-! R457 -/
def SUP_STAT_PHASE : Fld := ⟨31, 28⟩
def SUP_STAT_PROT_UP : Fld := ⟨27, 27⟩
def SUP_STAT_PROT_DEGR : Fld := ⟨26, 26⟩
def SUP_RSTCAUSE_CAUSE : Fld := ⟨31, 29⟩
def SUP_TSTART_TSW : Fld := ⟨31, 16⟩
def SUP_TSTART_TPROT : Fld := ⟨15, 0⟩
def SUP_MIG_COUNT : Fld := ⟨31, 16⟩
def SUP_MIG_NOTGT : Fld := ⟨15, 15⟩
def SUP_MIG_CAUSE : Fld := ⟨14, 12⟩
def SUP_MIG_FROM : Fld := ⟨4, 0⟩
def SUP_FAULTINFO_CAUSE : Fld := ⟨31, 28⟩
def SUP_FAULTINFO_ENGINE : Fld := ⟨4, 0⟩
def SUP_PE_BAYS : Fld := ⟨31, 24⟩
def SUP_PE_LOAD : Fld := ⟨23, 16⟩
def SUP_PE_WORST : Fld := ⟨15, 0⟩
def SUP_ECC_CORR : Fld := ⟨31, 16⟩
def SUP_ECC_UNCORR : Fld := ⟨15, 0⟩
def SUP_PFLT_COUNT : Fld := ⟨15, 0⟩
def SUP_TEMP_TEMP : Fld := ⟨15, 0⟩
/-! R468 -/
def SEC_STAT_DBGUNLK : Fld := ⟨31, 31⟩
def SEC_STAT_NOUNLOCK : Fld := ⟨30, 30⟩
def SEC_STAT_LOCKED : Fld := ⟨29, 29⟩
def SEC_STAT_ATTBUSY : Fld := ⟨12, 12⟩
def SEC_STAT_TORN : Fld := ⟨11, 8⟩
def SEC_STAT_REVOKED : Fld := ⟨7, 4⟩
def SEC_STAT_WRITTEN : Fld := ⟨3, 0⟩
def SEC_CNT_REFUSED : Fld := ⟨31, 16⟩
def SEC_CNT_REPORTS : Fld := ⟨15, 0⟩
def SEC_LASTERR_OBJECT : Fld := ⟨31, 16⟩
def SEC_LASTERR_CAUSE : Fld := ⟨15, 0⟩
/-! R489 -/
def LIO_BIN_CFG_DEB : Fld := ⟨7, 0⟩
def LIO_TOUT_FB : Fld := ⟨31, 16⟩
def LIO_TOUT_OUT : Fld := ⟨15, 0⟩
def LIO_GOUT_CFG_GATED : Fld := ⟨15, 8⟩
def LIO_GOUT_CFG_OD : Fld := ⟨7, 0⟩
def LIO_GOUT_DRIVEN : Fld := ⟨15, 8⟩
def LIO_GOUT_LEVEL : Fld := ⟨7, 0⟩
def LIO_AOUT_DRIVEN : Fld := ⟨31, 31⟩
def LIO_AOUT_CODE : Fld := ⟨15, 0⟩
/-! R491 -/
def HST_STAT_MODE : Fld := ⟨31, 30⟩
def HST_STAT_LINKUP : Fld := ⟨29, 29⟩
def HST_STAT_SPEED : Fld := ⟨28, 27⟩
def HST_STAT_WIDTH : Fld := ⟨26, 25⟩
def HST_BADADDR_BAR : Fld := ⟨31, 31⟩
def HST_BADADDR_WRITE : Fld := ⟨30, 30⟩
def HST_BADADDR_OFFSET : Fld := ⟨29, 0⟩
def HST_CNT_BAD : Fld := ⟨31, 16⟩
def HST_CNT_DROP : Fld := ⟨15, 0⟩
def HST_Q_DEPTH_DEPTH : Fld := ⟨15, 0⟩
def PRT_EI_BLK_HI : Fld := ⟨31, 16⟩
def PRT_EI_BLK_LO : Fld := ⟨15, 0⟩
def SPN_BIN_HI : Fld := ⟨31, 16⟩
def SPN_BIN_LO : Fld := ⟨15, 0⟩
def HST_Q_INDEX : Fld := ⟨15, 0⟩

end F

/-! ### Event sources (R479, in the order of the chapters' event tables). -/

namespace Ev

def ACQ_DROP_SAT : Nat := 0
def ACQ_XCK_SUSPECT : Nat := 1
def ACQ_XCK_CLEAR : Nat := 2
def ACQ_XCK_OMITTED : Nat := 3
def ACQ_CLIP : Nat := 4
def ACQ_URG_DONE : Nat := 5
def ACQ_ACC_WINDOW : Nat := 6
def ACQ_LANE_OFF : Nat := 7
def ACQ_LANE_ON : Nat := 8
def ACQ_DISCARD_SAT : Nat := 9
def ACQ_REEL_SWITCH : Nat := 10
def ACQ_SLICE_MOVED : Nat := 11
def CAL_CONV_FAIL : Nat := 12
def CAL_CONV_RETIRED : Nat := 13
def CAL_SHADOW_MISMATCH : Nat := 14
def CAL_SEARCH_DONE : Nat := 15
def CAL_PATH_FAIL : Nat := 16
def CAL_PATH_CLEAR : Nat := 17
def FLT_SETTLE_DONE : Nat := 18
def FLT_CHAIN_STOP : Nat := 19
def FLT_CHAIN_START : Nat := 20
def FLT_TRK_SOURCE : Nat := 21
def FLT_TRK_LIMIT : Nat := 22
def FLT_SV_GAP : Nat := 23
def FLT_WF_LOST : Nat := 24
def FLT_CNT_SAT : Nat := 25
def PRT_ARMED : Nat := 26
def PRT_DISARMED : Nat := 27
def PRT_ELEM_START : Nat := 28
def PRT_ELEM_OP : Nat := 29
def PRT_ELEM_INV : Nat := 30
def PRT_HOLD_DEFAULT : Nat := 31
def PRT_TRIP : Nat := 32
def PRT_TRIP_END : Nat := 33
def PRT_LATCH : Nat := 34
def PRT_RST_REFUSED : Nat := 35
def PRT_WM_OP : Nat := 36
def PRT_WM_SRC : Nat := 37
def PRT_LIGHT : Nat := 38
def PRT_LATE : Nat := 39
def PRT_SETTING : Nat := 40
def PRT_CNT_SAT : Nat := 41
def CAP_TRIG : Nat := 42
def CAP_CLOSED : Nat := 43
def CAP_REFUSED : Nat := 44
def CAP_OVERWRITE : Nat := 45
def CAP_TRUNC : Nat := 46
def CAP_CNT_SAT : Nat := 47
def HDL_PROG_FAULT : Nat := 48
def HDL_CNT_SAT : Nat := 49
def HDL_OVERRUN : Nat := 50
def HDL_CYCLE_OVER : Nat := 51
def HDL_EVT_MERGED : Nat := 52
def HDL_MODE : Nat := 53
def HDL_HOLD_REFUSED : Nat := 54
def HDL_FORCE_ON : Nat := 55
def HDL_FORCE_OFF : Nat := 56
def HDL_ONLINE : Nat := 57
def HDL_ONLINE_REFUSED : Nat := 58
def HDL_RESTART : Nat := 59
def SPN_OVERRUN : Nat := 60
def SPN_CNT_SAT : Nat := 61
def SPN_MODE : Nat := 62
def SPN_MODE_REFUSED : Nat := 63
def SPN_TRIP_TRACK : Nat := 64
def SPN_BAD_INPUT : Nat := 65
def SPN_OVR_SWITCH : Nat := 66
def SPN_PROF_DONE : Nat := 67
def TIM_LOCKED : Nat := 68
def TIM_HOLDOVER : Nat := 69
def TIM_HOLD_EXPIRED : Nat := 70
def TIM_STEP : Nat := 71
def TIM_GM_CHANGE : Nat := 72
def TIM_SRC_CHANGE : Nat := 73
def TIM_LEAP : Nat := 74
def TIM_CNT_SAT : Nat := 75
def PEL_LATE : Nat := 76
def PEL_REFUSED : Nat := 77
def PEL_CC_DONE : Nat := 78
def PEL_CNT_SAT : Nat := 79
def NET_LINK_UP : Nat := 80
def NET_LINK_DOWN : Nat := 81
def NET_LAN_FAIL : Nat := 82
def NET_PRP_WRONGLAN : Nat := 83
def NET_TX_OVERFLOW : Nat := 84
def NET_GOOSE_LOST : Nat := 85
def NET_GOOSE_RESTORED : Nat := 86
def NET_GOOSE_CFGMIS : Nat := 87
def NET_SV_LOST : Nat := 88
def NET_SV_RESTORED : Nat := 89
def NET_SV_CFGMIS : Nat := 90
def NET_CNT_SAT : Nat := 91
def HNK_JOINED : Nat := 92
def HNK_LOST : Nat := 93
def HNK_ID_MISMATCH : Nat := 94
def HNK_CFG_REFUSED : Nat := 95
def HNK_MOD_FAULT : Nat := 96
def HNK_RELEASED : Nat := 97
def HNK_UNTIMED : Nat := 98
def HNK_CNT_SAT : Nat := 99
def PLY_ROLE : Nat := 100
def PLY_TAKEOVER : Nat := 101
def PLY_PEER_LOST : Nat := 102
def PLY_PEER_JOINED : Nat := 103
def PLY_LINK : Nat := 104
def PLY_QUARANTINE : Nat := 105
def PLY_PEER_REPLACED : Nat := 106
def PLY_DISAGREE : Nat := 107
def PLY_CLAIM_FAULT : Nat := 108
def PLY_CNT_SAT : Nat := 109
def ALM_RECORD : Nat := 110
def ALM_REFUSED : Nat := 111
def ALM_STORE_FAIL : Nat := 112
def ALM_LATE : Nat := 113
def ALM_REMOTE : Nat := 114
def ALM_CNT_SAT : Nat := 115
def SUP_FRAME_SLIP : Nat := 116
def SUP_FRAME_DROP : Nat := 117
def SUP_FRAME_SAT : Nat := 118
def SUP_MIGRATE : Nat := 119
def SUP_FAULT : Nat := 120
def SUP_POWER : Nat := 121
def SEC_VERIFY_FAIL : Nat := 122
def SEC_OWNER : Nat := 123
def SEC_DEBUG : Nat := 124
def SEC_ATTEST : Nat := 125
def HST_BAD_ACCESS : Nat := 126
def HST_RING_DROP : Nat := 127

end Ev

/-- Whether `a` is one of `cnt` registers from `base` at `stride`. -/
def inArr (base stride cnt a : Nat) : Bool :=
  Nat.ble base a && Nat.blt a (base + stride * cnt) && ((a - base) % stride == 0)

/-- The Reset columns (R23–R491): the word a BAR0 register holds at reset; every other register resets to 0. Registers whose
Reset column gives no number are 0 here (assumption 3); SEC_STAT has LOCKED, which is set before shipment (R459); the ring depths are those of R476; HST_Q_BASE puts the
rings' descriptors one after the other (DESIGN CHOICE, assumption 3); the MSI-X vectors reset masked
(PRESUMED, PCI Express, assumption 13). -/
def regReset (a : Nat) : BitVec 32 :=
  if a < 0x00100000 then
    (if a = A.SUP_CLFLOOR then 0x64505050
     else if inArr (A.HST_EVT_MASK 0) 4 4 a then 0xFFFFFFFF
     else if inArr (A.HST_MSIX_CTL 0) 0x10 128 a then 1
     else if a = A.HST_Q_BASE 1 then 0x800
     else if a = A.HST_Q_BASE 2 then 0x1000
     else if a = A.HST_Q_BASE 3 then 0x3000
     else if a = A.HST_Q_BASE 4 then 0x3080
     else if a = A.HST_Q_BASE 5 then 0x5080
     else if a = A.HST_Q_BASE 6 then 0x5880
     else if a = A.HST_Q_BASE 7 then 0x6080
     else if a = A.HST_Q_DEPTH 0 then 64
     else if a = A.HST_Q_DEPTH 1 then 64
     else if a = A.HST_Q_DEPTH 2 then 256
     else if a = A.HST_Q_DEPTH 3 then 4
     else if a = A.HST_Q_DEPTH 4 then 256
     else if a = A.HST_Q_DEPTH 5 then 64
     else if a = A.HST_Q_DEPTH 6 then 64
     else if a = A.HST_Q_DEPTH 7 then 4
     else 0)
  else if a < 0x00200000 then
    (if a = A.ACQ_STAT then 0x10
     else if a = A.ACQ_XCK_THR then 0x14
     else if inArr (A.ACQ_SLICE 0) 4 17 a then BitVec.ofNat 32 ((a - A.ACQ_SLICE 0) / 4 * 0x01000000)
     else if inArr (A.ACQ_ACCCFG 0) 4 128 a then 0x1000
     else if inArr (A.ACQ_TRK_STAT 0) 0x20 128 a then 0x20000000
     else 0)
  else if a < 0x00280000 then
    (if a = A.CAL_STAT then 0xC1000000
     else if a = A.CAL_ROT_CFG then 0x80000014
     else if a = A.CAL_OPEN_THR then 0x64
     else if a = A.CAL_INJ_CTL then 0x00800064
     else if a = A.CAL_PB_THR then 0x50
     else if a = A.CAL_DAC_GAIN then 0x01000000
     else if a = A.CAL_CONV 16 then 0x40000000
     else if inArr (A.CAL_GAIN 0 0) 8 68 a then 0x40000000
     else 0)
  else if a < 0x00300000 then
    (if a = A.FLT_STAT then 0xFF00
     else if inArr (A.FLT_TRK 0) 0x20 8 a then 0x8007A120
     else if inArr (A.FLT_WFCFG 0) 0x20 8 a then 0x40000000
     else if inArr (A.FLT_LANE 0) 4 128 a then 0x00092492
     else if inArr (A.FLT_FIR 0 0) 0x100 96 a then 0x40000000
     else if inArr (A.FLT_FRMRT 0) 0x20 8 a then 0xF0
     else 0)
  else if a < 0x00400000 then
    (if inArr (A.PRT_TCH_CFG 0) 4 32 a then 0x96
     else if inArr (A.PRT_BAYCFG 0) 0x40 8 a then 0x01500000
     else if inArr (A.PRT_EI_DR 0) 0x40 512 a then 0x3F733333
     else if inArr (A.PRT_EI_GMAX 0) 0x40 512 a then 0x41A00000
     else if inArr (A.PRT_EI_STATE 0) 0x40 512 a then 0x08000000
     else if inArr (A.PRT_MOT_STAT 0) 0x40 8 a then 0xC0000000
     else 0)
  else if a < 0x00600000 then
    (if a = A.CAP_STAT then 0x01800000
     else if a = A.HDL_STAT then 0xC0000000
     else if a = A.HDL_CFG then 0xFA
     else if inArr (A.SPN_BOHI 0) 0x40 512 a then 0x40000000
     else if inArr (A.SPN_BSTAT 0) 0x40 512 a then 0xE0000000
     else if a = A.TIM_STAT then 0x02000000
     else if a = A.TIM_CFG then 0x88000000
     else if a = A.TIM_STEPTHR then 0x000F4240
     else 0)
  else
    (if a = A.PLY_STAT then 0xE0000000
     else if a = A.PLY_CFG then 0x04050000
     else if a = A.PLY_PEERST then 0xE0000000
     else if a = A.CFG_FAIL then 0x0000FFFF
     else if a = A.CFG_OVL then 0x0F000000
     else if a = A.LIO_LIGHT_THR then 0x80808080
     else if a = A.SEC_STAT then 0x20000000
     else if inArr (A.PWR_CLUSTER 0) 4 4 a then 3
     else 0)

end Sys2Proof.Machine
end

