-- ==== Sys2Proof/Machine/Sparse.lean ====
section
/-! DEFINITION. Sparse tables: a list of (key, value) pairs in one canonical form (keys strictly rising, no value equal to
what an unlisted key reads as). Registers, memory octets and the per-lane, per-bay, per-instance state are held so. -/

namespace Sys2Proof.Machine

/-- What key `k` reads as: the listed value, else `d k`. -/
def sparseGet {α : Type} (d : Nat → α) : List (Nat × α) → Nat → α
  | [], k => d k
  | e :: l, k => if e.1 = k then e.2 else sparseGet d l k

/-- Drop every entry of key `k`. -/
def sparseDel {α : Type} : List (Nat × α) → Nat → List (Nat × α)
  | [], _ => []
  | e :: l, k => if e.1 = k then sparseDel l k else e :: sparseDel l k

/-- Insert an entry before the first greater key. -/
def sparseIns {α : Type} (k : Nat) (v : α) : List (Nat × α) → List (Nat × α)
  | [] => [(k, v)]
  | e :: l => if k < e.1 then (k, v) :: e :: l else e :: sparseIns k v l

/-- Write key `k`; writing what an unlisted key reads as removes the entry, so equal tables are equal lists. -/
def sparsePut {α : Type} [DecidableEq α] (d : Nat → α) (l : List (Nat × α)) (k : Nat) (v : α) : List (Nat × α) :=
  if v = d k then sparseDel l k else sparseIns k v (sparseDel l k)

/-- Every key of `l` is at least `b`, keys rise strictly, no value equals the default: the canonical form. -/
def sparseWfFrom {α : Type} [DecidableEq α] (d : Nat → α) : Nat → List (Nat × α) → Bool
  | _, [] => true
  | b, e :: l => Nat.ble b e.1 && (decide (e.2 ≠ d e.1) && sparseWfFrom d (e.1 + 1) l)

/-- The canonical form of a sparse table. -/
def sparseWf {α : Type} [DecidableEq α] (d : Nat → α) (l : List (Nat × α)) : Bool := sparseWfFrom d 0 l

/-- A table of per-index items, every unlisted index holding `d`. -/
abbrev Tab (α : Type) := List (Nat × α)

/-- The item of index `k`. -/
def tabGet {α : Type} (d : α) (l : Tab α) (k : Nat) : α := sparseGet (fun _ => d) l k

/-- Replace the item of index `k`. -/
def tabPut {α : Type} [DecidableEq α] (d : α) (l : Tab α) (k : Nat) (v : α) : Tab α := sparsePut (fun _ => d) l k v

/-- Change the item of index `k`. -/
def tabMod {α : Type} [DecidableEq α] (d : α) (l : Tab α) (k : Nat) (f : α → α) : Tab α := tabPut d l k (f (tabGet d l k))

end Sys2Proof.Machine
end

