-- ==== Sys2Proof/Machine/State.lean ====
section
/-! DEFINITION. The state of the device, as plain data: every register (one sparse register file over BAR0), every memory, queue,
buffer, counter and mode the spec gives it, and the queue of waiting commands. -/

namespace Sys2Proof.Machine

/-- Reasons a step stops with a fault. No meaning of this model ends in one: everything the spec describes is an effect. -/
inductive Fault where
  /-- Raised by nothing; kept so that the type is inhabited. Safe. -/
  | none
  deriving DecidableEq, Repr

/-- Reasons a step is refused. -/
inductive Refusal where
  /-- Raised by an arm of `exec` that has no meaning yet, with the row's mnemonic. Safe. -/
  | notModelled (mnemonic : String)
  deriving DecidableEq, Repr

/-! ### Host port and events (chapter 19) -/

/-- An entry of a device-produced ring (R478), with the words of its buffer where it has one. -/
structure RingEntry where
  tag : Nat
  status : Nat
  typ : Nat
  len : Nat
  p0 : Word
  p1 : Word
  p2 : Word
  p3 : Word
  body : List Word
  deriving DecidableEq, Repr

/-- The host domain beyond its registers. -/
structure HostSt where
  /-- Entries in the device-produced rings: key 1,024 × ring + index (R476–R478). -/
  slots : Tab RingEntry
  /-- Raises coalesced per source since its previous Q02 entry (R479, R481). -/
  coal : Tab Nat
  /-- Time + 1 of the last raise let through, key 65,536 × source + item, for the per-source limits (R479). -/
  lastRaise : Tab Nat
  /-- MSI-X messages sent and not yet taken by the host (R480). -/
  msixOut : List Nat
  /-- Responses that wait for room on Q01 (R483), oldest first. -/
  respWait : List RingEntry
  /-- Reports that wait for room on Q07 (R482), oldest first. -/
  q07Wait : List RingEntry
  /-- Words the host wrote into the ring window (R474), by BAR2 offset. -/
  win : Tab Word
  /-- Data of the last host read that a command performed (R4). -/
  rdata : Word
  /-- Time a RESTART was accepted, with its parameter word (R484, R444). -/
  restartAt : Option (Nat × Word)
  deriving DecidableEq, Repr

/-! ### Device time (chapter 12, time base) -/

/-- The time base beyond its registers (R6, R296–R307). -/
structure TimSt where
  /-- Device time, ns of TAI. -/
  now : Nat
  /-- Accumulated frequency correction, in units of 10⁻⁹ ns. -/
  frac : Int
  /-- A nanosecond count that is never stepped and goes on across restarts: pulses and spans run on it. -/
  up : Nat
  /-- The sample clock's time (R7), ns: it follows device time's frequency and is never stepped (R305, assumption 49). -/
  smp : Nat
  /-- `up` at the last start. -/
  upStart : Nat
  /-- The logic clock (R224), ns. -/
  logic : Nat
  /-- Keep-alive RTC, TAI ns (R297). -/
  rtc : Nat
  /-- The RTC lost its supply and has not been written since (R297). -/
  rtcBad : Bool
  /-- The 32.768 kHz crystal has stopped (R518). -/
  rtcSlow : Bool
  /-- Fraction of the present operating second, ns (R407). -/
  opFrac : Nat
  /-- Measurements within ±100 ns in a row (R298). -/
  lockCount : Nat
  /-- Measurements beyond the threshold in a row, for an outlier or a step (R303, R305). -/
  outCount : Nat
  /-- Recent corrections for the mean held in HOLDOVER (R304), newest first: (time, ppb). -/
  corrs : List (Nat × Int)
  /-- The correction being ramped to (R303, R304). -/
  target : Int
  /-- Last offsets to the source, newest first. -/
  offsets : List Int
  /-- Start of the present HOLDOVER (R304). -/
  holdStart : Option Nat
  /-- Time from which each source (0 none, 1 PTP, 2 PPS, 3 IRIG-B by R302) has been present without a break. -/
  present : Tab (Option Nat)
  /-- Two-step Sync waiting for its Follow_Up (R299): port, sequence, time. -/
  syncWait : Option (Nat × BitVec 16 × Nat)
  /-- Best master: identity, class, accuracy, steps, port. -/
  best : Option (BitVec 64 × Nat × Nat × Nat × Nat)
  /-- Pdelay sequence number, the time of the last requests, and the four ports' sent request. -/
  pdSeq : BitVec 16
  pdLast : Option Nat
  pdWait : List Nat
  /-- `tim.up` at which the most recent lock ended (R304). -/
  lockEnd : Option Nat
  /-- `tim.up` of the best master's last Announce, and its interval in ms (R299). -/
  annAt : Option Nat
  annMs : Nat
  /-- The master heard on the other port of the pair (R300), in the form of `best`, with the time of its last Announce and its interval in ms. -/
  alt : Option ((BitVec 64 × Nat × Nat × Nat × Nat) × (Nat × Nat))
  /-- The last device-time second served (R297). -/
  lastSec : Nat
  /-- Leap flags received: announced day's end, +1 or −1 (R307). -/
  leapAt : Option (Nat × Int)
  deriving DecidableEq, Repr

/-! ### Acquisition and calibration (chapters 02, 03) -/

/-- An urgent conversion from acceptance to delivery (R49–R53). `src`: 0 diagnostics, 1 Heddle, 2 host; `came` is the slot in which the
request arrived, `slot` the open slot that serves it. -/
structure Urgent where
  src : Nat
  pos : Nat
  gain : Nat
  came : Nat
  slot : Nat
  tag : Nat
  heddle : Nat
  deriving DecidableEq, Repr

/-- One lane's accumulator bank, tracker and chain feed (R56–R64). -/
structure LaneSt where
  sum : Int
  ssq : Nat
  cnt : Nat
  allValid : Bool
  orFlags : SampleFlags
  winCfg : Word
  /-- Frame at which the window began or begins, and the frame the next window begins at (R57). -/
  winFrame : Nat
  winNext : Option Nat
  /-- Time + 1 of the last sample at or above 1 % of full scale (R83). -/
  lastBig : Nat
  /-- Last sample and the time on the sample clock at which it arrived. -/
  last : Option (Sample × Nat)
  /-- Samples up to this index are taken or passed (R8), and the slot from which conversions count (R48, R63). -/
  k : Nat
  from_ : Nat
  deriving DecidableEq, Repr

/-- A slice beyond its registers. -/
structure SliceSt where
  urgent : Option Urgent
  /-- Consecutive counted disagreements of the pair k, k+1 (R55). -/
  xck : Nat
  /-- Next test of R79, 0–5. -/
  test : Nat
  /-- Consecutive failures of tests 1–6. -/
  runs : List Nat
  /-- Eight failures of one test (R80): the lanes carry PLAUS until a converter takes over. -/
  diagBad : Bool
  /-- The converter attached before, and the sample-clock time at which the present one took its place (R33). -/
  prevConv : Nat
  movedAt : Nat
  /-- Slot of the last diagnostic Reel entry delivered (R39). -/
  diagSlot : Nat
  deriving DecidableEq, Repr

/-- What the spare is doing. -/
inductive SpareUse where
  | idle
  /-- Shadowing a slice since slot `start`; `stage` 0 rotation, 1 or 2 search phase, 3 shadow for an out-of-turn take-over. -/
  | shadow (slice stage start count : Nat) (mism : Bool)
  /-- Calibrating converter `conv` since `start`; `second` a repeat after a rejection; `why` 0 rotation, 1 other, 2 search. -/
  | cal (conv start : Nat) (second : Bool) (why : Nat)
  deriving DecidableEq, Repr

/-- A running suspect search (R77). -/
structure Search where
  k : Nat
  dis0 : Bool
  second : Bool
  deriving DecidableEq, Repr

/-- Injection state of one input (R81, R83). -/
inductive InjPin where
  | injected
  | skipped
  /-- Departed: opening time, level in R34 LSB at the opening, exceeded in the last 1 ms. -/
  | watch (t : Nat) (level : Rat) (exceeded : Bool)
  deriving DecidableEq, Repr

/-- Open-input check of an input: runs of differing and of agreeing reversals, the last half-period's mean, the last reversal on the sample
clock, and the samples of the present half-period (R81). -/
structure OpenChk where
  bad : Nat
  good : Nat
  mean : Option Rat
  at_ : Nat
  sum : Int
  cnt : Nat
  deriving DecidableEq, Repr

def openInit : OpenChk := { bad := 0, good := 0, mean := none, at_ := 0, sum := 0, cnt := 0 }

/-- Acquisition, calibration and input checks beyond the registers. -/
structure AcqSt where
  lanes : Tab LaneSt
  slices : Tab SliceSt
  /-- The image's Reels waiting for ACQ_REEL_SWITCH: 17 lists of entries (R48). -/
  imgReels : List (List Word)
  imgReelsExplicit : Bool
  use : SpareUse
  /-- Start of the last scheduled shadowing, or the switch (R68, R75). -/
  rotLast : Option Nat
  /-- Pairs marked suspect whose search has not run (R77). -/
  searchQ : List Nat
  search : Option Search
  /-- Slices with an out-of-turn take-over due (R80). -/
  takeQ : List Nat
  /-- Attachments to make at the next Reel cycle boundary: the spare takes these slices (R75). -/
  attachQ : List Nat
  /-- Converters that failed the start-up calibration once. -/
  failed1 : List Nat
  calStart : Option Nat
  /-- Time of each converter's last accepted calibration (R86 AGE). -/
  calAt : Tab (Option Nat)
  diagLast : Option Nat
  /-- Open-input check per input (R81). -/
  openRun : Tab OpenChk
  /-- Injection running per bay (8: inputs without one): start on the sample clock and whether it is the start injection. -/
  inj : Tab (Option (Nat × Bool))
  injPins : Tab (Option InjPin)
  injLast : Tab (Option Nat)
  /-- Inputs whose external path has failed: open, injection, pair balance (R82), kept by input. -/
  pbRun : Tab (List Nat)
  pbOk : Tab (List Nat)
  deriving DecidableEq, Repr

/-! ### Trip matrix (chapter 05) -/

/-- The trip matrix and the Watchman beyond their registers (R138–R147, R521). -/
structure TripSt where
  /-- End of each channel's minimum pulse, on `tim.up`. -/
  pulseEnd : Tab Nat
  /-- Channels with a reset that takes effect when the pulse ends (R140). -/
  resetDue : List Nat
  /-- Channels carried over a restart, with the TRIP_OUT masks in force at the reset (R521). -/
  carried : List Nat
  carriedLatch : List Nat
  carriedTout : Tab Word
  /-- Consecutive samples at or above the threshold per comparator 3 × bay + phase (R145). -/
  wmCount : Tab Nat
  /-- Consecutive samples below 0.9 of the threshold per comparator. -/
  wmLow : Tab Nat
  /-- Last feed sample |x| and its flags per comparator. -/
  wmLast : Tab (Nat × SampleFlags)
  /-- The last 23 input samples of each comparator's feed, newest first, and those not yet decimated (R114). -/
  wmTaps : Tab (List Sample)
  wmNew : Tab Nat
  /-- The newest conversion of the default Reel that each comparator took (R47). -/
  wmAt : Tab Nat
  /-- Per ARC instance: consecutive current samples at or above pickup, and the HOLD ends of its current and light checks (R168). -/
  arcCount : Tab Nat
  arcCurEnd : Tab (Option Nat)
  arcLightEnd : Tab (Option Nat)
  /-- `tim.up` + 1 at the last release of each TRIP_OUT pin (R172). -/
  pinOff : Tab Nat
  /-- Operate levels as written to the matrix, and operates not yet counted in PRT_EI_CNT: an engine's instances write as they
  complete, ARC and WFD at any time (R119, R168, R195). -/
  liveOp : Tab Bool
  opEdges : Tab Nat
  /-- Device time of each channel's last assertion (R197). -/
  assertAt : Tab Nat
  /-- Peer's trip channel states, ORed into published states (R376). -/
  peerState : Word
  deriving DecidableEq, Repr

/-! ### Configuration and overlays (chapter 16) -/

/-- A pending overlay activation (R433, R434). `src`: 1 Heddle, 2 host, 3 Peal, 4 BIN, 5 GOOSE. -/
structure OvlAct where
  k : Nat
  t : Nat
  src : Nat
  deriving DecidableEq, Repr

/-- What an overlay changes in one bay: T, the overlay, whether it changes a selected user set (R94), and the new words of the
chain's and of the engine's registers. -/
structure BayChange where
  t : Nat
  k : Nat
  stop : Bool
  chain : List (Nat × Word)
  prot : List (Nat × Word)
  deriving DecidableEq, Repr

/-- Engine values that apply from frame `n` on. -/
structure PrtChange where
  n : Nat
  k : Nat
  prot : List (Nat × Word)
  deriving DecidableEq, Repr

/-- The image in use and the overlays beyond the CFG registers. -/
structure CfgSt where
  boot : Option Boot
  image : Option Image
  /-- Base value of every register that an overlay names, by BAR0 offset (R432). -/
  base : Tab (Option Word)
  /-- Pending activations in order of T. -/
  acts : List OvlAct
  /-- Overlay changes that wait for a bay's boundary (R435). -/
  bayDue : Tab (List BayChange)
  /-- Changes that apply when the engine takes the boundary's frame: frame count and change. -/
  prtDue : Tab (List PrtChange)
  /-- Overlay changes of ARC instances that wait for their bay's next Watchman feed sample (R168): instance, register and word. -/
  arcDue : List (Nat × (Nat × Word))
  /-- `tim.up` at ACQ_REEL_SWITCH; BIN and GOOSE overlay edges act only after it (R436). -/
  switched : Option Nat
  deriving DecidableEq, Repr

/-! ### The decimation chain (chapters 01, 04) -/

/-- A sample at the chain's input: its index on the lane's or stream's grid, value and flags. -/
structure ChainSmp where
  k : Nat
  v : Int
  f : SampleFlags
  deriving DecidableEq, Repr

/-- What a bay's chain runs with from an instant on (R94): the delay lines hold nothing sampled before `clear`; the DESIGN words of its
lanes and the coefficients of the two user sets as loaded. -/
structure Epoch where
  start : Rat
  clear : Rat
  lanes : List (Nat × Word)
  user : List (List Int)
  deriving DecidableEq, Repr

/-- A set of compensation coefficients and the chain sample after which it fades in; `direct` without a fade (R97). -/
structure FirSet where
  k : Int
  direct : Bool
  c : List Int
  deriving DecidableEq, Repr

/-- A modal sample of the wavefront branch (R112): index on IA's grid, α, β, γ in R34 LSB, and whether its lanes were fit and CLIPPED. -/
structure WaveSmp where
  k : Nat
  m : List Int
  ok : Bool
  clipped : Bool
  deriving DecidableEq, Repr

/-- A protection frame (R9): count, instant of its first sample on the sample clock and in device time, sample spacing in ns, the
tracked frequency it was made at, the eight samples of each signal, when it was posted on `tim.up`, and the engine of its ring. -/
structure FrameBuf where
  n : Nat
  at_ : Rat
  stamp : Nat
  per : Rat
  ft : Rat
  sig : List (Nat × List Sample)
  posted : Nat
  engine : Nat
  /-- Trip channels asserted at the frame's close (R167). -/
  tch : Word
  deriving DecidableEq, Repr

/-- An arrival record (R113). -/
structure Arrival where
  t : Nat
  mode : Nat
  neg : Bool
  clipped : Bool
  peak : Nat
  frame : Nat
  deriving DecidableEq, Repr

/-- One bay's chain: tracked frequency, next frame, tracking source (0 voltage, 1 current, 2 nominal) with the tracking samples it
has been in use for and the frames each source has been below 5 %, the last 24 frames, the frame ring, the arrival queue, and the
arrivals that have not re-armed with the index of their sample. Instants are on the sample clock. -/
structure BayChain where
  ft : Rat
  next : Rat
  n : Nat
  src : Nat
  srcCount : Nat
  lowV : Nat
  lowI : Nat
  hist : List FrameBuf
  ring : List FrameBuf
  settling : Bool
  arrivals : List Arrival
  opened : List (Arrival × Nat)
  lostAt : Option Nat
  /-- The resampler's position at the next frame's first sample and its STEP, in 2⁻³² chain samples (R98, R100). -/
  pos : Nat
  step : Nat
  /-- A stop of the chain (R94, R95): first stopped sample instant, the frame it begins with where an overlay stopped it, the restart's
  instant, and when an overlay's stop may restart. -/
  stopFrom : Option Rat
  stopN : Option Nat
  stopTo : Option Rat
  restartAt : Option Rat
  /-- What the chain has run with, newest first (R94). -/
  epochs : List Epoch
  /-- Modal samples of the last 20 ms, newest first (R112, R113), and the mode and index of each arrival in them. -/
  wave : List WaveSmp
  excl : List (Nat × Nat)
  /-- The actor's timeline that a follower takes at a frame it has not reached: frame, first instant, f_t (R12). -/
  steer : Option (Nat × (Rat × Rat))
  deriving DecidableEq, Repr

structure ChainSt where
  bays : Tab BayChain
  /-- Settling signals: instants of the events, newest first, with the tracking samples left (R106). -/
  settle : Tab (List (Rat × Nat))
  /-- Samples that reached the chain, newest first: lanes 0–127, stream-fed signals at 128 + signal. -/
  smps : Tab (List ChainSmp)
  /-- Coefficient sets of each signal's FIR, newest first, once they have changed (R97). -/
  fir : Tab (List FirSet)
  /-- Time + 1 on the sample clock until which the range merge ignores a re-enabled lane (R115). -/
  mute : Tab Nat
  deriving DecidableEq, Repr

/-! ### The protection engines (chapters 05–07) -/

/-- A complex quantity. -/
structure Cx where
  re : Rat
  im : Rat
  deriving DecidableEq, Repr

/-- Polarising memory of one phase (R161): consecutive frames at or above VMIN, the stored phasor with its frame count and the
instant of its last sample. -/
structure PolMem where
  good : Nat
  v : Cx
  n : Nat
  at_ : Rat
  filled : Bool
  deriving DecidableEq, Repr

/-- One element instance beyond its registers: timer state H, seconds since it started, seconds since it dropped off, started
phases, whether it was enabled and its CURVE and RESET at the last frame, type-specific timers in s, a type-specific flag, the
polarising memory, and whether it has been released once since the start (R442). -/
structure InstSt where
  h : Rat
  run : Rat
  idle : Rat
  ph : Nat
  started : Bool
  en : Bool
  curve : Nat
  reset : Nat
  t1 : Rat
  t2 : Rat
  t3 : Rat
  flag : Bool
  pol : List PolMem
  released : Bool
  deriving DecidableEq, Repr

/-- The motor of a bay (R179, R180, R184). `startList` holds operating seconds, newest first; `since` is seconds in the state,
`changed` tells that the last frame changed it, `curI` is that frame's Imax where VALID. -/
structure MotorSt where
  state : Nat
  thetaS : Rat
  thetaR : Rat
  dth : Rat
  atStart : Rat
  low : Nat
  i2t : Rat
  peak : Rat
  dur : Rat
  since : Rat
  changed : Bool
  curI : Option Rat
  startList : List Nat
  deriving DecidableEq, Repr

/-- What WFD takes from the latest published frame (R194): instant of its last sample in device time, f_t, VA–VC phasors, whether
they were VALID and |V1| ≥ 0.5 Vph. -/
structure WavePre where
  tn : Rat
  ft : Rat
  va : Cx
  vb : Cx
  vc : Cx
  ok : Bool
  deriving DecidableEq, Repr

/-- A reported frequency and the instant of its frame, ns. -/
structure FreqRep where
  f : Rat
  at_ : Rat
  deriving DecidableEq, Repr

/-- The source of a frame's frequency (0 V1, 1 I1, 2 none) and its phasor (R124). -/
structure SeqHist where
  src : Nat
  v : Cx
  deriving DecidableEq, Repr

/-- One bay's protection beyond its registers. -/
structure BayProt where
  /-- Frames taken, newest first, without a gap, at most 24. -/
  hist : List FrameBuf
  /-- Frequency sources of the last 13 frames, the consecutive per-frame values, and the reported values without a break, newest
  first (R124). -/
  seqs : List SeqHist
  fvals : List Rat
  freps : List FreqRep
  /-- Full-cycle phase current magnitudes of the last 25 frames in a row that were VALID. -/
  mags : List (Rat × (Rat × Rat))
  motor : MotorSt
  wave : Option WavePre
  /-- Last arrival taken and the present burst: first arrival time and its arrivals (R194). -/
  lastArr : Option Nat
  burst : List Arrival
  /-- Arrivals kept for the locator, newest first. -/
  arrLog : List Arrival
  deriving DecidableEq, Repr

/-- One WFD or CFL instance between arrivals and results (R194–R197). -/
structure WaveInst where
  /-- WFD: first arrival of the burst under evaluation and its decision. CFL: first arrival of the burst last located. -/
  ta : Option Nat
  dec : Nat
  holdEnd : Option Nat
  /-- End of WFD's start (R195). -/
  startEnd : Option Nat
  /-- CFL: first arrival of the burst to locate, once triggered; the single-ended part is done and the far end's time still awaited. -/
  locate : Option Nat
  far : Bool
  deriving DecidableEq, Repr

structure ProtSt where
  bays : Tab BayProt
  inst : Tab InstSt
  wave : Tab WaveInst
  /-- Block inputs that stand at their hold default (R135): 4 × instance + input. -/
  held : List Nat
  deriving DecidableEq, Repr

/-! ### Supervision, placement and power (chapters 01, 17) -/

/-- A trigger of R450 that asks for a migration: SUP_MIG.CAUSE, source engine and the bay where one is named. -/
structure MigTrig where
  cause : Nat
  engine : Nat
  bay : Option Nat
  deriving DecidableEq, Repr

/-- A cluster entering a gated state (R15, R17): target state, start of entry, and a wake that arrived meanwhile. -/
structure GateSt where
  target : Nat
  at_ : Nat
  wake : Bool
  deriving DecidableEq, Repr

structure PwrSt where
  /-- The rails are up: between power-good and the loss of a rail. -/
  on : Bool
  /-- `tim.up` at power-good. -/
  goodAt : Nat
  spiMode : Bool
  sideB : Bool
  refclk : Bool
  /-- PFW's level and `tim.up` + 1 of its last change. -/
  pfw : Bool
  pfwAt : Nat
  /-- The placement result: whether the slot's start has reached the point at which engines load. -/
  placed : Bool
  /-- The supply of the keep-alive domain is VBAT. -/
  onVbat : Bool
  trigs : List MigTrig
  migLast : Option Nat
  bayMig : Tab (Option Nat)
  noTarget : List Nat
  corr : Tab (List Nat)
  /-- Corrections since the last telemetry entry (R482). -/
  corrSec : Nat
  /-- The telemetry values last posted: temperatures, voltages, loads, corrections (R394, R482). -/
  telem : List Word
  late : Tab (List Nat)
  /-- Clusters raised to P4, with the time of the last lateness. -/
  raised : Tab (Option Nat)
  throttleAt : Tab (Option Nat)
  gates : Tab (Option GateSt)
  /-- Frame-to-results times of the last second per engine: time and ns. -/
  worst : Tab (List (Nat × Nat))
  telemAt : Option Nat
  reeveAt : Option Nat
  attestAt : Option Nat
  deriving DecidableEq, Repr

/-! ### Fault capture (chapter 08) -/

/-- One chain-rate grid instant of a plan: signal words in plan order (R90 layout) and 8 words of digital bits (R212). -/
structure CapSample where
  t : Nat
  words : List Word
  digital : List Word
  deriving DecidableEq, Repr

/-- A stored wavefront snapshot (R211, R212): the arrival's sample time, its record words, the α, β and γ samples. -/
structure CapSnap where
  t : Nat
  record : List Word
  data : List (Int × Int × Int)
  deriving DecidableEq, Repr

/-- A record's content beyond its directory registers (R207–R213). -/
structure CapRec where
  trig : Nat
  first : Nat
  endT : Nat
  post : Nat
  count : Nat
  kind : Nat
  index : Nat
  nsig : Nat
  samples : List CapSample
  snaps : List CapSnap
  snapLost : Nat
  flags : BitVec 8
  peerRec : Word
  blocks : List Nat
  frame : Nat
  opsec : Word
  pwrCyc : Word
  /-- First arrival of the burst last seen, and the first 1,536 octets as words, written at the close (R211–R213). -/
  lastBurst : Option Nat
  head : List Word
  /-- Its plan was disabled: it takes no further triggers (R216). -/
  shut : Bool
  deriving DecidableEq, Repr

/-- A plan beyond its registers. -/
structure CapPlan where
  ring : List CapSample
  blocks : List Nat
  /-- Directory entries of this plan's open records, newest first. -/
  open_ : List Nat
  digital : List Word
  /-- The plan was disabled with a record open: its ring is freed at close (R216). -/
  closing : Bool
  /-- Next grid instant to write, as an index of the chain-rate grid, and the digital bits taken at the instants not yet written. -/
  next : Option Nat
  pend : List (Nat × List Word)
  deriving DecidableEq, Repr

/-- Frame results posted to CK (R205): the bay, its frame, the instant of the frame's last sample in device time, and the values of
element and trip channel sources by their encoding of R152. -/
structure CapPost where
  bay : Nat
  n : Nat
  t : Nat
  bits : List (Nat × Bool)
  deriving DecidableEq, Repr

structure CapSt where
  recs : Tab (Option CapRec)
  plans : Tab CapPlan
  /-- Directory entries held, oldest first. -/
  order : List Nat
  /-- Blocks withdrawn after an uncorrectable error (R450). -/
  withdrawn : List Nat
  /-- Values CK holds of block sources posted on Q60–Q63, kind × 4,096 + index ↦ 1 (R205). -/
  held : Tab Bool
  /-- Results posted and not yet taken by CK, oldest first. -/
  posted : List CapPost
  /-- Results that were not posted (DIGGAP): the bay and the instant of the frame's last sample. -/
  gap : List (Nat × Nat)
  /-- Snapshots copied per bay, newest first, for 12 s: a record that starts later may hold them (R211). -/
  snaps : Tab (List CapSnap)
  /-- Device time of the last sample of the frame last taken, per bay. -/
  lastPost : Tab Nat
  deriving DecidableEq, Repr

/-! ### Heddles (chapters 09, 10) -/

/-- A task's execution context (R221) with its latched image and output buffer (R226). -/
structure Ctx where
  /-- 0–15 periodic, 16–31 event (task sets of R266). -/
  task : Nat
  prio : Nat
  lb : Bool
  x : Word
  y : Word
  sat : Bool
  sats : Bool
  zero : Bool
  groups : List (Bool × Nat)
  calls : List Nat
  pc : Nat
  /-- Latched input image: octets of I that are not 0. -/
  img : Tab Byte
  /-- Q octets written: (mask of bits written, value). -/
  out : Tab (Byte × Byte)
  /-- Octets that an online change or a force on Q has replaced since the latch, as this execution still sees them (R264). -/
  kept : Tab (Option Byte)
  /-- Logic clock at the latch, ms. -/
  clk : Nat
  release : Nat
  started : Nat
  count : Nat
  limit : Nat
  deriving DecidableEq, Repr

/-- A released task that has not started: task and release time. -/
structure Rel where
  task : Nat
  at_ : Nat
  deriving DecidableEq, Repr

/-- One Heddle. -/
structure HeddleSt where
  run : Option Ctx
  /-- Pre-empted contexts, innermost first. -/
  stack : List Ctx
  rels : List Rel
  /-- Time of the next release per periodic task, once the task has been seen. -/
  lastRel : Tab (Option Nat)
  /-- Free-run: start of the present or last cycle, tasks of the cycle still to run, whether one is in progress, end of idle. -/
  cycStart : Option Nat
  cycQ : List Nat
  inCycle : Bool
  idleUntil : Option Nat
  /-- Execution time in the present second and in the longest execution, for HDL_HSTAT. -/
  busyNs : Nat
  longest : Nat
  deriving DecidableEq, Repr

/-- A block of the logic store assigned to a task (R230, R428). -/
structure TaskEntry where
  start : Nat
  length : Nat
  limit : Nat
  minUs : Nat
  deriving DecidableEq, Repr

/-- A logic action that takes effect at T_apply (R264). -/
inductive LogicAct where
  | force (e : Nat) (area : Nat) (size : Nat) (addr : Nat) (value : Word)
  | unforce (e : Nat)
  | unforceAll
  | online (i : Nat) (value : Word)
  | run
  | stop
  deriving DecidableEq, Repr

/-- Heddle data beyond registers and memory. -/
structure HdlSt where
  code : List (BitVec 64)
  callable : List (Nat × Nat)
  entries : Tab TaskEntry
  retn : Nat
  qstop : Tab Byte
  tunables : List Tunable
  /-- Online-changed values by tunable index (R262, R263). -/
  online : Tab (Option Word)
  heddles : Tab HeddleSt
  /-- Armed breakpoint (R260). -/
  brk : Option Nat
  /-- Actions waiting for T_apply: time and action, in order of acceptance (R264). -/
  acts : List (Nat × LogicAct)
  /-- Q bits last written by an execution that reads a forced input (R258): mask per octet. -/
  derived : Tab Byte
  /-- Event releases raised by a trip channel's assertion, not yet served: 32 × Heddle + event task (R247, R250). -/
  evReq : List Nat
  deriving DecidableEq, Repr

/-! ### Peal and controlled closing (chapter 12) -/

/-- A controlled close from request to the end of its window (R314–R316): times in device time, ends on `tim.up`, T_est in ms. -/
structure CloseSt where
  tReq : Nat
  tCmd : Nat
  tEst : Rat
  tTgt : Nat
  pulseEnd : Nat
  winEnd : Nat
  /-- Device time of the current onset, and of the fall of CBBIN. -/
  onset : Option Nat
  fall : Option Nat
  driven : Bool
  /-- PEL_CC_CFG_Bn at the request (R435). -/
  cfg : Word
  deriving DecidableEq, Repr

/-- A received launch-time GOOSE message waiting for its T (R313). -/
structure LaunchWait where
  t : Nat
  msg : GooseMsg
  deriving DecidableEq, Repr

structure PealSt where
  /-- Next occurrence number per armed entry. -/
  next : Tab Nat
  /-- Occurrences of an entry before this device time launch late: it was armed, or time stepped, beyond them (R309). -/
  late : Tab Nat
  /-- Occurrences loaded into launch slots: (entry, occurrence, T) (R311). -/
  slots : List (Nat × Nat × Nat)
  close : Tab (Option CloseSt)
  /-- Time of the last change of CBBIN per bay (R315). -/
  cbLast : Tab (Option Nat)
  launches : Tab (Option LaunchWait)
  deriving DecidableEq, Repr

/-! ### Spindles (chapter 11) -/

/-- One loop block beyond its registers: its next release, the mode decided last (OVR apart), the local set-point, the manual value,
the sequence numbers taken, the integrator (32 fraction bits), derivative, the last derivative input and the last input, the profile's
position, velocity and acceleration (R288), its plan with the plan's origin, the target, the words of its coefficients and scaling at
the last release, a PID's error e (R281), and the states that R283, R284 and R291 ask for. -/
structure BlockSt where
  next : Option Nat
  mode : Nat
  started : Bool
  sp : Int
  mv : Int
  lseq : Byte
  mseq : Byte
  integ : Int
  d : Int
  q : Int
  xPrev : Int
  pos : Int
  vel : Int
  acc : Int
  plan : List (Int × Nat)
  planT0 : Nat
  target : Int
  stopping : Bool
  profAt : Option Nat
  coefs : List Word
  refused : Bool
  mastered : Bool
  err : Int
  deriving DecidableEq, Repr

structure SpnSt where
  blocks : Tab BlockSt
  /-- The actor's values last received per block (R287). -/
  rx : Tab (Option LoopValues)
  /-- Device time of the latch of the execution that last wrote a block's Q interface (R277). -/
  qLatch : Tab Nat
  deriving DecidableEq, Repr

/-! ### Networks (chapter 13) -/

/-- A publishing control block beyond its registers: value and quality of each member last published, the instants of their last changes, the newest
change, the present interval in ms, the next transmission on `tim.up`, the launch time carried, and while a timed publication waits
for its T, that T (R333–R336). -/
structure PubSt where
  started : Bool
  core : List (List GooseVal × BitVec 13)
  changed : List Nat
  /-- On a follower, the dataset of the block's last shipped message (R382, R383). -/
  shipped : List GooseVal
  t : Nat
  interval : Nat
  tmax : Nat
  nextTx : Option Nat
  launch : Nat
  hold : Option Nat
  deriving DecidableEq, Repr

/-- A subscription beyond its registers: the end of its timeAllowedToLive on `tim.up`, and the device time of the last accepted
message's arrival. -/
structure SubSt where
  deadline : Option Nat
  arrived : Nat
  deriving DecidableEq, Repr

/-- A published stream: absolute index on the fixed timeline of the next frame's first sample. -/
structure SvPubSt where
  next : Option Nat
  deriving DecidableEq, Repr

/-- A subscribed stream: `tim.up` of its last matching frame, and the reorder buffer by absolute sample index (smpSynch and
channels). -/
structure SvSubSt where
  lastAt : Option Nat
  buf : List (Nat × (Nat × List (Int × Word)))
  deriving DecidableEq, Repr

/-- A stream-fed signal's reads: missing samples in a row (3: a run that is not bridged), the last sample present, the next index to read. -/
structure SvGap where
  miss : Nat
  last : Sample
  next : Option Nat
  deriving DecidableEq, Repr

structure NetSt where
  /-- Transmit rings Q08–Q15, oldest first (R329). -/
  tx : Tab (List TxFrame)
  /-- Hank OUTPUT frames built and held to their exchange instant on `tim.up` (R350). -/
  held : List (Nat × TxFrame)
  /-- Frames that began to leave in the last tick: port and frame. -/
  wire : List (Nat × TxFrame)
  /-- `tim.up` until which a port transmits. -/
  busy : Tab Nat
  /-- PRP sequence number to send next, per pair (0 station, 1 process). -/
  prpSeq : Tab Nat
  /-- Duplicate tables per pair, newest first: MAC, sequence number and `tim.up` (R327). -/
  dups : Tab (List (BitVec 48 × (BitVec 16 × Nat)))
  /-- Last supervision frame of another node per port, and sent per pair. -/
  lanSeen : Tab (Option Nat)
  lifeAt : Tab (Option Nat)
  pub : Tab PubSt
  sub : Tab SubSt
  svp : Tab SvPubSt
  svs : Tab SvSubSt
  gaps : Tab SvGap
  deriving DecidableEq, Repr

/-- A Hank module beyond its registers: the MAC in use, whether exchanges run, the CONFIG waiting for its CONFIG_ACK, whether the next
INPUT is accepted whatever its SEQ, the SEQ of the last frame accepted, the last accepted INPUT on `tim.up` and its sample time, the last OUTPUT's SEQ and instant and
whether it was delivered, the next exchange, a timed launch with its image, and whether the image was forced. -/
structure ModSt where
  mac : BitVec 48
  exchange : Bool
  cfgAt : Option Nat
  anySeq : Bool
  rxSeq : BitVec 16
  lastIn : Option Nat
  inTime : Nat
  outSeq : Nat
  outAt : Option Nat
  delivered : Bool
  nextOut : Option Nat
  launch : Option (Nat × List Byte)
  forced : Bool
  deriving DecidableEq, Repr

structure HnkSt where
  mods : Tab ModSt
  deriving DecidableEq, Repr

/-! ### Twin (chapter 14) -/

/-- What this ply hands to the Ply link. -/
inductive PlyMsg where
  | identity
  | refusal
  | results (bay n : Nat) (bits : List (Nat × (Bool × Bool)))
  | tripState (w : Word)
  | tripReset (ch : Nat)
  | tripResetRefused (ch : Nat)
  | overlay (k t src : Nat)
  | frame (f : TxFrame)
  | ack
  | loop (b : Nat) (v : LoopValues)
  | command (opc : Byte) (e : HostEntry) (tApply : Nat)
  | response (e : RingEntry)
  | capture (plan t : Nat) (num : Word)
  | recordNumber (plan : Nat) (n : Word)
  | copyRequest
  | snapshot (s : Snapshot)
  | change (c : StreamedChange)
  | almanac (r : AlmRecord)
  | claimFault
  deriving DecidableEq, Repr

/-- One bay's published start and operate bits with their frame count, and `tim.up` of publication (R376). -/
structure BayResult where
  n : Nat
  bits : List (Nat × (Bool × Bool))
  at_ : Nat
  deriving DecidableEq, Repr

structure PlySt where
  /-- Handed to the Ply link in this nanosecond. -/
  sent : List PlyMsg
  /-- `tim.up` when the link went down (R384). -/
  linkDown : Option Nat
  /-- `tim.up` when claim backoff began (R374). -/
  backoff : Option Nat
  /-- First own claim edge, for a simultaneous claim. -/
  claimAt : Option Nat
  /-- Last refresh of the claim watchdog (R375). -/
  claimFed : Nat
  /-- The peer is counted lost (R377). -/
  lost : Bool
  /-- Own results of each bay waiting for the peer's (R376). -/
  waiting : Tab (Option BayResult)
  /-- Peer results that came before the own publication. -/
  early : Tab (Option BayResult)
  /-- Peer's last merged operate and start bits per instance, for published element states. -/
  merged : Tab (Bool × Bool)
  /-- Frames waiting for the follower's acknowledgement: frame and time shipped (R378). -/
  unacked : List (TxFrame × Nat)
  /-- Frames compared in the shadow pass per bay (R387). -/
  shadowN : Tab Nat
  /-- T_copy of a requested snapshot (R385). -/
  copyAt : Option Nat
  /-- What the peer has of this ply's shared state: the last snapshot sent, with every change streamed after it (R385). -/
  stream : Option Snapshot
  /-- Identity digest of the last peer admitted (R369), in Keep memory. -/
  lastPeer : BitVec 384
  /-- What the peer last sent of itself on this link (R369). -/
  peer : Option PeerIdentity
  deriving DecidableEq, Repr

/-! ### Almanac (chapter 15) -/

/-- One plan's or tracker's interval: operating seconds and device time at its start, whether it began off its boundary, whether a step
fell in it, saturation, whether it is running, LO and HI in force (R410), the last value (R393) and the next sample on `tim.up`. -/
structure AlmPlanSt where
  opStart : Nat
  partial_ : Bool
  step : Bool
  sat : Bool
  running : Bool
  lo : Word
  hi : Word
  prev : Option Rat
  nextAt : Nat
  deriving DecidableEq, Repr

/-- A record in a store, by commit sequence: area 0 general, 1 lifetime, 2 severity 7, 3 the degraded store (R402, R408). -/
structure Stored where
  seq : Nat
  area : Nat
  body : AlmRecord
  deriving DecidableEq, Repr

/-- A staged record with the device time of its boundary and whether the peer forwarded it (R398, R403, R408). -/
structure Staged where
  body : AlmRecord
  at_ : Nat
  remote : Bool
  deriving DecidableEq, Repr

/-- An open interruption measurement (R394): `tim.up` of its start, largest current in primary A, Σ I² Δt in kA² s. -/
structure Interruption where
  since : Nat
  peak : Rat
  i2t : Rat
  deriving DecidableEq, Repr

structure AlmSt where
  plans : Tab AlmPlanSt
  trackers : Tab AlmPlanSt
  /-- Device time of the next boundary of each interval kind (R397). -/
  nextB : Tab (Option Nat)
  /-- Records staged and not committed, in order (R398, R403). -/
  staged : List Staged
  /-- Records held, in commit order, in Keep memory and the degraded store (R402, R404, R408), and the next commit's sequence. -/
  store : List Stored
  seq : Nat
  /-- Tally notes in Boot memory (R409), oldest first: eight words each; the causes written in this power cycle. -/
  tally : List (List Word)
  tallied : List Nat
  /-- The keep-alive counters were lost with VBAT and are not restored yet (R407). -/
  counterLost : Bool
  refSince : Nat
  lost : Nat
  /-- ALM_LATE has been raised for the boundary of the first staged record. -/
  late : Bool
  /-- Commit sequence of the record last loaded into the window, + 1 (R406). -/
  cursor : Nat
  /-- Open interruption measurements per trip channel (R394). -/
  interrupt : Tab (Option Interruption)
  scanned : Bool
  /-- Records held when the store was DEGRADED, until a start finds it working (R408). -/
  held : Option Nat
  /-- The last slot written failed its verification once (R408). -/
  unverified : Bool
  deriving DecidableEq, Repr

/-! ### Keep memory and security (chapters 15, 18) -/

/-- The warm-restart save (R262): the image hash, the RTC and operating seconds at the save, the logic data, the motors, the Almanac. -/
structure SaveData where
  hash : BitVec 384
  rtc : Nat
  opsec : Nat
  mem : List Host.Cell
  force : List (Nat × Word)
  online : Tab (Option Word)
  mode : Nat
  motors : List MotorCopy
  bins : List (Nat × Word)
  plans : Tab AlmPlanSt
  trackers : Tab AlmPlanSt
  staged : List Staged
  nextB : Tab (Option Nat)
  captureNext : Word
  deriving DecidableEq, Repr

/-- Keep memory beyond the records (R404): media and size as identified, the last save, `tim.up` of its start while it may be unfinished,
whether it was left incomplete (R262), the earlier half (R404), and the controlled-closing data with the image hash they belong to (R316). -/
structure KeepSt where
  media : Nat
  kib : Nat
  save : Option SaveData
  saveAt : Option Nat
  saveBad : Bool
  prev : Option SaveData
  ccHash : BitVec 384
  tlrn : Tab (Option Word)
  cbLast : Tab (Option Nat)
  deriving DecidableEq, Repr

/-- The security core beyond its registers and OTP (R465): the report being made (nonce, `tim.up` of the request, whether the host
asked), a refresh that waits for it, and whether the certificate of this start has been posted. -/
structure SecSt where
  report : Option (BitVec 256 × (Nat × Bool))
  refreshDue : Bool
  cert : Bool
  fw : Option Firmware
  deriving DecidableEq, Repr

/-! ### What the tables read where nothing is listed -/

def laneInit : LaneSt :=
  { sum := 0, ssq := 0, cnt := 0, allValid := true, orFlags := 0, winCfg := 0x1000, winFrame := 0,
    winNext := none, lastBig := 0, last := none, k := 0, from_ := 0 }

def sliceInit : SliceSt :=
  { urgent := none, xck := 0, test := 0, runs := [0, 0, 0, 0, 0, 0], diagBad := false, prevConv := 0, movedAt := 0, diagSlot := 0 }

def acqInit : AcqSt :=
  { lanes := [], slices := [], imgReels := [], imgReelsExplicit := false, use := .idle, rotLast := none, searchQ := [],
    search := none, takeQ := [], attachQ := [], failed1 := [], calStart := none, calAt := [], diagLast := none,
    openRun := [], inj := [], injPins := [], injLast := [], pbRun := [], pbOk := [] }

def timInit : TimSt :=
  { now := 0, frac := 0, up := 0, smp := 0, upStart := 0, logic := 0, rtc := 0, rtcBad := false, rtcSlow := false, opFrac := 0, lockCount := 0, outCount := 0,
    corrs := [], target := 0, offsets := [], holdStart := none, present := [],
    syncWait := none, best := none, pdSeq := 0, pdLast := none, pdWait := [], lockEnd := none, annAt := none, annMs := 1000, alt := none, lastSec := 0, leapAt := none }

def ringEntryInit : RingEntry :=
  { tag := 0, status := 0, typ := 0, len := 0, p0 := 0, p1 := 0, p2 := 0, p3 := 0, body := [] }

def hostInit : HostSt :=
  { slots := [], coal := [], lastRaise := [], msixOut := [], respWait := [], q07Wait := [], win := [], rdata := 0,
    restartAt := none }

def tripInit : TripSt :=
  { pulseEnd := [], resetDue := [], carried := [], carriedLatch := [], carriedTout := [], wmCount := [], wmLow := [], wmLast := [], wmTaps := [], wmNew := [], wmAt := [],
    arcCount := [], arcCurEnd := [], arcLightEnd := [], pinOff := [], liveOp := [], opEdges := [], assertAt := [], peerState := 0 }

def cfgInit : CfgSt :=
  { boot := none, image := none, base := [], acts := [], bayDue := [], prtDue := [], arcDue := [], switched := none }

def capPlanInit : CapPlan :=
  { ring := [], blocks := [], open_ := [], digital := [0, 0, 0, 0, 0, 0, 0, 0], closing := false, next := none, pend := [] }

def capInit : CapSt := { recs := [], plans := [], order := [], withdrawn := [], held := [], posted := [], gap := [], snaps := [], lastPost := [] }

def heddleInit : HeddleSt :=
  { run := none, stack := [], rels := [], lastRel := [], cycStart := none, cycQ := [], inCycle := false, idleUntil := none,
    busyNs := 0, longest := 0 }

def taskEntryInit : TaskEntry := { start := 0, length := 0, limit := 0, minUs := 0 }

def hdlInit : HdlSt :=
  { code := [], callable := [], entries := [], retn := 0, qstop := [], tunables := [], online := [], heddles := [], brk := none,
    acts := [], derived := [], evReq := [] }

def pealInit : PealSt := { next := [], late := [], slots := [], close := [], cbLast := [], launches := [] }

def blockInit : BlockSt :=
  { next := none, mode := 0, started := false, sp := 0, mv := 0, lseq := 0, mseq := 0, integ := 0, d := 0, q := 0, xPrev := 0, pos := 0,
    vel := 0, acc := 0, plan := [], planT0 := 0, target := 0, stopping := false, profAt := none, coefs := [], refused := false,
    mastered := false, err := 0 }

def spnInit : SpnSt := { blocks := [], rx := [], qLatch := [] }

def pubInit : PubSt :=
  { started := false, core := [], changed := [], shipped := [], t := 0, interval := 0, tmax := 0, nextTx := none, launch := 0, hold := none }

def subInit : SubSt := { deadline := none, arrived := 0 }

def svPubInit : SvPubSt := { next := none }

def svSubInit : SvSubSt := { lastAt := none, buf := [] }

def svGapInit : SvGap := { miss := 0, last := { v := 0, f := 0 }, next := none }

def netInit : NetSt :=
  { tx := [], held := [], wire := [], busy := [], prpSeq := [], dups := [], lanSeen := [], lifeAt := [], pub := [], sub := [], svp := [], svs := [],
    gaps := [] }

def modInit : ModSt :=
  { mac := 0, exchange := false, cfgAt := none, anySeq := false, rxSeq := 0, lastIn := none, inTime := 0, outSeq := 0, outAt := none,
    delivered := true, nextOut := none, launch := none, forced := false }

def hnkInit : HnkSt := { mods := [] }

def plyInit : PlySt :=
  { sent := [], linkDown := none, backoff := none, claimAt := none, claimFed := 0, lost := false, waiting := [], early := [],
    merged := [], unacked := [], shadowN := [], copyAt := none, stream := none, lastPeer := 0, peer := none }

def almPlanInit : AlmPlanSt :=
  { opStart := 0, partial_ := true, step := false, sat := false, running := false, lo := 0, hi := 0, prev := none, nextAt := 0 }

def almInit : AlmSt :=
  { plans := [], trackers := [], nextB := [], staged := [], store := [], seq := 0, tally := [], tallied := [], counterLost := false, refSince := 0, lost := 0,
    late := false, cursor := 0, interrupt := [], scanned := false, held := none, unverified := false }

def keepInit : KeepSt := { media := 0, kib := 0, save := none, saveAt := none, saveBad := false, prev := none, ccHash := 0, tlrn := [], cbLast := [] }

def secInit : SecSt := { report := none, refreshDue := false, cert := false, fw := none }

def bayChainInit : BayChain :=
  { ft := 50, next := 0, n := 0, src := 2, srcCount := 0, lowV := 3, lowI := 3, hist := [], ring := [], settling := false,
    arrivals := [], opened := [], lostAt := none, pos := 0, step := 0, stopFrom := none, stopN := none, stopTo := none, restartAt := none,
    epochs := [], wave := [], excl := [], steer := none }

def chainInit : ChainSt := { bays := [], settle := [], smps := [], fir := [], mute := [] }

def instInit : InstSt :=
  { h := 0, run := 0, idle := 0, ph := 0, started := false, en := false, curve := 0, reset := 0, t1 := 0, t2 := 0, t3 := 0, flag := false,
    pol := [], released := false }

def motorInit : MotorSt :=
  { state := 0, thetaS := 0, thetaR := 0, dth := 0, atStart := 0, low := 0, i2t := 0, peak := 0, dur := 0, since := 0,
    changed := false, curI := none, startList := [] }

def bayProtInit : BayProt :=
  { hist := [], seqs := [], fvals := [], freps := [], mags := [], motor := motorInit, wave := none, lastArr := none, burst := [],
    arrLog := [] }

def waveInstInit : WaveInst := { ta := none, dec := 0, holdEnd := none, startEnd := none, locate := none, far := false }

def protInit : ProtSt := { bays := [], inst := [], wave := [], held := [] }

def pwrInit : PwrSt :=
  { on := false, goodAt := 0, spiMode := false, sideB := false, refclk := false, pfw := false, pfwAt := 0, placed := false, onVbat := false,
    trigs := [], migLast := none, bayMig := [], noTarget := [], corr := [], corrSec := 0, telem := [], late := [], raised := [], throttleAt := [], gates := [],
    worst := [], telemAt := none, reeveAt := none, attestAt := none }

/-! ### The state -/

/-- The device. -/
structure State where
  /-- Commands waiting, first in first out. -/
  pending : List Instr
  /-- The model's own counter that selects free values (assumption 4). -/
  freeSeq : Nat
  /-- BAR0 registers (R4, R27, R473): sparse over `regReset`. -/
  regs : List (Nat × Word)
  /-- Latched copies of the registers that are read as a set (R23, R58, R60, R151, R200, R293, R296, R389, R438, R488). -/
  latched : List (Nat × Word)
  /-- On-chip memory octets by internal address (R27); what unlisted octets read is `memReset` (assumption 2). -/
  mem : List Host.Cell
  tim : TimSt
  acq : AcqSt
  host : HostSt
  trip : TripSt
  cfg : CfgSt
  chain : ChainSt
  prot : ProtSt
  pwr : PwrSt
  cap : CapSt
  hdl : HdlSt
  peal : PealSt
  spn : SpnSt
  net : NetSt
  hnk : HnkSt
  ply : PlySt
  alm : AlmSt
  keep : KeepSt
  sec : SecSt
  deriving DecidableEq, Repr

/-- The device at reset. -/
def State.reset : State :=
  { pending := [], freeSeq := 0, regs := [], latched := [], mem := [], tim := timInit, acq := acqInit, host := hostInit,
    trip := tripInit, cfg := cfgInit, chain := chainInit, prot := protInit, pwr := pwrInit, cap := capInit, hdl := hdlInit, peal := pealInit,
    spn := spnInit, net := netInit, hnk := hnkInit, ply := plyInit, alm := almInit, keep := keepInit, sec := secInit }

end Sys2Proof.Machine
end

