-- ==== Sys2Proof/Machine/Ops.lean ====
section
/-! DEFINITION. The named operations over registers, memory, free values, rings and events. -/

namespace Sys2Proof.Machine

/-! ### Bit fields -/

/-- The value of a field of a word. -/
def fldGet (f : Fld) (w : Word) : Nat := w.toNat / 2 ^ f.lo % 2 ^ (f.hi + 1 - f.lo)

/-- The word with a field replaced (the value taken modulo the field's width). -/
def fldPut (f : Fld) (v : Nat) (w : Word) : Word :=
  BitVec.ofNat 32 (w.toNat - fldGet f w * 2 ^ f.lo + v % 2 ^ (f.hi + 1 - f.lo) * 2 ^ f.lo)

/-- Bit `i` of a word. -/
def bitGet (w : Word) (i : Nat) : Bool := w.toNat.testBit i

/-- The word with bit `i` replaced. -/
def bitPut (w : Word) (i : Nat) (b : Bool) : Word :=
  if w.toNat.testBit i = b then w
  else if b then BitVec.ofNat 32 (w.toNat + 2 ^ i) else BitVec.ofNat 32 (w.toNat - 2 ^ i)

/-- Flag `i` of a sample's flags. -/
def flagGet (f : SampleFlags) (i : Nat) : Bool := f.toNat.testBit i

/-- The flags with bit `i` replaced. -/
def flagPut (f : SampleFlags) (i : Nat) (b : Bool) : SampleFlags :=
  if f.toNat.testBit i = b then f
  else if b then BitVec.ofNat 8 (f.toNat + 2 ^ i) else BitVec.ofNat 8 (f.toNat - 2 ^ i)

/-- An integer as a two's-complement word. -/
def wordOfInt (i : Int) : Word := BitVec.ofInt 32 i

/-- The low 32 bits of a 64-bit quantity. -/
def lo32 (n : Nat) : Word := BitVec.ofNat 32 n

/-- Bits 63:32 of a 64-bit quantity. -/
def hi32 (n : Nat) : Word := BitVec.ofNat 32 (n / 2 ^ 32)

/-- A signed field of `n` bits. -/
def signExt (n : Nat) (v : Nat) : Int := if v < 2 ^ (n - 1) then (v : Int) else (v : Int) - 2 ^ n

/-- An integer limited to a range. -/
def clampInt (lo hi v : Int) : Int := if v < lo then lo else if hi < v then hi else v

/-- The quotient of an integer by a positive denominator, rounded to nearest; a tie goes the way of `Config.roundTieUp`. -/
def roundDiv (num : Int) (den : Nat) : Int :=
  let q := num / (den : Int)
  let r := (num % (den : Int)).toNat
  if 2 * r < den then q
  else if den < 2 * r then q + 1
  else if Config.roundTieUp num den then q + 1 else q

/-! ### Registers -/

/-- The word a BAR0 register holds. -/
def State.reg (s : State) (a : Nat) : Word := sparseGet regReset s.regs a

/-- Replace a register. -/
def State.setReg (s : State) (a : Nat) (w : Word) : State := { s with regs := sparsePut regReset s.regs a w }

/-- A field of a register. -/
def State.fld (s : State) (a : Nat) (f : Fld) : Nat := fldGet f (s.reg a)

/-- Replace a field of a register. -/
def State.setFld (s : State) (a : Nat) (f : Fld) (v : Nat) : State := s.setReg a (fldPut f v (s.reg a))

/-- Bit `i` of a register. -/
def State.bit (s : State) (a i : Nat) : Bool := bitGet (s.reg a) i

/-- Replace bit `i` of a register. -/
def State.setBit (s : State) (a i : Nat) (b : Bool) : State := s.setReg a (bitPut (s.reg a) i b)

/-- Add to a counter field that wraps. -/
def State.incWrap (s : State) (a : Nat) (f : Fld) : State := s.setFld a f (s.fld a f + 1)

/-- The largest value of a field. -/
def fldMax (f : Fld) : Nat := 2 ^ (f.hi + 1 - f.lo) - 1

/-- Write a 64-bit value to a LO, HI register pair. -/
def State.setReg64 (s : State) (alo ahi n : Nat) : State := (s.setReg alo (lo32 n)).setReg ahi (hi32 n)

/-- A 64-bit value of a LO, HI register pair. -/
def State.reg64 (s : State) (alo ahi : Nat) : Nat := (s.reg alo).toNat + 2 ^ 32 * (s.reg ahi).toNat

/-- Copy a register into its latched copy. -/
def State.latch (s : State) (a : Nat) : State := { s with latched := sparsePut (fun _ => 0) s.latched a (s.reg a) }

/-- Copy `n` consecutive registers into their latched copies. -/
def State.latchRange (s : State) (a : Nat) : Nat → State
  | 0 => s
  | n + 1 => State.latchRange (s.latch a) (a + 4) n

/-- A latched copy. -/
def State.latchedReg (s : State) (a : Nat) : Word := sparseGet (fun _ => 0) s.latched a

/-! ### Memory (R27; little-endian, R5) -/

/-- What an unlisted octet reads as: 0, but for the debug lock that is set before shipment (R459). -/
def memReset (a : Nat) : Byte := if a = 0x0F8002A0 then 1 else 0

/-- The octet at an internal address. -/
def State.octet (s : State) (a : Nat) : Byte := sparseGet memReset s.mem a

/-- Write an octet. -/
def State.setOctet (s : State) (a : Nat) (b : Byte) : State := { s with mem := sparsePut memReset s.mem a b }

/-- The little-endian value of `n` octets from `a`. -/
def State.octetsLE (s : State) (a : Nat) : Nat → Nat
  | 0 => 0
  | n + 1 => (s.octet a).toNat + 256 * s.octetsLE (a + 1) n

/-- Write `n` octets of a value from `a`, least significant first. -/
def State.setOctetsLE (s : State) (a : Nat) : Nat → Nat → State
  | 0, _ => s
  | n + 1, v => (s.setOctet a (BitVec.ofNat 8 v)).setOctetsLE (a + 1) n (v / 256)

/-! ### Free values (assumption 4) -/

/-- Take the next free value's number. -/
def State.nextFree (s : State) : Nat × State := (s.freeSeq, { s with freeSeq := s.freeSeq + 1 })

/-! ### Device-produced rings (R476–R478) -/

/-- HEAD index of ring r. -/
def State.qHead (s : State) (r : Nat) : Nat := s.fld (A.HST_Q_HEAD r) F.HST_Q_INDEX

/-- TAIL index of ring r. -/
def State.qTail (s : State) (r : Nat) : Nat := s.fld (A.HST_Q_TAIL r) F.HST_Q_INDEX

/-- Depth of ring r. -/
def State.qDepth (s : State) (r : Nat) : Nat := s.fld (A.HST_Q_DEPTH r) ⟨15, 0⟩

/-- Full: TAIL + 1 = HEAD modulo the depth. -/
def State.qFull (s : State) (r : Nat) : Bool := (s.qTail r + 1) % s.qDepth r == s.qHead r

/-- Empty: HEAD = TAIL. -/
def State.qEmpty (s : State) (r : Nat) : Bool := s.qHead r == s.qTail r

/-- Entries a ring holds. -/
def State.qCount (s : State) (r : Nat) : Nat := (s.qTail r + s.qDepth r - s.qHead r) % s.qDepth r

/-- Write an entry at TAIL and advance TAIL (the ring is not full). -/
def State.qPost (s : State) (r : Nat) (e : RingEntry) : State :=
  let s1 := { s with host := { s.host with slots := tabPut ringEntryInit s.host.slots (1024 * r + s.qTail r) e } }
  s1.setFld (A.HST_Q_TAIL r) F.HST_Q_INDEX ((s.qTail r + 1) % s.qDepth r)

/-- The device consumes an entry: HEAD advances. -/
def State.qTake (s : State) (r : Nat) : State :=
  s.setFld (A.HST_Q_HEAD r) F.HST_Q_INDEX ((s.qHead r + 1) % s.qDepth r)

/-! ### Events (R479–R481) -/

/-- HST_EVT_PEND bit of a source. -/
def State.evtPend (s : State) (n : Nat) : Bool := s.bit (A.HST_EVT_PEND (n / 32)) (n % 32)

/-- HST_EVT_MASK bit of a source. -/
def State.evtMask (s : State) (n : Nat) : Bool := s.bit (A.HST_EVT_MASK (n / 32)) (n % 32)

/-- One MSI-X message on vector n, in PCIe mode; while the vector is masked in the MSI-X table its bit in the pending-bit
array stands instead (R471, R480). -/
def State.msix (s : State) (n : Nat) : State :=
  if s.fld A.HST_STAT F.HST_STAT_MODE = 1 then
    if s.bit (A.HST_MSIX_CTL n) 0 then s.setBit (A.HST_MSIX_PBA (n / 32)) (n % 32) true
    else { s with host := { s.host with msixOut := s.host.msixOut ++ [n] } }
  else s

/-- HOST_IRQ is driven low while any pending source is unmasked, in quad-SPI mode (R472, R480). -/
def State.hostIrqLow (s : State) : Bool :=
  s.fld A.HST_STAT F.HST_STAT_MODE == 2 &&
    [0, 1, 2, 3].any (fun k => (s.reg (A.HST_EVT_PEND k)) &&& ~~~(s.reg (A.HST_EVT_MASK k)) != 0)

/-- Count a dropped entry in HST_CNT.DROP, saturating (R491). -/
def State.countDrop (s : State) : State :=
  s.setFld A.HST_CNT F.HST_CNT_DROP (min (s.fld A.HST_CNT F.HST_CNT_DROP + 1) 0xFFFF)

/-- The Q02 entry of a raise (R481). -/
def evtEntry (src coal now : Nat) (p3 : Word) : RingEntry :=
  { tag := src, status := 0, typ := 2, len := 0, p0 := lo32 now, p1 := hi32 now,
    p2 := BitVec.ofNat 32 (min coal 0xFFFF), p3 := p3, body := [] }

/-- A raise: coalesced while the pending bit stands, else the bit sets, an entry goes to Q02 (dropped where Q02 is full), and
the source is signalled unless masked. The Bool tells a dropped entry. -/
def State.raiseCore (s : State) (src : Nat) (p3 : Word) : Bool × State :=
  if s.evtPend src then
    (false, { s with host := { s.host with coal := tabMod 0 s.host.coal src (· + 1) } })
  else
    let s1 := s.setBit (A.HST_EVT_PEND (src / 32)) (src % 32) true
    let s2 := if s1.evtMask src then s1 else s1.msix src
    if s2.qFull 2 then (true, s2)
    else
      let c := tabGet 0 s2.host.coal src
      let s3 := s2.qPost 2 (evtEntry src c s2.tim.now p3)
      (false, { s3 with host := { s3.host with coal := tabPut 0 s3.host.coal src 0 } })

/-- An entry of ring `r` was dropped: counted, and HST_RING_DROP is raised, whose own entry may be dropped and counted in
turn (R481, R482). The first time the count reaches its largest value raises SUP_FAULT (R496). -/
def State.ringDrop (s : State) (r : Nat) : State :=
  let s1 := s.countDrop
  let (d, s2) := s1.raiseCore Ev.HST_RING_DROP (BitVec.ofNat 32 r)
  let s3 := if d then (s2.countDrop.raiseCore Ev.HST_RING_DROP 2).2 else s2
  if s.fld A.HST_CNT F.HST_CNT_DROP ≠ 0xFFFF ∧ s3.fld A.HST_CNT F.HST_CNT_DROP = 0xFFFF then
    let (k, s4) := s3.nextFree
    ((s4.setReg A.SUP_FAULTINFO (BitVec.ofNat 32 (13 * 2 ^ 28 + Config.freeNat k % 32))).raiseCore Ev.SUP_FAULT 13).2
  else s3

/-- Raise an event source with the index its entry carries (R479–R481, R522). -/
def State.raise (s : State) (src : Nat) (p3 : Nat) : State :=
  let (d, s1) := s.raiseCore src (BitVec.ofNat 32 p3)
  if d then s1.ringDrop 2 else s1

/-- The P3 of events that name no index (R522). -/
def noIndex : Nat := 0xFFFFFFFF

/-- Raise a source at most once per second for an item (R479: such limits apply before coalescing). -/
def State.raiseLim (s : State) (src item p3 : Nat) : State :=
  let k := 65536 * src + item
  let t := tabGet 0 s.host.lastRaise k
  if t ≠ 0 ∧ s.tim.now + 1 < t + 1000000000 then s
  else State.raise { s with host := { s.host with lastRaise := tabPut 0 s.host.lastRaise k (s.tim.now + 1) } } src p3

/-- Add 1 to a saturating counter field; on first reaching its maximum raise `src` with `p3`. -/
def State.incSat (s : State) (a : Nat) (f : Fld) (src p3 : Nat) : State :=
  let v := s.fld a f
  if v = fldMax f then s
  else
    let s1 := s.setFld a f (v + 1)
    if v + 1 = fldMax f then s1.raise src p3 else s1

/-- Add 1 to a saturating counter field that raises nothing. -/
def State.incSatQuiet (s : State) (a : Nat) (f : Fld) : State :=
  s.setFld a f (min (s.fld a f + 1) (fldMax f))

/-- Post an entry to a device ring, or drop and count it (R481, R482). -/
def State.postOrDrop (s : State) (r : Nat) (e : RingEntry) : State :=
  if s.qFull r then s.ringDrop r else s.qPost r e

/-! ### Responses (R483) -/

/-- The response of a command: TYPE 1, the command's TAG, its opcode in P3[7:0]. -/
def respEntry (tag status opc : Nat) (p0 p1 p2 : Word) : RingEntry :=
  { tag := tag, status := status, typ := 1, len := 0, p0 := p0, p1 := p1, p2 := p2, p3 := BitVec.ofNat 32 (opc % 256), body := [] }

/-- Post a response on Q01, or hold it until the host frees an entry. -/
def State.respond (s : State) (e : RingEntry) : State :=
  if s.qFull 1 then { s with host := { s.host with respWait := s.host.respWait ++ [e] } } else s.qPost 1 e

/-! ### Times -/

/-- `n` slots of 16 sample-clock cycles at 157.2864 MHz, in ns, rounded up (R7). -/
def slotsNs (n : Nat) : Nat := (n * 16 * 1000000000 + 157286399) / 157286400

/-- `n` Reel cycles of the Reels in force, in ns, rounded up (R40). -/
def State.reelCyclesNs (s : State) (n : Nat) : Nat := slotsNs (n * s.fld A.ACQ_STAT F.ACQ_STAT_L)

/-- Time has reached `t`. -/
def State.due (s : State) (t : Nat) : Bool := Nat.ble t s.tim.now

/-- Fold a step over a list of indices. -/
def State.forEach {α : Type} (s : State) (l : List α) (f : α → State → State) : State := l.foldl (fun s x => f x s) s

/-! ### Ply link and Almanac notes -/

/-- Hand a message to the Ply link while it is up (R367). -/
def State.plySend (s : State) (m : PlyMsg) : State :=
  if s.bit A.PLY_STAT 24 then { s with ply := { s.ply with sent := s.ply.sent ++ [m] } } else s

/-- Device time as a record carries it: 0 unless LOCKED (R399). -/
def State.almTime (s : State) : BitVec 64 :=
  if s.fld A.TIM_STAT F.TIM_STAT_STATE = 2 then BitVec.ofNat 64 s.tim.now else 0

/-- Severity of a note (R401). -/
def noteSeverity (code : Nat) : Nat :=
  match code with
  | 1 => 4
  | 2 => 4
  | 3 => 3
  | 4 => 3
  | 5 => 2
  | 6 => 5
  | 7 => 7
  | _ => 5

/-- A note record (R399–R401) with its parameters as words; the number is given when it is committed. -/
def State.noteRecord (s : State) (code : Nat) (ps : List Word) : AlmRecord :=
  { kind := 3, severity := noteSeverity code, flags := if s.fld A.TIM_STAT F.TIM_STAT_STATE = 2 then 0 else 16, number := 0,
    subject := code, segment := 0, segments := 1, opStart := s.reg A.ALM_OPSEC, opEnd := s.reg A.ALM_OPSEC,
    pwrCyc := s.reg A.ALM_PWRCYC, time := s.almTime, payload := ps, refSince := 0 }

/-- Stage a note for commit. -/
def State.note (s : State) (code : Nat) (ps : List Word) : State :=
  { s with alm := { s.alm with staged := s.alm.staged ++ [{ body := s.noteRecord code ps, at_ := s.tim.now, remote := false }] } }

/-! ### Faults (R450, R457) -/

/-- A fault by its row of R450, with the engine where one is named; ENGINE is free where none is. -/
def State.supFault (s : State) (row : Nat) (engine : Option Nat) : State :=
  let (k, s1) := s.nextFree
  let e := engine.getD (Config.freeNat k % 32)
  (s1.setReg A.SUP_FAULTINFO (BitVec.ofNat 32 (row * 2 ^ 28 + e % 32))).raiseLim Ev.SUP_FAULT 0 row

/-- A SUP counter: the first time it reaches its largest value is a fault of its own (R457). -/
def State.supCount (s : State) (a : Nat) (f : Fld) : State :=
  let v := s.fld a f
  if v = fldMax f then s
  else
    let s1 := s.setFld a f (v + 1)
    if v + 1 = fldMax f then s1.supFault 13 none else s1

/-! ### Protected regions (R27, R29) -/

/-- Address `a` lies in a region loaded from the image that engine `e` neither executes nor owns: the Heddle logic store and the K area
are the Heddles'; the coefficient and table areas within engine locals are that engine's. -/
def foreignLoaded (e a : Nat) : Bool :=
  let heddle := Nat.ble 8 e && Nat.blt e 12
  if 0x02780000 ≤ a ∧ a < 0x02800000 ∨ 0x02830000 ≤ a ∧ a < 0x02840000 then !heddle
  else if 0x02000000 ≤ a ∧ a < 0x02200000 then Config.localTable a && e != (a - 0x02000000) / 0x40000
  else if 0x02200000 ≤ a ∧ a < 0x02400000 then Config.localTable a && e != 16 + (a - 0x02200000) / 0x100000
  else if 0x02700000 ≤ a ∧ a < 0x02780000 then Config.localTable a && e != 12 + (a - 0x02700000) / 0x20000
  else false

/-- Engine `e` writes to internal address `a` outside its work: in another's loaded region the write is discarded, counted, and a fault. -/
def State.engineWrite (s : State) (e a : Nat) : State :=
  if foreignLoaded e a then (s.supCount A.SUP_PFLT F.SUP_PFLT_COUNT).supFault 12 (some e) else s

/-! ### Refused objects (R461, R468, R469) -/

/-- SEC_LASTERR's cause of a failing signature block, 0 where it verifies (R461). -/
def sigCause (c : SigCheck) : Nat := if !c.keysMatch then 2 else if !c.rsaOk then 3 else if !c.slhOk then 4 else 0

/-- SEC_LASTERR takes a refused object and its cause (R468). -/
def State.lastErr (s : State) (object cause : Nat) : State :=
  (s.setReg A.SEC_LASTERR (BitVec.ofNat 32 (object * 65536 + cause))).raise Ev.SEC_VERIFY_FAIL (object * 65536 + cause)

/-- A token of type `ty` is refused: counted, shown and raised. -/
def State.refuseObject (s : State) (ty cause : Nat) : State := (s.incSatQuiet A.SEC_CNT F.SEC_CNT_REFUSED).lastErr (ty + 2) cause

end Sys2Proof.Machine
end

