-- ==== Sys2Proof/Machine/Operands.lean ====
section
/-! DEFINITION. The operand forms of the Heddle instructions (R221–R229): the instruction word's fields, the memory areas, bit
and word operands, indexed addressing, alignment, and the program faults they give (R241). -/

namespace Sys2Proof.Machine

/-! ### Instruction word (R229) -/

def insOpc (w : BitVec 64) : Nat := w.toNat / 2 ^ 56
def insArea (w : BitVec 64) : Nat := w.toNat / 2 ^ 53 % 8
def insSize (w : BitVec 64) : Nat := w.toNat / 2 ^ 51 % 4
def insInd (w : BitVec 64) : Bool := w.toNat.testBit 50
def insComb (w : BitVec 64) : Nat := w.toNat / 2 ^ 48 % 4
def insNeg (w : BitVec 64) : Bool := w.toNat.testBit 47
def insAux (w : BitVec 64) : Nat := w.toNat / 2 ^ 32 % 256
def insAddr (w : BitVec 64) : Nat := w.toNat % 2 ^ 32

/-- The element index: ADDR, plus Y[17:0] when IND is set. Y is read before the instruction executes. -/
def insIndex (w : BitVec 64) (y : Word) : Nat := insAddr w + (if insInd w then y.toNat % 2 ^ 18 else 0)

/-- An instruction word with the given fields: the encoding table of R229. -/
def insWord (opc area size : Nat) (ind : Bool) (comb : Nat) (neg : Bool) (aux addr : Nat) : BitVec 64 :=
  BitVec.ofNat 64 (opc % 256 * 2 ^ 56 + area % 8 * 2 ^ 53 + size % 4 * 2 ^ 51 + ind.toNat * 2 ^ 50 + comb % 4 * 2 ^ 48 +
    neg.toNat * 2 ^ 47 + aux % 256 * 2 ^ 32 + addr % 2 ^ 32)

/-! ### Areas (R223) -/

def iBase : Nat := 0x02800000
def qBase : Nat := 0x0280C000
def mBase : Nat := 0x02812000
def wBase : Nat := 0x02814000
def tBase : Nat := 0x02824000
def cBase : Nat := 0x0282C000
def kBase : Nat := 0x02830000

def iLen : Nat := 49152
def qLen : Nat := 24576
def mBits : Nat := 65536
def wWords : Nat := 32768
def tCount : Nat := 4096
def cCount : Nat := 1024
def kCount : Nat := 16384

/-- Bit elements of an area, 0 where it has none for a bit instruction. -/
def bitBound (area : Nat) : Nat :=
  match area with
  | 1 => 8 * iLen
  | 2 => 8 * qLen
  | 3 => mBits
  | 4 => 16 * wWords
  | 5 => tCount
  | 6 => 2 * cCount
  | _ => 0

/-! ### The logic's view of the areas (R226, R264) -/

/-- An octet of memory as an execution sees it: as it was at the latch where an online change or a force has replaced it since. -/
def Ctx.seen (c : Ctx) (s : State) (a : Nat) : Byte := (tabGet none c.kept a).getD (s.octet a)

/-- `n` octets as an execution sees them, little-endian. -/
def Ctx.seenLE (c : Ctx) (s : State) (a : Nat) : Nat → Nat
  | 0 => 0
  | n + 1 => (c.seen s a).toNat + 256 * c.seenLE s (a + 1) n

/-- Replace the bits of `m` in `b` by those of `v`. -/
def maskByte (m v b : Byte) : Byte := (b &&& ~~~m) ||| (v &&& m)

/-- The octet of Q an execution sees: what it has written, else the Q image. -/
def qSeen (c : Ctx) (s : State) (o : Nat) : Byte :=
  let e := tabGet (0, 0) c.out o
  maskByte e.1 e.2 (c.seen s (qBase + o))

/-- What an execution stores shows in the octets it keeps. -/
def Ctx.keptStore (c : Ctx) (a : Nat) (m v : Byte) : Ctx := { c with kept := tabMod none c.kept a (fun o => o.map (maskByte m v)) }

/-- The same for `n` octets of a value. -/
def Ctx.keptStoreLE (c : Ctx) (a : Nat) : Nat → Nat → Ctx
  | 0, _ => c
  | n + 1, v => (c.keptStore a 0xFF (BitVec.ofNat 8 v)).keptStoreLE (a + 1) n (v / 256)

/-- Octets of Q that are not reserved (R225). -/
def qKnown (o : Nat) : Bool := Nat.ble o 0x204 || (Nat.ble 0x1000 o && Nat.ble o 0x5FFF)

/-- Write bits `m` of a Q octet in the output buffer; a write to a reserved octet is ignored (R225, R3). -/
def qWrite (c : Ctx) (o : Nat) (m v : Byte) : Ctx :=
  let e := tabGet (0, 0) c.out o
  if qKnown o then { c with out := tabPut (0, 0) c.out o (e.1 ||| m, maskByte m v e.2) } else c

/-- The bit of an octet as a mask. -/
def bitMask (i : Nat) : Byte := BitVec.ofNat 8 (2 ^ (i % 8))

/-! ### Timers and counters as operands (R236, R238) -/

/-- The timer's word at +4. -/
def State.timerWord (s : State) (n : Nat) : Nat := s.octetsLE (tBase + 8 * n + 4) 4

/-- The timer's STAMP. -/
def State.timerStamp (s : State) (n : Nat) : Nat := s.octetsLE (tBase + 8 * n) 4

/-- ET = min(ACC + RUN × (t − STAMP), 2²⁹ − 1), the subtraction modulo 2³² (R236). -/
def timerEt (stamp word t : Nat) : Nat :=
  min (word % 2 ^ 29 + (if word.testBit 30 then (t % 2 ^ 32 + 2 ^ 32 - stamp) % 2 ^ 32 else 0)) (2 ^ 29 - 1)

/-- A timer's elapsed time at logic clock `t`. -/
def State.timerEtAt (s : State) (n t : Nat) : Nat := timerEt (s.timerStamp n) (s.timerWord n) t

/-- A counter's CV. -/
def State.counterCv (s : State) (n : Nat) : Nat := s.octetsLE (cBase + 16 * n) 4

/-- A counter's word at +4. -/
def State.counterWord (s : State) (n : Nat) : Nat := s.octetsLE (cBase + 16 * n + 4) 4

/-! ### Bit operands -/

/-- The value of a bit element. -/
def readBit (c : Ctx) (s : State) (area i : Nat) : Bool :=
  match area with
  | 1 => (tabGet 0 c.img (i / 8)).getLsbD (i % 8)
  | 2 => (qSeen c s (i / 8)).getLsbD (i % 8)
  | 3 => (s.octet (mBase + i / 8)).getLsbD (i % 8)
  | 4 => (c.seen s (wBase + i / 8)).getLsbD (i % 8)
  | 5 => (s.timerWord i).testBit 31
  | 6 => if i % 2 = 0 then s.counterCv (i / 2) != 0 else (s.counterWord (i / 2)).testBit 31
  | _ => false

/-- Write a bit element of Q, M or W; only that bit changes (R228). -/
def writeBit (c : Ctx) (s : State) (area i : Nat) (b : Bool) : Ctx × State :=
  let v : Byte := if b then 0xFF else 0
  match area with
  | 2 => (qWrite c (i / 8) (bitMask i) v, s)
  | 3 => (c, s.setOctet (mBase + i / 8) (maskByte (bitMask i) v (s.octet (mBase + i / 8))))
  | 4 => (c.keptStore (wBase + i / 8) (bitMask i) v, s.setOctet (wBase + i / 8) (maskByte (bitMask i) v (s.octet (wBase + i / 8))))
  | _ => (c, s)

/-! ### Word operands -/

/-- Octets of an access of SIZE. -/
def sizeOctets (size : Nat) : Nat := if size = 0 then 1 else if size = 2 then 4 else 2

/-- The program fault of a word access, 0 for none: 1 outside the area, 2 misaligned (R227, R241). -/
def wordFault (area size i : Nat) : Nat :=
  let n := sizeOctets size
  match area with
  | 1 => if iLen < i + n then 1 else if i % n ≠ 0 then 2 else 0
  | 2 => if qLen < i + n then 1 else if i % n ≠ 0 then 2 else 0
  | 3 => if mBits < i + 8 * n then 1 else if n ≠ 1 ∧ i % (8 * n) ≠ 0 then 2 else 0
  | 4 => if wWords < i + (n + 1) / 2 then 1 else if n = 4 ∧ i % 2 ≠ 0 then 2 else 0
  | 5 => if tCount ≤ i then 1 else 0
  | 6 => if cCount ≤ i then 1 else 0
  | 7 => if kCount ≤ i then 1 else 0
  | _ => 1

/-- `n` octets of the latched image, little-endian. -/
def imgLE (img : Tab Byte) (o : Nat) : Nat → Nat
  | 0 => 0
  | n + 1 => (tabGet 0 img o).toNat + 256 * imgLE img (o + 1) n

/-- `n` octets of Q as the execution sees them, little-endian. -/
def qSeenLE (c : Ctx) (s : State) (o : Nat) : Nat → Nat
  | 0 => 0
  | n + 1 => (qSeen c s o).toNat + 256 * qSeenLE c s (o + 1) n

/-- Write `n` octets of a value to Q. -/
def qWriteLE (c : Ctx) (o : Nat) : Nat → Nat → Ctx
  | 0, _ => c
  | n + 1, v => qWriteLE (qWrite c o 0xFF (BitVec.ofNat 8 v)) (o + 1) n (v / 256)

/-- The raw value of a word element. -/
def readRaw (c : Ctx) (s : State) (area size i : Nat) : Nat :=
  let n := sizeOctets size
  match area with
  | 1 => imgLE c.img i n
  | 2 => qSeenLE c s i n
  | 3 => s.octetsLE (mBase + i / 8) (n + 1) / 2 ^ (i % 8) % 2 ^ (8 * n)
  | 4 => c.seenLE s (wBase + 2 * i) n
  | 5 => s.timerEtAt i c.clk
  | 6 => s.counterCv i
  | 7 => c.seenLE s (kBase + 4 * i) n
  | _ => 0

/-- The word an operand gives: SIZE 3 sign-extends 16 bits (R229); a timer reads ET and a counter CV whole (R232). -/
def readWord (c : Ctx) (s : State) (area size i : Nat) : Word :=
  let v := readRaw c s area size i
  if size = 3 ∧ area ≠ 5 ∧ area ≠ 6 then wordOfInt (signExt 16 v) else BitVec.ofNat 32 v

/-- Store to a word element of Q, M or W. -/
def writeWord (c : Ctx) (s : State) (area size i : Nat) (v : Word) : Ctx × State :=
  let n := sizeOctets size
  match area with
  | 2 => (qWriteLE c i n v.toNat, s)
  | 3 =>
    let old := s.octetsLE (mBase + i / 8) (n + 1)
    let k := 2 ^ (i % 8)
    let new := old - old / k % 2 ^ (8 * n) * k + v.toNat % 2 ^ (8 * n) * k
    (c, s.setOctetsLE (mBase + i / 8) (if i % 8 = 0 then n else n + 1) new)
  | 4 => (c.keptStoreLE (wBase + 2 * i) n v.toNat, s.setOctetsLE (wBase + 2 * i) n v.toNat)
  | _ => (c, s)

/-! ### Outcome of an instruction on its context -/

/-- What one instruction does: a program fault with its code (R241), or the context and state after it. -/
inductive HRes where
  | fault (code : Nat)
  | ok (c : Ctx) (s : State)

/-- Run on a bit operand, or fault when its index lies outside the area. -/
def withBit (w : BitVec 64) (c : Ctx) (k : Nat → HRes) : HRes :=
  let i := insIndex w c.y
  if bitBound (insArea w) ≤ i then .fault 1 else k i

/-- Run on a word operand's index, or fault. -/
def withIndex (w : BitVec 64) (c : Ctx) (k : Nat → HRes) : HRes :=
  let i := insIndex w c.y
  let f := wordFault (insArea w) (insSize w) i
  if f ≠ 0 then .fault f else k i

/-- The second operand S (R232): Y, the immediate, or the memory operand. -/
def withS (w : BitVec 64) (c : Ctx) (s : State) (k : Word → HRes) : HRes :=
  if insArea w = 0 then k (if (insAux w).testBit 7 then c.y else BitVec.ofNat 32 (insAddr w))
  else withIndex w c (fun i => k (readWord c s (insArea w) (insSize w) i))

end Sys2Proof.Machine
end

