-- ==== Sys2Proof/Machine/LogicScan.lean ====
section
/-! DEFINITION. What the logic store says about a task without running it: the instructions its blocks can reach, the Q elements
it writes (R135) and whether it reads a forced input (R258). -/

namespace Sys2Proof.Machine

/-- The instruction words of a block. -/
def HdlSt.blockCode (h : HdlSt) (start len : Nat) : List (BitVec 64) := (h.code.drop start).take len

/-- The words of a block and of the callable blocks it reaches; calls are not recursive and at most 8 deep (R230). -/
def HdlSt.reach (h : HdlSt) : Nat → Nat → Nat → List (BitVec 64)
  | 0, start, len => h.blockCode start len
  | d + 1, start, len =>
    let here := h.blockCode start len
    here ++ (here.filter (fun w => insOpc w == 0x58 || insOpc w == 0x59)).flatMap (fun w =>
      let t := insAddr w % 65536
      match h.callable.find? (fun b => b.1 == t) with
      | some b => HdlSt.reach h d b.1 b.2
      | none => [])

/-- The words a task can execute. -/
def HdlSt.taskCode (h : HdlSt) (hd t : Nat) : List (BitVec 64) :=
  let e := tabGet { start := 0, length := 0, limit := 0, minUs := 0 } h.entries (32 * hd + t)
  h.reach 8 e.start e.length

/-- The instruction writes Q bit `b`, or may by an index. -/
def writesQBit (b : Nat) (w : BitVec 64) : Bool :=
  insArea w == 2 &&
    (if insOpc w == 0x09 || insOpc w == 0x0A || insOpc w == 0x0B then insInd w || insAddr w == b
     else insOpc w == 0x21 && (insInd w || (Nat.ble (8 * insAddr w) b && Nat.blt b (8 * (insAddr w + sizeOctets (insSize w))))))

/-- The instruction is one that reads a word operand (R232–R234). -/
def readsWord (o : Nat) : Bool :=
  o == 0x20 || (Nat.ble 0x28 o && Nat.ble o 0x2C) || (Nat.ble 0x30 o && Nat.ble o 0x32) || o == 0x38 ||
    (Nat.ble 0x40 o && Nat.ble o 0x43)

/-- The instruction reads one of the bits [lo, lo + n) of I; an indexed read counts as reading all of I (R258). -/
def readsI (lo n : Nat) (w : BitVec 64) : Bool :=
  insArea w == 1 &&
    (if insOpc w == 0x01 then insInd w || (Nat.ble lo (insAddr w) && Nat.blt (insAddr w) (lo + n))
     else readsWord (insOpc w) &&
       (insInd w || (Nat.blt lo (8 * (insAddr w + sizeOctets (insSize w))) && Nat.blt (8 * insAddr w) (lo + n))))

/-- Declared tasks of a Heddle. -/
def State.declared (s : State) (hd : Nat) : List Nat :=
  (List.range 32).filter (fun t => s.bit (A.HDL_TCFG hd t) 31)

/-- Heddles whose program writes Q bit `b`. -/
def State.qWriters (s : State) (b : Nat) : List Nat :=
  (List.range 4).filter (fun hd => (s.declared hd).any (fun t => (s.hdl.taskCode hd t).any (writesQBit b)))

/-- Bits of a force entry's element: first bit and count in its area (R267: SIZE 0 bit, 1 octet, 2 16 bits, 3 32 bits). -/
def forceBits (cfg : Word) : Nat × Nat :=
  let a := fldGet F.HDL_FRC_CFG_ADDR cfg
  match fldGet F.HDL_FRC_CFG_SIZE cfg with
  | 0 => (a, 1)
  | 1 => (8 * a, 8)
  | 2 => (8 * a, 16)
  | _ => (8 * a, 32)

/-- Indexes of active force entries on an area. -/
def State.forces (s : State) (area : Nat) : List Nat :=
  (List.range 256).filter (fun e => s.bit (A.HDL_FRC_CFG e) 31 && s.fld (A.HDL_FRC_CFG e) F.HDL_FRC_CFG_AREA == area)

/-- Some task code reads a forced I element. -/
def State.readsForced (s : State) (hd t : Nat) : Bool :=
  let code := s.hdl.taskCode hd t
  (s.forces 1).any (fun e =>
    let b := forceBits (s.reg (A.HDL_FRC_CFG e))
    code.any (readsI b.1 b.2))

end Sys2Proof.Machine
end

