-- ==== Sys2Proof/Machine/Trip.lean ====
section
/-! DEFINITION. The trip matrix, block sources, pins, the Watchman and the arc-flash path (R134–R146, R168, R487, R521), and the
steps of the keep-alive domain that act on them. -/

namespace Sys2Proof.Machine

/-! ### Roles and gates -/

/-- PLY_STAT.ROLE (R370). -/
def State.role (s : State) : Nat := s.fld A.PLY_STAT F.PLY_STAT_ROLE

/-- The gate of the gated outputs is open (R373); in SIMPLEX always (R487). -/
def State.gateOpen (s : State) : Bool := s.role == 0 || s.bit A.PLY_STAT 25

/-- The device is in Watchman mode (R452). -/
def State.inWatchman (s : State) : Bool := s.fld A.PWR_DOMAIN_STAT F.PWR_DOMAIN_STAT_WATCHMAN == 1

/-- A step of the domains that Watchman mode gates off, or of a device without supply, does nothing there (R452). -/
def State.awake (s : State) (f : State → State) : State := if s.inWatchman || !s.pwr.on then s else f s

/-- A cluster is ACTIVE again: from a gated state, counted, or from the entry into one (R15, R17). -/
def State.wakeNow (s : State) (c : Nat) : State :=
  let s1 : State := { s with pwr := { s.pwr with gates := tabPut none s.pwr.gates c none } }
  match s1.fld (A.PWR_CLUSTER c) F.PWR_CLUSTER_STATE with
  | 1 => (s1.setFld (A.PWR_CLUSTER c) F.PWR_CLUSTER_STATE 0).setReg (A.PWR_CGWAKE c) (s1.reg (A.PWR_CGWAKE c) + 1)
  | 2 => (s1.setFld (A.PWR_CLUSTER c) F.PWR_CLUSTER_STATE 0).setReg (A.PWR_PGWAKE c) (s1.reg (A.PWR_PGWAKE c) + 1)
  | _ => s1

/-- A cluster's entry into POWER_GATED has begun state retention and completes before anything runs there (R17). -/
def State.gateHolds (s : State) (c : Nat) : Bool :=
  match tabGet none s.pwr.gates c with
  | some g => g.target != 1 && Nat.ble (g.at_ + 500) s.tim.up
  | none => false

/-- A wake event of a cluster (R15, R17): it wakes, turns back from its entry into a gated state, or wakes once that entry is done. -/
def State.wakeFor (s : State) (c : Nat) : State :=
  if s.gateHolds c then
    { s with pwr := { s.pwr with gates := tabMod none s.pwr.gates c (fun g => g.map (fun g => { g with wake := true })) } }
  else s.wakeNow c

/-- GOUT drive bits and AOUT output stages follow gating (R373, R487); no GOUT is driven before placement completes (R514). -/
def State.gateGout (s : State) : State :=
  let gated := s.fld A.LIO_GOUT_CFG F.LIO_GOUT_CFG_GATED
  let off := !s.pwr.placed
  let drv := (List.range 8).foldl (fun a g => a + (if off || (gated.testBit g && !s.gateOpen) then 0 else 2 ^ g)) 0
  (s.setFld A.LIO_GOUT F.LIO_GOUT_DRIVEN drv).forEach [0, 1, 2, 3] (fun k s => s.setBit (A.LIO_AOUT k) 31 (s.gateOpen && !off))

/-- Set a GOUT's commanded level. -/
def State.setGout (s : State) (g : Nat) (b : Bool) : State := (s.setBit A.LIO_GOUT g b).gateGout

/-! ### Event task releases (R250) -/

/-- A Heddle by number. -/
def State.heddle (s : State) (h : Nat) : HeddleSt := tabGet heddleInit s.hdl.heddles h

/-- Replace a Heddle. -/
def State.setHeddle (s : State) (h : Nat) (x : HeddleSt) : State :=
  { s with hdl := { s.hdl with heddles := tabPut heddleInit s.hdl.heddles h x } }

/-- HDL_STAT.MODE: 0 RUN, 1 STOP, 2 HOLD, 3 not started. -/
def State.logicMode (s : State) : Nat := s.fld A.HDL_STAT F.HDL_STAT_MODE

/-- Count a skipped or merged release (R249, R250). -/
def State.countSkip (s : State) (h t : Nat) : State :=
  s.incSat (A.HDL_TCNT h t) F.HDL_TCNT_SKIPS Ev.HDL_CNT_SAT noIndex

/-- A release enters the Heddle's ring Q48–Q51, whose 16 places it finds full only to be skipped and counted (R18, R249), and wakes its
cluster (R15). -/
def State.postRelease (s : State) (h : Nat) (r : Rel) : State :=
  let x := s.heddle h
  if 16 ≤ x.rels.length then (s.countSkip h r.task).raise Ev.HDL_OVERRUN (32 * h + r.task)
  else (s.setHeddle h { x with rels := x.rels ++ [r] }).wakeFor 2

/-- A release of event task `t` (task set number 16–31) of Heddle `h`: pending, or merged with a pending one. In HOLD it is skipped
and counted as under R249 (R260); outside RUN there are no executions (R259). -/
def State.releaseEvent (s : State) (h t : Nat) : State :=
  if !(s.bit (A.HDL_TCFG h t) 31 && s.bit (A.HDL_TCFG h t) 30) then s
  else if s.logicMode = 2 then (s.countSkip h t).raise Ev.HDL_OVERRUN (32 * h + t)
  else if s.logicMode ≠ 0 then s
  else
    if (s.heddle h).rels.any (fun r => r.task == t) then (s.countSkip h t).raise Ev.HDL_EVT_MERGED (32 * h + t)
    else s.postRelease h { task := t, at_ := s.tim.now }

/-- Event tasks whose declared source (SRC, INDEX) of R267 is this one. -/
def State.eventTasks (s : State) (src : Nat) (index : Option Nat) : List (Nat × Nat) :=
  (List.range 4).flatMap (fun h => ((List.range 16).map (fun t => (h, 16 + t))).filter (fun p =>
    s.bit (A.HDL_TCFG p.1 p.2) 31 && s.bit (A.HDL_TCFG p.1 p.2) 30 && s.fld (A.HDL_TPHS p.1 p.2) ⟨31, 28⟩ == src &&
      (match index with
       | some i => s.fld (A.HDL_TPHS p.1 p.2) ⟨15, 0⟩ == i
       | none => true)))

/-- Release every event task with this source. -/
def State.releaseBySource (s : State) (src : Nat) (index : Option Nat) : State :=
  s.forEach (s.eventTasks src index) (fun p s => s.releaseEvent p.1 p.2)

/-! ### Block sources (R134, R135, R152) -/

/-- Logic sources stand at 0 or their hold default outside RUN (R135, R143). -/
def State.logicHeld (s : State) : Bool := s.logicMode != 0

/-- The present Q image bit. -/
def State.qBit (s : State) (b : Nat) : Bool := (s.octet (qBase + b / 8)).getLsbD (b % 8)

/-- The live I bit. -/
def State.iBit (s : State) (b : Nat) : Bool := (s.octet (iBase + b / 8)).getLsbD (b % 8)

/-- GOOSE subscription `n` is valid (R340). -/
def State.gooseValid (s : State) (n : Nat) : Bool := s.iBit (8 * 0x100 + n)

/-- A GOOSE input bit whose subscription is lost. -/
def State.gooseBitLost (s : State) (b : Nat) : Bool :=
  match s.cfg.image with
  | none => true
  | some i => i.gooseSub.any (fun x => !s.gooseValid x.s && x.maps.any (fun m => m.type == 0 && m.target == b))

/-- ARC (type 0x0E, R154). -/
def State.isArc (s : State) (x : Nat) : Bool := s.fld (A.PRT_EI_CFG x) F.PRT_EI_CFG_TYPE == 0x0E

/-- Operate of instance `x` as a matrix source: in Watchman mode element sources read 0, but ARC continues (R452). -/
def State.elemOp (s : State) (x : Nat) : Bool := tabGet false s.trip.liveOp x && (!s.inWatchman || s.isArc x)

/-- The value of a block source of R152 (kinds 7–9 are the digital channels' of R205). -/
def State.sourceVal (s : State) (src : Nat) : Bool :=
  let i := src % 4096
  match src / 4096 with
  | 1 => s.qBit i
  | 2 => if i % 2 = 1 then s.bit (A.PRT_EI_STATE (i / 2)) 31 else s.bit (A.PRT_EI_STATE (i / 2)) 30
  | 3 => s.bit A.LIO_BIN_STATE i
  | 4 => s.iBit (8 * 0x2000 + i)
  | 5 => s.bit A.PRT_WM_STATE (24 + i)
  | 6 => s.bit A.PRT_LIGHT i
  | 7 => s.bit A.PRT_TCH_STATE i
  | 8 => s.bit A.LIO_TOUT i
  | 9 => s.bit A.LIO_TOUT (16 + i)
  | _ => false

/-- The source's supplier is not supplying it, so a block input takes its hold default (R135). -/
def State.sourceHeld (s : State) (src : Nat) : Bool :=
  let i := src % 4096
  match src / 4096 with
  | 1 => s.logicHeld || (s.qWriters i).any (fun h => !s.bit A.HDL_STAT h)
  | 4 => s.gooseBitLost i
  | _ => false

/-- The source code of block input `j` of instance `x`. -/
def State.blockSrc (s : State) (x j : Nat) : Nat :=
  let w := if j < 2 then s.reg (A.PRT_EI_BLK01 x) else s.reg (A.PRT_EI_BLK23 x)
  w.toNat / (if j % 2 = 0 then 1 else 65536) % 65536

/-- Block input `j` of instance `x`: its value and whether it stands at its hold default. -/
def State.blockInput (s : State) (x j : Nat) : Bool × Bool :=
  let src := s.blockSrc x j
  if s.sourceHeld src then (s.bit (A.PRT_EI_CFG x) (8 + j), true) else (s.sourceVal src, false)

/-- CLP instance `c` names `x` among its targets (R169). -/
def State.clpNames (s : State) (c x : Nat) : Bool :=
  (List.range 8).any (fun i =>
    let h := (s.reg (A.PRT_EX c (4 + i / 2))).toNat / (if i % 2 = 0 then 1 else 65536) % 65536
    h.testBit 15 && h % 512 == x)

/-- CLP instances that operate and name `x`. One of the same bay with a lower number has its result of this frame, every other one that of
its previous frame (R169). -/
def State.clpActs (s : State) (x : Nat) : List Nat :=
  (List.range 512).filter (fun c =>
    s.bit (A.PRT_EI_STATE c) 31 && s.fld (A.PRT_EI_CFG c) F.PRT_EI_CFG_TYPE == 0x0F && s.clpNames c x)

/-- Some operating CLP has MULT = 0 and so blocks the target. -/
def State.clpBlocks (s : State) (x : Nat) : Bool := (s.clpActs x).any (fun c => decide (fpVal (s.reg (A.PRT_EX c 2)) = 0))

/-- Instance `x` is blocked, by a block input (R134) or by a CLP (R169). -/
def State.blocked (s : State) (x : Nat) : Bool := (List.range 4).any (fun j => (s.blockInput x j).1) || s.clpBlocks x

/-! ### Channels (R138–R143) -/

/-- A Watchman output. -/
def State.wout (s : State) (j : Nat) : Bool := s.bit A.PRT_WM_STATE (24 + j)

/-- The word of a channel's source mask that is set against these sources. -/
def maskHits (m : Word) (f : Nat → Bool) : Bool :=
  m != 0 && (List.range 32).any (fun i => bitGet m i && f i)

/-- Some source of channel `c` is 1. Before the image's channels are in force, Cj takes only Wj (R146, R521). -/
def State.channelSource (s : State) (c : Nat) : Bool :=
  if s.fld A.PRT_STAT F.PRT_STAT_WM_SRC = 2 then
    (List.range 16).any (fun w => maskHits (s.reg (A.PRT_TCH_SRC c w)) (fun i => s.elemOp (32 * w + i))) ||
    maskHits (s.reg (A.PRT_TCH_SRC c 16)) (fun i => if i < 4 then s.wout i else if i < 8 then s.bit A.PRT_LIGHT (i - 4) else false) ||
    (!s.inWatchman && maskHits (s.reg (A.PRT_TCH_SRC c 17)) (fun r => s.bit A.PRT_LTRQ r))
  else Nat.blt c 4 && s.wout c

/-- Channel `c` is latched by its configuration; before ACQ_REEL_SWITCH only a carried latch counts (R146, R521). -/
def State.channelLatched (s : State) (c : Nat) : Bool :=
  if s.fld A.PRT_STAT F.PRT_STAT_WM_SRC = 2 then s.bit (A.PRT_TCH_CFG c) 31 else s.trip.carriedLatch.contains c

/-- Minimum pulse of channel `c` in ns: MINPULSE, or 150 ms under the OTP defaults (R146). -/
def State.minPulse (s : State) (c : Nat) : Nat :=
  (if s.fld A.PRT_STAT F.PRT_STAT_WM_SRC = 2 then s.fld (A.PRT_TCH_CFG c) F.PRT_TCH_CFG_MINPULSE else 150) * 1000000

/-- The TRIP_OUT masks in force for a channel: those at the reset while it is carried (R521). -/
def State.toutMask (s : State) (c p : Nat) : Word :=
  if s.trip.carried.contains c then tabGet 0 s.trip.carriedTout p else s.reg (A.PRT_TOUT p)

/-- TRIP_OUT[p] is driven: some asserted channel of its mask; a QUARANTINED ply drives only minimum pulses in progress (R370). -/
def State.pinDriven (s : State) (p : Nat) : Bool :=
  (List.range 32).any (fun c =>
    s.bit A.PRT_TCH_STATE c && (s.role != 4 || s.bit A.PRT_TCH_PULSE c) && bitGet (s.toutMask c p) c)

/-- Recompute the TRIP_OUT pins (R141). -/
def State.drivePins (s : State) : State :=
  let out := (List.range 16).foldl (fun a p => a + (if s.pinDriven p then 2 ^ p else 0)) 0
  let off := (List.range 16).foldl
    (fun t p => if s.bit A.LIO_TOUT p && !out.testBit p then tabPut 0 t p (s.tim.up + 1) else t) s.trip.pinOff
  { s with trip := { s.trip with pinOff := off } }.setFld A.LIO_TOUT F.LIO_TOUT_OUT out

/-- Channel `c` releases. -/
def State.channelRelease (s : State) (c : Nat) : State :=
  let s1 := { s with trip := { s.trip with resetDue := s.trip.resetDue.filter (· != c),
                                           carried := s.trip.carried.filter (· != c),
                                           carriedLatch := s.trip.carriedLatch.filter (· != c) } }
  ((s1.setBit A.PRT_TCH_STATE c false).setBit A.PRT_TCH_LATCHED c false).raise Ev.PRT_TRIP_END c

/-- A channel of CFL.CHMASK asserts within 200 ms of the first arrival of its bay's latest burst: the burst is to be located
(R197). -/
def State.cflTrigger (s : State) (c : Nat) : State :=
  let xs := (List.range 512).filter (fun x => s.fld (A.PRT_EI_CFG x) F.PRT_EI_CFG_TYPE == 0x20 && s.bit (A.PRT_EI_CFG x) 31 &&
    bitGet (s.reg (A.PRT_EX x 5)) c)
  s.forEach xs (fun x s =>
    match (tabGet bayProtInit s.prot.bays (s.fld (A.PRT_EI_CFG x) F.PRT_EI_CFG_BAY)).burst with
    | a :: _ =>
      let w := tabGet waveInstInit s.prot.wave x
      if a.t + 200000000 < s.tim.now ∨ w.ta = some a.t then s
      else { s with prot := { s.prot with wave := tabPut waveInstInit s.prot.wave x { w with locate := some a.t, far := false } } }
    | [] => s)

/-- An interruption measurement opens with the channel's assertion, unless one is open (R394). -/
def State.interruptOpen (s : State) (c : Nat) : State :=
  if (tabGet none s.alm.interrupt c).isSome then s
  else { s with alm := { s.alm with interrupt := tabPut none s.alm.interrupt c (some { since := s.tim.up, peak := 0, i2t := 0 }) } }

/-- Channel `c` asserts: minimum pulse, count, event, and the release of tasks that take its assertion (R139, R247). -/
def State.channelAssert (s : State) (c : Nat) : State :=
  let s1 := (s.setBit A.PRT_TCH_STATE c true).setBit A.PRT_TCH_PULSE c true
  let s2 := { s1 with trip := { s1.trip with pulseEnd := tabPut 0 s1.trip.pulseEnd c (s1.tim.up + s1.minPulse c)
                                             assertAt := tabPut 0 s1.trip.assertAt c s1.tim.now } }
  let s3 := (s2.incSat (A.PRT_TCH_CNT c) ⟨15, 0⟩ Ev.PRT_CNT_SAT (512 + c)).raise Ev.PRT_TRIP c
  let s4 : State := { s3 with hdl := { s3.hdl with
    evReq := s3.hdl.evReq ++ (s3.eventTasks 4 (some c)).map (fun p => 32 * p.1 + p.2) } }
  (s4.interruptOpen c).cflTrigger c

/-- Channel `c` against its sources as they stand (R139). -/
def State.channelEval (s : State) (c : Nat) : State :=
  let src := s.channelSource c
  if !s.bit A.PRT_TCH_STATE c then (if src then s.channelAssert c else s)
  else if s.bit A.PRT_TCH_PULSE c then s
  else if s.channelLatched c then
    if src then s.setBit A.PRT_TCH_LATCHED c false
    else if s.bit A.PRT_TCH_LATCHED c then s
    else (s.setBit A.PRT_TCH_LATCHED c true).raise Ev.PRT_LATCH c
  else if src then s else s.channelRelease c

/-- The matrix follows its sources, the pins follow the channels, and each change is shipped to the peer (R376). -/
def State.tripEval (s : State) : State :=
  let s1 := (s.forEach (List.range 32) (fun c s => s.channelEval c)).drivePins
  if s1.reg A.PRT_TCH_STATE = s.reg A.PRT_TCH_STATE then s1 else s1.plySend (.tripState (s1.reg A.PRT_TCH_STATE))

/-- A reset of channel `c` by a source with the enable bit `en` of PRT_TCH_CFG (R140). Not before ACQ_REEL_SWITCH (R521). The
Bool tells a refusal. -/
def State.channelReset (s : State) (c : Nat) : Bool × State :=
  if !(s.bit A.PRT_TCH_STATE c && s.channelLatched c) || s.fld A.PRT_STAT F.PRT_STAT_WM_SRC ≠ 2 then (false, s)
  else if s.channelSource c then (true, s.raise Ev.PRT_RST_REFUSED c)
  else if s.bit A.PRT_TCH_PULSE c then
    (false, { s with trip := { s.trip with resetDue := s.trip.resetDue.filter (· != c) ++ [c] } })
  else (false, (s.channelRelease c).drivePins)

/-! ### The arc-flash path (R168) -/

/-- Light check of ARC instance `x`: a LIGHT input of ARC.LIGHTS is on, or its extension runs. -/
def State.arcLight (s : State) (x : Nat) : Bool :=
  (List.range 4).any (fun i => s.bit (A.PRT_EX x 0) i && s.bit A.PRT_LIGHT i) ||
    (tabGet none s.trip.arcLightEnd x).isSome

/-- The lanes of the bay's Watchman feed that ARC sees all carry VALID and not TEST. -/
def State.arcAvail (s : State) (bay : Nat) : Bool :=
  [0, 1, 2].all (fun p =>
    let e := tabGet (0, 0) s.trip.wmLast (3 * bay + p)
    flagGet e.2 7 && !flagGet e.2 3)

/-- Some comparator of ARC instance `x` has 3 consecutive samples at or above ITHR. -/
def State.arcOver (s : State) (x : Nat) : Bool := [0, 1, 2].any (fun p => Nat.ble 3 (tabGet 0 s.trip.arcCount (3 * x + p)))

/-- Current check of ARC instance `x` with its extension. -/
def State.arcCurrent (s : State) (x : Nat) : Bool := s.arcOver x || (tabGet none s.trip.arcCurEnd x).isSome

/-- ARC instance `x` operates: both extended checks, or the light check alone where the current check is unavailable and FALLBACK
is 1; block inputs by their present values. -/
def State.arcOperate (s : State) (x : Nat) : Bool :=
  let bay := s.fld (A.PRT_EI_CFG x) F.PRT_EI_CFG_BAY
  s.bit (A.PRT_EI_CFG x) 31 && !s.blocked x &&
    (if s.arcAvail bay then s.arcLight x && s.arcCurrent x else s.bit (A.PRT_EX x 0) 4 && s.arcLight x)

/-- Declared ARC instances, once the image's Watchman settings are in force. -/
def State.arcs (s : State) : List Nat :=
  if s.fld A.PRT_STAT F.PRT_STAT_WM_SRC = 2 then (List.range 512).filter (fun x => s.bit (A.PRT_EI_CFG x) 31 && s.isArc x) else []

/-- Write an operate level into the matrix; a rise is an operate to count. -/
def State.setLiveOp (s : State) (x : Nat) (b : Bool) : State :=
  let rise := b && !tabGet false s.trip.liveOp x
  { s with trip := { s.trip with
      liveOp := tabPut false s.trip.liveOp x b
      opEdges := if rise then tabMod 0 s.trip.opEdges x (· + 1) else s.trip.opEdges } }

/-- ARC outputs and the matrix follow the checks. -/
def State.arcEval (s : State) : State :=
  (s.forEach s.arcs (fun x s => s.setLiveOp x (s.arcOperate x))).tripEval

/-- The span of ARC.HOLD in ns. -/
def State.arcHold (s : State) (x : Nat) : Nat := s.fld (A.PRT_EX x 0) ⟨12, 8⟩ * 1000000

/-! ### LIGHT (R144, R513) -/

/-- LIGHT_ASSERT: the comparator's output stands as a matrix source and as ARC's light check. -/
def doLightAssert (i : Fin 4) (s : State) : State :=
  if s.bit A.PRT_LIGHT i then s
  else
    let s1 := (s.setBit A.PRT_LIGHT i true).raise Ev.PRT_LIGHT i
    let arcs := s1.arcs.filter (fun x => s1.bit (A.PRT_EX x 0) i)
    { s1 with trip := { s1.trip with arcLightEnd := arcs.foldl (fun t x => tabPut none t x none) s1.trip.arcLightEnd } }.arcEval

/-- LIGHT_RELEASE: the source falls; each light check goes on for ARC.HOLD. -/
def doLightRelease (i : Fin 4) (s : State) : State :=
  if !s.bit A.PRT_LIGHT i then s
  else
    let s1 := s.setBit A.PRT_LIGHT i false
    let arcs := s1.arcs.filter (fun x => s1.bit (A.PRT_EX x 0) i && s1.arcHold x != 0 &&
      !(List.range 4).any (fun j => s1.bit (A.PRT_EX x 0) j && s1.bit A.PRT_LIGHT j))
    { s1 with trip := { s1.trip with
        arcLightEnd := arcs.foldl (fun t x => tabPut none t x (some (s1.tim.up + s1.arcHold x))) s1.trip.arcLightEnd } }.arcEval

/-- ARC_HOLD_EXPIRE: the extension of the named check ends when its time has come. -/
def doArcHoldExpire (x : Fin 512) (light : Bool) (s : State) : State :=
  let e := if light then tabGet none s.trip.arcLightEnd x else tabGet none s.trip.arcCurEnd x
  match e with
  | none => s
  | some t =>
    if s.tim.up < t then s
    else if light then { s with trip := { s.trip with arcLightEnd := tabPut none s.trip.arcLightEnd x none } }.arcEval
    else { s with trip := { s.trip with arcCurEnd := tabPut none s.trip.arcCurEnd x none } }.arcEval

/-! ### The Watchman feed (R145, R146) -/

/-- Recompute a bay's outputs: Wj is the OR of its bays, and each assertion raises PRT_WM_OP. -/
def State.wmOutputs (s : State) : State :=
  (s.forEach (List.range 4) (fun j s =>
    let bays := s.fld (A.PRT_WM_MAP j) ⟨7, 0⟩
    let on := (List.range 8).any (fun b => bays.testBit b && [0, 1, 2].any (fun p => s.bit A.PRT_WM_STATE (3 * b + p)))
    let s1 := s.setBit A.PRT_WM_STATE (24 + j) on
    if on && !s.wout j then s1.raise Ev.PRT_WM_OP j else s1)).arcEval

/-- ARC counts of one feed sample: consecutive samples at or above ITHR × 128; a sample without VALID or with TEST restarts. -/
def State.arcSample (s : State) (phase x : Nat) (f : SampleFlags) (inst : Nat) : State :=
  let ok := flagGet f 7 && !flagGet f 3
  let hit := flagGet f 5 || Nat.ble (s.fld (A.PRT_EX inst 1) ⟨15, 0⟩ * 128) x
  let was := s.arcOver inst
  let n := if ok && hit then tabGet 0 s.trip.arcCount (3 * inst + phase) + 1 else 0
  let s1 := { s with trip := { s.trip with arcCount := tabPut 0 s.trip.arcCount (3 * inst + phase) (min n 3) } }
  if s1.arcOver inst then { s1 with trip := { s1.trip with arcCurEnd := tabPut none s1.trip.arcCurEnd inst none } }
  else if was && s1.arcHold inst != 0 then
    { s1 with trip := { s1.trip with arcCurEnd := tabPut none s1.trip.arcCurEnd inst (some (s1.tim.up + s1.arcHold inst)) } }
  else s1

/-- The comparator of a bay's phase takes a sample |x| with its lane flags. -/
def State.feedSample (bay : Fin 8) (phase : Fin 3) (x : Nat) (f : SampleFlags) (s : State) : State :=
  let k := 3 * bay.val + phase.val
  let thr := s.fld (A.PRT_WM_THR bay) ⟨15, 0⟩ * 128
  let ok := flagGet f 7 && !flagGet f 3
  let clip := flagGet f 5
  let hit := ok && thr != 0 && (clip || Nat.ble thr x)
  let low := !clip && Nat.blt (10 * x) (9 * thr)
  let was := tabGet 0 s.trip.wmLow k
  let n := if hit then min (tabGet 0 s.trip.wmCount k + 1) 3 else 0
  let l := if flagGet f 3 then was else if thr != 0 && low then min (was + 1) 7680 else 0
  let s1 := { s with trip := { s.trip with
    wmCount := tabPut 0 s.trip.wmCount k n
    wmLow := tabPut 0 s.trip.wmLow k l
    wmLast := tabPut (0, 0) s.trip.wmLast k (x, f) } }
  let s2 := if Nat.ble 3 n then s1.setBit A.PRT_WM_STATE k true else s1
  let s3 := s2.forEach (s2.arcs.filter (fun i => s2.fld (A.PRT_EI_CFG i) F.PRT_EI_CFG_BAY == bay.val))
    (fun i s => s.arcSample phase x f i)
  s3.wmOutputs

/-- The overlay changes of a bay's ARC instances apply at its feed sample; a change of EN or ITHR restarts the counts (R168). -/
def State.arcTake (s : State) (b : Nat) : State :=
  let mine := s.cfg.arcDue.filter (fun e => s.fld (A.PRT_EI_CFG e.1) F.PRT_EI_CFG_BAY == b)
  if mine.isEmpty then s
  else
    let s1 : State := { s with cfg := { s.cfg with arcDue := s.cfg.arcDue.filter (fun e => s.fld (A.PRT_EI_CFG e.1) F.PRT_EI_CFG_BAY != b) } }
    let s2 := s1.forEach mine (fun e s => s.setReg e.2.1 e.2.2)
    let xs := (mine.map (fun e => e.1)).eraseDups
    let fresh := xs.filter (fun x => s.bit (A.PRT_EI_CFG x) 31 != s2.bit (A.PRT_EI_CFG x) 31 ||
      s.fld (A.PRT_EX x 1) ⟨15, 0⟩ != s2.fld (A.PRT_EX x 1) ⟨15, 0⟩)
    let s3 : State := { s2 with trip := { s2.trip with
      arcCount := fresh.foldl (fun t x => tabPut 0 (tabPut 0 (tabPut 0 t (3 * x) 0) (3 * x + 1) 0) (3 * x + 2) 0) s2.trip.arcCount } }
    let s4 := s3.forEach xs (fun x s => if s.bit (A.PRT_EI_CFG x) 31 then s else s.setLiveOp x false)
    s4.raise Ev.PRT_SETTING (s4.fld A.CFG_OVL F.CFG_OVL_INFORCE)

/-- WATCHMAN_DROP: with all three lanes below 0.9 of the threshold for 7,680 samples, the bay's comparators drop (R145). -/
def doWatchmanDrop (bay : Fin 8) (s : State) : State :=
  if [0, 1, 2].all (fun p => tabGet 0 s.trip.wmLow (3 * bay.val + p) == 7680) then
    (s.forEach [0, 1, 2] (fun p s => s.setBit A.PRT_WM_STATE (3 * bay.val + p) false)).wmOutputs
  else s

/-! ### Pulses and feedback -/

/-- TRIP_PULSE_END: a channel's minimum pulse runs out; it releases, stays latched, or takes a deferred reset (R139, R140). -/
def doTripPulseEnd (ch : Fin 32) (s : State) : State :=
  let c := ch.val
  if !s.bit A.PRT_TCH_PULSE c || s.tim.up < tabGet 0 s.trip.pulseEnd c then s
  else
    let s1 := s.setBit A.PRT_TCH_PULSE c false
    let s2 := { s1 with trip := { s1.trip with pulseEnd := tabPut 0 s1.trip.pulseEnd c 0 } }
    if s2.trip.resetDue.contains c && !s2.channelSource c then (s2.channelRelease c).tripEval
    else { s2 with trip := { s2.trip with resetDue := s2.trip.resetDue.filter (· != c) } }.tripEval

/-- TRIP_FB_CHANGE: a TRIP_FB input's level after its 1 ms debounce (R486). -/
def doTripFbChange (p : Fin 16) (level : Bool) (s : State) : State := s.setBit A.LIO_TOUT (16 + p.val) level

/-! ### Steps as executed -/

def execLightAssert (i : Fin 4) (s : State) : Host.Outcome State Fault Refusal := .next (doLightAssert i s)
def execLightRelease (i : Fin 4) (s : State) : Host.Outcome State Fault Refusal := .next (doLightRelease i s)
def execArcHoldExpire (x : Fin 512) (light : Bool) (s : State) : Host.Outcome State Fault Refusal :=
  .next (doArcHoldExpire x light s)
def execWatchmanDrop (bay : Fin 8) (s : State) : Host.Outcome State Fault Refusal := .next (doWatchmanDrop bay s)
def execTripPulseEnd (ch : Fin 32) (s : State) : Host.Outcome State Fault Refusal := .next (doTripPulseEnd ch s)
def execTripFbChange (p : Fin 16) (level : Bool) (s : State) : Host.Outcome State Fault Refusal := .next (doTripFbChange p level s)

end Sys2Proof.Machine
end

