-- ==== Sys2Proof/Machine/Lanes.lean ====
section
/-! DEFINITION. Slots and Reel cycles (R7, R8), the Reel in force (R38–R43), lanes and their conversion instants (R36, R37, R41), and
the min-max trackers (R59, R60, R62). -/

namespace Sys2Proof.Machine

/-! ### Slots on the sample clock (R7, R8, assumption 49) -/

/-- Start of slot `k`, counted from device time 0 on the sample clock, in ns. -/
def slotStart (k : Rat) : Rat := k * 1000000000 / 9830400

/-- The slot in progress. -/
def State.slotNow (s : State) : Nat := s.tim.smp * 9830400 / 1000000000

/-- Slot `k` has begun. -/
def State.slotBegun (s : State) (k : Nat) : Bool := Nat.ble k s.slotNow

/-- Cycle length L in slots. -/
def State.cycleL (s : State) : Nat := s.fld A.ACQ_STAT F.ACQ_STAT_L

/-- A Reel cycle begins now, to the tick. -/
def State.onCycle (s : State) : Bool :=
  decide ((s.tim.smp : Rat) < slotStart (s.slotNow / s.cycleL * s.cycleL : Nat) + 2)

/-- The sample-clock cycle of a time on the sample clock. -/
def clockCycle (t : Nat) : Nat := t * 157286400 / 1000000000

/-- An instant on the sample clock as device time. -/
def State.devTime (s : State) (t : Rat) : Nat :=
  ((t + 1 / 2).floor + ((s.tim.now : Int) - (s.tim.smp : Int))).toNat

/-- A device time as an instant on the sample clock. -/
def State.smpTime (s : State) (t : Nat) : Int := (t : Int) - (s.tim.now : Int) + (s.tim.smp : Int)

/-! ### Entries -/

/-- Slots an entry converts in: REPEAT + 1. -/
def entryRep (w : Word) : Nat := w.toNat / 2 ^ 11 % 64 + 1

/-- Slots an entry covers with its delay. -/
def entrySlots (w : Word) : Nat := entryRep w + w.toNat % 256

/-- The entry whose conversion or open slots cover a slot of the cycle. -/
def reelAt : List Word → Nat → Option Word
  | [], _ => none
  | w :: l, i => if i < entryRep w then some w else if i < entrySlots w then none else reelAt l (i - entrySlots w)

/-- An entry converts the given mux position at the given gain. -/
def entryIs (mux gain : Nat) (w : Word) : Bool :=
  w.toNat / 2 ^ 28 % 8 == 0 && w.toNat / 2 ^ 17 % 128 == mux && w.toNat / 2 ^ 24 % 4 == gain

/-- First slot and repeat count of the entry that converts a position at a gain, the first entry beginning at slot `i`. -/
def reelFind (mux gain : Nat) : List Word → Nat → Option (Nat × Nat)
  | [], _ => none
  | w :: l, i => if entryIs mux gain w then some (i, entryRep w) else reelFind mux gain l (i + entrySlots w)

/-- The slot of a Reel's cross-check entry. -/
def reelXck : List Word → Nat → Option Nat
  | [], _ => none
  | w :: l, i => if bitGet w 29 then some i else reelXck l (i + entrySlots w)

/-- The entries of slice `k`'s Reel. -/
def State.reel (s : State) (k : Nat) : List Word :=
  (List.range (s.fld (A.ACQ_SLICE k) F.ACQ_SLICE_ENTRIES)).map (fun e => s.reg (A.ACQ_REEL k e))

/-- The S16 mux position of position `p` of slice Sk (R32). -/
def s16Pos (k p : Nat) : Nat := if p < 6 then 6 * k + p else if p = 6 then 6 * ((k + 1) % 16) else p + 97

/-! ### Lane fields -/

def State.laneSlice (s : State) (x : Nat) : Nat := s.fld (A.ACQ_LANE x) F.ACQ_LANE_SLICE
def State.laneMux (s : State) (x : Nat) : Nat := s.fld (A.ACQ_LANE x) F.ACQ_LANE_MUX
def State.laneGain (s : State) (x : Nat) : Nat := s.fld (A.ACQ_LANE x) F.ACQ_LANE_GAIN
def State.laneN (s : State) (x : Nat) : Nat := s.fld (A.ACQ_LANE x) F.ACQ_LANE_RATE_N
def State.laneBay (s : State) (x : Nat) : Nat := s.fld (A.ACQ_LANE x) F.ACQ_LANE_BAY
def State.laneOn (s : State) (x : Nat) : Bool := s.bit (A.ACQ_LANE x) 31
/-- A lane is declared when its rate is 3–10 (R519). -/
def State.laneDeclared (s : State) (x : Nat) : Bool := Nat.ble 3 (s.laneN x)
/-- The lane converts an AUX input. -/
def State.laneAux (s : State) (x : Nat) : Bool := s.laneSlice x == 16 && Nat.ble 96 (s.laneMux x)
/-- Straight binary: an AUX lane without SIGNED (R35). -/
def State.laneStraight (s : State) (x : Nat) : Bool := s.laneAux x && !s.bit (A.ACQ_LANE x) 29
/-- The AIN input a slice position converts (R31, R32), if it is one. -/
def ainOf (slice mux : Nat) : Option Nat :=
  if slice < 16 then
    (if mux < 6 then some (6 * slice + mux) else if mux = 6 then some (6 * ((slice + 1) % 16)) else none)
  else if mux < 96 then some mux else none
def State.laneAin (s : State) (x : Nat) : Option Nat := ainOf (s.laneSlice x) (s.laneMux x)
/-- Declared lanes on an input. -/
def State.lanesOn (s : State) (pin : Nat) : List Nat :=
  (List.range 128).filter (fun x => s.laneDeclared x && s.laneAin x == some pin)

/-- The lane number of a slice, position and gain. -/
def State.laneAt (s : State) (slice mux gain : Nat) : Option Nat :=
  (List.range 128).find? (fun x =>
    s.laneDeclared x && s.laneSlice x == slice && s.laneMux x == mux && s.laneGain x == gain)

/-- The Watchman comparator 3 × bay + phase that a lane feeds: ×1 at n = 3 on position 0–2 of an even slice (R111). -/
def State.laneFeed (s : State) (x : Nat) : Option Nat :=
  if s.laneDeclared x && Nat.blt (s.laneSlice x) 16 && s.laneSlice x % 2 == 0 && Nat.ble (s.laneMux x) 2 && s.laneGain x == 0 && s.laneN x == 3
  then some (3 * (s.laneSlice x / 2) + s.laneMux x) else none

/-! ### Conversions of a lane (R36, R37, R41) -/

/-- First slot and repeat count of a lane's entries in the Reel in force. -/
def State.laneSlot (s : State) (x : Nat) : Option (Nat × Nat) := reelFind (s.laneMux x) (s.laneGain x) (s.reel (s.laneSlice x)) 0

/-- First slot of conversion `k` of a lane. -/
def State.laneFirst (s : State) (x k : Nat) : Nat := ((s.laneSlot x).getD (0, 1)).1 % 2 ^ s.laneN x + k * 2 ^ s.laneN x

/-- Repeat count of a lane. -/
def State.laneRep (s : State) (x : Nat) : Nat := ((s.laneSlot x).getD (0, 1)).2

/-- Sampling instant of sample `k` of a lane, on the sample clock: 2 sample-clock cycles into the slot, the mean over the repeats. -/
def State.laneInstant (s : State) (x k : Nat) : Rat :=
  slotStart ((s.laneFirst x k : Rat) + ((s.laneRep x : Rat) - 1) / 2 + 1 / 8)

/-- The newest sample of a lane whose value is available: 4 slots after the end of its last slot. -/
def State.laneNewest (s : State) (x : Nat) : Option Nat :=
  match s.laneSlot x with
  | none => none
  | some p =>
    let a := p.1 % 2 ^ s.laneN x + p.2 + 4
    if s.slotNow < a then none else some ((s.slotNow - a) / 2 ^ s.laneN x)

/-- A lane beyond its registers. -/
def State.lane (s : State) (x : Nat) : LaneSt := tabGet laneInit s.acq.lanes x

def State.setLane (s : State) (x : Nat) (l : LaneSt) : State :=
  { s with acq := { s.acq with lanes := tabPut laneInit s.acq.lanes x l } }

/-! ### Trackers (R59, R60, R62) -/

/-- A value and flags as the lane's registers show them. -/
def State.alignValue (s : State) (x : Nat) (v : Int) (f : SampleFlags) : Word :=
  if s.bit (A.ACQ_LANE x) 30 then BitVec.ofInt 32 v
  else BitVec.ofNat 32 ((BitVec.ofInt 24 v).toNat * 256 + f.toNat)

/-- The value in a tracker register. -/
def State.trkValue (s : State) (x : Nat) (w : Word) : Int :=
  if s.bit (A.ACQ_LANE x) 30 then (if s.laneStraight x then (w.toNat : Int) else w.toInt)
  else
    let n := w.toNat / 256
    if s.laneStraight x then (n : Int) else signExt 24 n

/-- A sample at a device time against the extremes: a later equal does not replace. -/
def State.trackSample (s : State) (x : Nat) (v : Int) (f : SampleFlags) (t : Nat) : State :=
  let empty := s.bit (A.ACQ_TRK_STAT x) 29
  let w := s.alignValue x v f
  let s1 := if empty || decide (v < s.trkValue x (s.reg (A.ACQ_TRK_MIN x))) then
      ((s.setReg (A.ACQ_TRK_MIN x) w).setReg64 (A.ACQ_TRK_MINT_LO x) (A.ACQ_TRK_MINT_HI x) t).setFld (A.ACQ_TRK_FLG x)
        F.ACQ_TRK_FLG_MINF f.toNat
    else s
  let s2 := if empty || decide (s.trkValue x (s.reg (A.ACQ_TRK_MAX x)) < v) then
      ((s1.setReg (A.ACQ_TRK_MAX x) w).setReg64 (A.ACQ_TRK_MAXT_LO x) (A.ACQ_TRK_MAXT_HI x) t).setFld (A.ACQ_TRK_FLG x)
        F.ACQ_TRK_FLG_MAXF f.toNat
    else s1
  s2.setBit (A.ACQ_TRK_STAT x) 29 false

/-- Empty a lane's tracker. -/
def State.trackerClear (s : State) (x : Nat) : State :=
  let s1 := s.forEach [A.ACQ_TRK_MIN x, A.ACQ_TRK_MAX x, A.ACQ_TRK_MINT_LO x, A.ACQ_TRK_MINT_HI x, A.ACQ_TRK_MAXT_LO x,
    A.ACQ_TRK_MAXT_HI x, A.ACQ_TRK_FLG x] (fun a s => s.setReg a 0)
  s1.setBit (A.ACQ_TRK_STAT x) 29 true

/-- Reset a lane's tracker: a sample whose result arrived in the same sample-clock cycle belongs to the new period. -/
def State.trackerReset (s : State) (x : Nat) : State :=
  let s1 := s.trackerClear x
  match (s.lane x).last with
  | some e =>
    if clockCycle e.2 = clockCycle s.tim.smp ∧ s.laneOn x then
      s1.trackSample x e.1.v e.1.f (s.devTime (s.laneInstant x ((s.lane x).k - 1)))
    else s1
  | none => s1

end Sys2Proof.Machine
end

