-- ==== Sys2Proof/Machine/Requests.lean ====
section
/-! DEFINITION. Requests that several sources make: urgent conversions (R49–R53), overlay activations
(R433, R434) and the actions of T_apply (R264). -/

namespace Sys2Proof.Machine

/-! ### Urgent conversions -/

/-- Slice state. -/
def State.slice (s : State) (k : Nat) : SliceSt := tabGet sliceInit s.acq.slices k

/-- Replace a slice's state. -/
def State.setSlice (s : State) (k : Nat) (x : SliceSt) : State :=
  { s with acq := { s.acq with slices := tabPut sliceInit s.acq.slices k x } }

/-- S16 takes no urgent request: it runs another slice's Reel or a calibration (R52, R84), or its converter is retired and converts
nothing (R74, assumption 50). -/
def State.s16Away (s : State) : Bool :=
  s.acq.use != .idle || s.acq.calStart.isSome || s.fld (A.CAL_CONV (s.fld (A.ACQ_SLICE 16) F.ACQ_SLICE_CONV)) F.CAL_CONV_STATE == 3

/-- A slot of slice `k` is open: an OPEN entry, a CSH entry (R43), or one of a disabled lane (R63). -/
def State.slotOpen (s : State) (k slot : Nat) : Bool :=
  match reelAt (s.reel k) (slot % s.cycleL) with
  | none => false
  | some w =>
    bitGet w 30 || bitGet w 28 || (match s.laneAt k (w.toNat / 2 ^ 17 % 128) (w.toNat / 2 ^ 24 % 4) with
      | some x => !bitGet w 29 && !s.laneOn x
      | none => false)

/-- The first open slot of slice `k` that begins at least 2 slots from now (R50); none where the Reel has no open slot. -/
def State.firstOpen (s : State) (k : Nat) : Option Nat :=
  let a := (s.tim.smp * 9830400 + 999999999) / 1000000000 + 2
  ((List.range s.cycleL).map (a + ·)).find? (s.slotOpen k)

/-- What became of an urgent request. -/
inductive UrgOut where
  | accepted
  | dropped
  | refused
  deriving DecidableEq, Repr

/-- Count a drop of a source: 0 diagnostics, 1 Heddle, 2 host (R51). -/
def State.urgDrop (s : State) (src : Nat) : State :=
  match src with
  | 0 => s.incSat A.ACQ_URG_DROP_A ⟨15, 0⟩ Ev.ACQ_DROP_SAT 0
  | 1 => s.incSat A.ACQ_URG_DROP_A ⟨31, 16⟩ Ev.ACQ_DROP_SAT 1
  | _ => s.incSat A.ACQ_URG_DROP_B ⟨15, 0⟩ Ev.ACQ_DROP_SAT 2

/-- A request for an urgent conversion. One that reaches the slice in the slot of an accepted request of a later source takes its
place: diagnostics, Heddle, host (R51). -/
def State.urgentRequest (s : State) (u : Urgent) (k : Nat) : UrgOut × State :=
  if 16 < k ∨ (k < 16 ∧ 10 < u.pos) ∨ 107 < u.pos then (.refused, s)
  else if k = 16 && s.s16Away then (.dropped, s.urgDrop u.src)
  else
    match s.firstOpen k with
    | none => (.dropped, s.urgDrop u.src)
    | some n =>
      let take (s : State) : State := s.setSlice k { s.slice k with urgent := some { u with came := s.slotNow, slot := n } }
      match (s.slice k).urgent with
      | none => (.accepted, take s)
      | some u0 =>
        if u0.came = s.slotNow ∧ u.src < u0.src then
          let s1 := s.urgDrop u0.src
          (.accepted, take (if u0.src = 2 then s1.respond (respEntry u0.tag 4 0x10 0 0 0) else s1))
        else (.dropped, s.urgDrop u.src)

/-! ### Overlay requests -/

/-- The CFG registers show the pending activations. -/
def State.ovlSync (s : State) : State :=
  let s1 := s.setFld A.CFG_OVL F.CFG_OVL_PEND s.cfg.acts.length
  match s.cfg.acts with
  | [] => (s1.setFld A.CFG_OVL F.CFG_OVL_NEXT 0xF).setReg64 A.CFG_OVL_T_LO A.CFG_OVL_T_HI 0
  | a :: _ => (s1.setFld A.CFG_OVL F.CFG_OVL_NEXT a.k).setReg64 A.CFG_OVL_T_LO A.CFG_OVL_T_HI a.t

/-- Insert an activation in order of T; one with the same T accepted earlier is replaced (R434). -/
def ovlInsert (a : OvlAct) : List OvlAct → List OvlAct
  | [] => [a]
  | b :: l => if a.t < b.t then a :: b :: l else if a.t = b.t then a :: l else b :: ovlInsert a l

/-- The first multiple of 10 ms of device time at least 5 ms after `t` (R264, R433). -/
def tApplyFrom (t : Nat) : Nat := (t + 5000000 + 9999999) / 10000000 * 10000000

/-- T_apply of an action accepted now. -/
def State.tApply (s : State) : Nat := tApplyFrom s.tim.now

/-- Base, or an overlay that is present and usable. -/
def State.ovlUsable (s : State) (k : Nat) : Bool :=
  k == 0 || (Nat.ble k 8 && s.bit A.CFG_OVL (k - 1))

/-- A follower or joiner starts no shared change of its own, except while ISOL is 1 (R379). -/
def State.mayStart (s : State) : Bool := (s.role != 2 && s.role != 3) || s.bit A.PLY_STAT 23

/-- A request to activate overlay `k`; the Bool tells a refusal. `src`: 1 Heddle, 2 host, 3 Peal at its T, 4 BIN accepted at its stamp,
5 GOOSE; `t0` is that T or stamp. -/
def State.ovlRequest (s : State) (k src t0 : Nat) : Bool × State :=
  if src ≠ 3 ∧ !s.mayStart then (false, s)
  else
    let refuse (c : Nat) : Bool × State :=
      (true, (s.setFld A.CFG_OVL_CNT F.CFG_OVL_CNT_REFSRC src).setFld A.CFG_OVL_CNT F.CFG_OVL_CNT_REFCAUSE c)
    let kept := if src = 3 then s.cfg.acts else s.cfg.acts.filter (fun a => a.src == 3)
    if !s.ovlUsable k then refuse 1
    else if 4 ≤ kept.length then refuse 2
    else
      let t := if src = 3 then t0 else if src = 4 then tApplyFrom t0 else s.tApply
      let s1 := { s with cfg := { s.cfg with acts := ovlInsert { k := k, t := t, src := src } kept } }.ovlSync
      (false, if src ≠ 3 ∧ s.role = 1 then s1.plySend (.overlay k t src) else s1)

/-! ### T_apply (R264) -/

/-- Schedule a logic action at T_apply; in a twin the peer gets it by the Ply link. -/
def State.atApply (s : State) (a : LogicAct) : State :=
  { s with hdl := { s.hdl with acts := s.hdl.acts ++ [(s.tApply, a)] } }

end Sys2Proof.Machine
end

