-- ==== Sys2Proof/Machine/Phasor.lean ====
section
/-! DEFINITION. Complex quantities, the three filters of R120, sequence components (R123), signal lookup, scales and nominal
values (R126). Exact fractions over the real functions of `RealFn`; a stored FP32 word is `peWord` of the exact value
(assumption 9). -/

namespace Sys2Proof.Machine

/-! ### Complex arithmetic -/

def cxZero : Cx := { re := 0, im := 0 }
def cxAdd (a b : Cx) : Cx := { re := a.re + b.re, im := a.im + b.im }
def cxSub (a b : Cx) : Cx := { re := a.re - b.re, im := a.im - b.im }
def cxMul (a b : Cx) : Cx := { re := a.re * b.re - a.im * b.im, im := a.re * b.im + a.im * b.re }
def cxScale (k : Rat) (a : Cx) : Cx := { re := k * a.re, im := k * a.im }
def cxConj (a : Cx) : Cx := { re := a.re, im := -a.im }
def cxNeg (a : Cx) : Cx := { re := -a.re, im := -a.im }
/-- j times a quantity. -/
def cxJ (a : Cx) : Cx := { re := -a.im, im := a.re }
/-- |a|². -/
def cxSq (a : Cx) : Rat := a.re * a.re + a.im * a.im
/-- Magnitude. -/
def cxAbs (a : Cx) : Rat := realSqrt (cxSq a)
/-- Angle in turns. -/
def cxArg (a : Cx) : Rat := realAtan a.re a.im
def cxDiv (a b : Cx) : Cx := cxScale (1 / cxSq b) (cxMul a (cxConj b))
/-- The unit vector at an angle in turns. -/
def cxTurn (t : Rat) : Cx := { re := realCos t, im := realSin t }

/-- An angle in turns taken into (−1/2, 1/2]. -/
def wrapTurn (t : Rat) : Rat := t - (((t - 1 / 2).ceil : Int) : Rat)

/-- √3. -/
def root3 : Rat := realSqrt 3
/-- √2. -/
def root2 : Rat := realSqrt 2
/-- 1∠120°. -/
def cxA : Cx := { re := -1 / 2, im := root3 / 2 }
/-- 1∠240°. -/
def cxA2 : Cx := { re := -1 / 2, im := -(root3 / 2) }

/-- The smaller of two fractions. -/
def ratMin (a b : Rat) : Rat := if a ≤ b then a else b
/-- The larger of two fractions. -/
def ratMax (a b : Rat) : Rat := if a ≤ b then b else a
/-- A fraction limited to a range. -/
def ratClamp (lo hi x : Rat) : Rat := if x < lo then lo else if hi < x then hi else x
/-- The nearest integer; a tie goes the way of `Config.roundTieUp`. -/
def ratRound (x : Rat) : Int := roundDiv x.num x.den
/-- The smallest integer not below, as a natural number. -/
def ratCeilNat (x : Rat) : Nat := x.ceil.toNat
/-- The largest integer not above, as a natural number. -/
def ratFloorNat (x : Rat) : Nat := x.floor.toNat

/-- The value of an FP32 setting. -/
def State.fpReg (s : State) (a : Nat) : Rat := fpVal (s.reg a)

/-! ### Filters (R120): samples newest first -/

/-- Σ x[n − k] e^(j2πhk/96), from position k on. -/
def dftFrom (h : Nat) : Nat → List Rat → Cx
  | _, [] => cxZero
  | k, x :: l => cxAdd (cxScale x (cxTurn (mkRat ((h * k : Nat) : Int) 96))) (dftFrom h (k + 1) l)

/-- Full-cycle phasor at h × f_t. -/
def fullPhasor (h : Nat) (xs : List Rat) : Cx := cxScale (root2 / 96) (dftFrom h 0 (xs.take 96))

/-- Half-cycle phasor. -/
def halfPhasor (xs : List Rat) : Cx := cxScale (root2 / 48) (dftFrom 1 0 (xs.take 48))

/-- Cosine phasor over 120 samples. -/
def cosPhasor (xs : List Rat) : Cx :=
  let c0 := 2 / 96 * (dftFrom 1 0 (xs.take 96)).re
  let c1 := 2 / 96 * (dftFrom 1 0 ((xs.drop 24).take 96)).re
  cxScale (1 / root2) { re := c0, im := c1 }

/-! ### Signals -/

/-- Declared signals of a bay in ascending order. -/
def State.baySigs (s : State) (b : Nat) : List Nat :=
  (List.range 96).filter (fun x => s.bit (A.FLT_SIG x) 31 && s.fld (A.FLT_SIG x) F.FLT_SIG_BAY == b)

/-- The bay's signal of a KIND (R520: at most one). -/
def State.sigOf (s : State) (b kind : Nat) : Option Nat :=
  (s.baySigs b).find? (fun x => s.fld (A.FLT_SIG x) F.FLT_SIG_KIND == kind)

/-- A signal's eight samples in a frame. -/
def frameSig (f : FrameBuf) (x : Nat) : List Sample :=
  match f.sig.find? (fun e => e.1 == x) with
  | some e => e.2
  | none => []

/-- A signal's samples over frames held newest first, newest sample first. -/
def histSig (h : List FrameBuf) (x : Nat) : List Sample := h.flatMap (fun f => (frameSig f x).reverse)

/-- The last `n` samples are there and VALID (R107). -/
def windowValid (n : Nat) (xs : List Sample) : Bool :=
  let w := xs.take n
  w.length == n && w.all (fun x => flagGet x.f 7)

/-- KIND of a current input. -/
def isCurrent (kind : Nat) : Bool := Nat.ble kind 3 || (Nat.ble 8 kind && Nat.ble kind 10)

/-- Secondary amperes or volts per R34 LSB of a KIND (R126). -/
def State.kindScale (s : State) (b kind : Nat) : Rat :=
  if isCurrent kind then s.fpReg (A.PRT_ISCALE b) else s.fpReg (A.PRT_VSCALE b)

/-- INOM in amperes. -/
def State.inom (s : State) (b : Nat) : Rat := if s.bit (A.PRT_BAYCFG b) 28 then 5 else 1
/-- VNOM in volts. -/
def State.vnom (s : State) (b : Nat) : Rat := s.fpReg (A.PRT_VNOM b)
/-- Vph = VNOM/√3. -/
def State.vph (s : State) (b : Nat) : Rat := s.vnom b / root3
/-- Phase-to-phase VTs. -/
def State.vconn (s : State) (b : Nat) : Bool := s.bit (A.PRT_BAYCFG b) 29
/-- ACB rotation. -/
def State.rotAcb (s : State) (b : Nat) : Bool := s.bit (A.PRT_BAYCFG b) 30

/-- Nominal value of an input of a KIND (R126). -/
def State.kindNominal (s : State) (b kind : Nat) : Rat :=
  if isCurrent kind then s.inom b
  else if kind = 7 then s.vph b
  else if s.vconn b then s.vnom b else s.vph b

/-- Samples of a bay's KIND in secondary units, newest first, with whether the last `n` are all VALID. -/
def State.kindSamples (s : State) (b kind n : Nat) (h : List FrameBuf) : Option (List Rat) :=
  match s.sigOf b kind with
  | none => none
  | some x =>
    let xs := histSig h x
    if windowValid n xs then some (xs.map (fun v => (v.v : Rat) * s.kindScale b kind)) else none

/-- Full-cycle phasor of a KIND, where its window is VALID. -/
def State.kindPhasor (s : State) (b kind : Nat) (h : List FrameBuf) : Option Cx :=
  (s.kindSamples b kind 96 h).map (fullPhasor 1)

/-! ### Sequence components (R123) -/

/-- Zero-sequence of three phasors. -/
def seq0 (a b c : Cx) : Cx := cxScale (1 / 3) (cxAdd a (cxAdd b c))
/-- Positive sequence. -/
def seq1 (a b c : Cx) : Cx := cxScale (1 / 3) (cxAdd a (cxAdd (cxMul cxA b) (cxMul cxA2 c)))
/-- Negative sequence. -/
def seq2 (a b c : Cx) : Cx := cxScale (1 / 3) (cxAdd a (cxAdd (cxMul cxA2 b) (cxMul cxA c)))

/-- Three components in order 0, 1, 2. -/
structure Seqs where
  z : Cx
  p : Cx
  n : Cx
  deriving DecidableEq, Repr

/-- Current sequence components: with ACB rotation the second and third inputs exchange places. -/
def seqI (rot : Bool) (a b c : Cx) : Seqs :=
  if rot then { z := seq0 a c b, p := seq1 a c b, n := seq2 a c b } else { z := seq0 a b c, p := seq1 a b c, n := seq2 a b c }

/-- Voltage sequence components; from line voltages V1 and V2 are divided by √3∠±30° and V0 reads 0. -/
def seqV (rot vconn : Bool) (a b c : Cx) : Seqs :=
  let q := seqI rot a b c
  if vconn then
    let up := cxScale root3 (cxTurn (1 / 12))
    let dn := cxScale root3 (cxTurn (-1 / 12))
    { z := cxZero, p := cxDiv q.p (if rot then dn else up), n := cxDiv q.n (if rot then up else dn) }
  else q

/-- Three phasors where all three exist. -/
def three {α β : Type} (f : α → α → α → β) (a b c : Option α) : Option β :=
  match a, b, c with
  | some x, some y, some z => some (f x y z)
  | _, _, _ => none

/-- The bay's current components from the frames held. -/
def State.seqCurrents (s : State) (b : Nat) (h : List FrameBuf) : Option Seqs :=
  three (seqI (s.rotAcb b)) (s.kindPhasor b 0 h) (s.kindPhasor b 1 h) (s.kindPhasor b 2 h)

/-- The bay's voltage components. -/
def State.seqVoltages (s : State) (b : Nat) (h : List FrameBuf) : Option Seqs :=
  three (seqV (s.rotAcb b) (s.vconn b)) (s.kindPhasor b 4 h) (s.kindPhasor b 5 h) (s.kindPhasor b 6 h)

end Sys2Proof.Machine
end

