-- ==== Sys2Proof/Machine/AcqOps.lean ====
section
/-! DEFINITION. Lanes: calibration of a code (R72, R34, R35), disabling and re-enabling (R63). -/

namespace Sys2Proof.Machine

/-- Device time is not locked, so samples carry HOLDOVER (R6). -/
def State.unlocked (s : State) : Bool := s.fld A.TIM_STAT F.TIM_STAT_STATE != 2

/-! ### Converters -/

/-- Converter attached to a slice. -/
def State.conv (s : State) (k : Nat) : Nat := s.fld (A.ACQ_SLICE k) F.ACQ_SLICE_CONV

/-- Converter that was attached to a slice at an instant of the last few slots (R33). -/
def State.convAt (s : State) (k : Nat) (t : Rat) : Nat :=
  if t < ((s.slice k).movedAt : Rat) then (s.slice k).prevConv else s.conv k

/-! ### Calibration of a code -/

/-- A calibrated value with whether the sample is CLIPPED. -/
structure CalVal where
  v : Int
  clipped : Bool
  deriving DecidableEq, Repr

/-- LIN(c) of converter `n`, interpolated between the breakpoints, times 4,096 (R72). -/
def State.linTimes4096 (s : State) (n : Nat) (c : Int) : Int :=
  let u := (c + 131072).toNat
  let p := min (u / 4096) 63
  let r := u - 4096 * p
  let a := signExt 16 (s.fld (A.CAL_LIN n p) F.CAL_LIN_LIN)
  let b := signExt 16 (s.fld (A.CAL_LIN n (p + 1)) F.CAL_LIN_LIN)
  a * 4096 + (b - a) * (r : Int)

/-- m × GAIN × (2^(6−g) × c + LIN(c) × 2^(−g) − OFS) of R72, rounded to nearest, before limiting: `m` 1 for the LSB of R34, 2 for the
LSB of a straight-binary AUX sample (R35). -/
def State.calRaw (s : State) (m : Nat) (conv g : Nat) (c : Int) : Int :=
  let gain := (s.reg (A.CAL_GAIN conv g)).toNat
  let ofs := signExt 24 (s.fld (A.CAL_OFS conv g) F.CAL_OFS_OFS)
  -- everything over 4,096 × 2^g × 2^30
  let inner := 64 * 4096 * c + s.linTimes4096 conv c - ofs * 4096 * 2 ^ g
  roundDiv ((m : Int) * gain * inner) (4096 * 2 ^ g * 2 ^ 30)

/-- The code lies at an end of the converter's 18-bit range. -/
def codeAtEnd (c : Int) : Bool := decide (c ≤ -131072) || decide (131071 ≤ c)

/-- Calibrated sample of a differential input or a signed AUX input: limited to ±full scale `half`, at ×1 to 2²³ − 1 (R34, R35). -/
def calLimit (half : Int) (atEnd : Bool) (v : Int) : CalVal :=
  let hi := min half (2 ^ 23 - 1)
  { v := clampInt (-half) hi v, clipped := atEnd || decide (v < -half) || decide (hi < v) }

/-- Calibrated straight-binary AUX sample from its value in LSB of 0.244 µV, referred to 0 V (R35). -/
def calStraight (atEnd : Bool) (w : Int) : CalVal :=
  { v := clampInt 0 0xFFFFFF w, clipped := atEnd || decide (w < 0) || decide (0xFFFFFF < w) }

/-- The calibrated sample of a code of lane `x` converted by converter `conv`. A signed AUX sample spans ±2.048 V. -/
def State.calCode (s : State) (x conv : Nat) (c : Int) : CalVal :=
  let g := s.laneGain x
  if s.laneStraight x then calStraight (codeAtEnd c) (s.calRaw 2 conv g c)
  else if s.laneAux x then calLimit 0x400000 (codeAtEnd c) (s.calRaw 1 conv g c - 0x400000)
  else calLimit (2 ^ (23 - g)) (codeAtEnd c) (s.calRaw 1 conv g c)

/-- Full scale of a gain in R34 LSB. -/
def gainFull (g : Nat) : Int := 2 ^ (23 - g)

/-! ### Disabling and re-enabling (R63) -/

/-- Conversions of lane `x` whose slot has begun and whose value is not available yet: those of the last five slots. -/
def State.inProgress (s : State) (x : Nat) : Nat :=
  let es := s.reel (s.laneSlice x)
  (List.range 5).countP (fun j =>
    Nat.ble ((s.lane x).from_ + j) s.slotNow && (match reelAt es ((s.slotNow - j) % s.cycleL) with
    | some w => entryIs (s.laneMux x) (s.laneGain x) w
    | none => false))

/-- `n` conversions are discarded. -/
def State.discard (s : State) (x : Nat) : Nat → State
  | 0 => s
  | n + 1 => State.discard (s.incSat (A.ACQ_TRK_STAT x) F.ACQ_TRK_STAT_DISCARD Ev.ACQ_DISCARD_SAT x) x n

/-- The feed of a lane's comparator stops or starts afresh: no sample, counts at 0 (R168). -/
def State.feedClear (s : State) (x : Nat) : State :=
  match s.laneFeed x with
  | none => s
  | some c =>
    { s with trip := { s.trip with
        wmCount := tabPut 0 s.trip.wmCount c 0
        wmLow := tabPut 0 s.trip.wmLow c 0
        wmLast := tabPut (0, 0) s.trip.wmLast c (0, 0)
        wmTaps := tabPut [] s.trip.wmTaps c []
        wmNew := tabPut 0 s.trip.wmNew c 0
        arcCount := s.arcs.foldl (fun t i =>
          if s.fld (A.PRT_EI_CFG i) F.PRT_EI_CFG_BAY = c / 3 then tabPut 0 t (3 * i + c % 3) 0 else t) s.trip.arcCount } }

/-- A bank with nothing in it. -/
def LaneSt.fresh (l : LaneSt) : LaneSt := { l with sum := 0, ssq := 0, cnt := 0, allValid := true, orFlags := 0, winNext := none }

/-- A lane is disabled. -/
def State.laneDisable (s : State) (x : Nat) : State :=
  let s1 := (s.discard x (s.inProgress x)).setBit (A.ACQ_LANE x) 31 false
  let s2 := (s1.setBit (A.ACQ_TRK_STAT x) 31 true).setBit (A.ACQ_ACC_FLG x) 8 true
  ((s2.setLane x (s2.lane x).fresh).feedClear x).raise Ev.ACQ_LANE_OFF x

/-- A lane is re-enabled: tracker reset, a new window at its first sample, conversions from its next slot on. -/
def State.laneEnable (s : State) (x : Nat) : State :=
  let s1 := ((s.trackerReset x).setBit (A.ACQ_LANE x) 31 true).setBit (A.ACQ_TRK_STAT x) 31 false
  ((s1.setLane x { (s1.lane x).fresh with from_ := s1.slotNow + 1 }).feedClear x).raise Ev.ACQ_LANE_ON x

end Sys2Proof.Machine
end

