-- ==== Sys2Proof/Machine/CapOps.lean ====
section
/-! DEFINITION. Capture plans, their digital channels, space and triggers (R203–R210, R214, R217). -/

namespace Sys2Proof.Machine

/-! ### Grids of a device-time second -/

/-- Device time of sample `n` of a grid of `rate` samples per second that starts on every second boundary. -/
def gridNs (rate n : Nat) : Nat := n / rate * 1000000000 + (n % rate * 1000000000 + rate - 1) / rate

/-- Samples of the grid begun by a device time. -/
def gridIx (rate t : Nat) : Nat := t * rate / 1000000000

/-- The first grid instant at or after a device time. -/
def gridAfter (rate t : Nat) : Nat := if gridNs rate (gridIx rate t) < t then gridNs rate (gridIx rate t + 1) else gridNs rate (gridIx rate t)

/-! ### Plans, records and blocks -/

/-- A plan. -/
def State.capPlan (s : State) (p : Nat) : CapPlan := tabGet capPlanInit s.cap.plans p

def State.setCapPlan (s : State) (p : Nat) (x : CapPlan) : State :=
  { s with cap := { s.cap with plans := tabPut capPlanInit s.cap.plans p x } }

/-- A directory entry's record. -/
def State.capRec (s : State) (e : Nat) : Option CapRec := tabGet none s.cap.recs e

def State.setCapRec (s : State) (e : Nat) (x : Option CapRec) : State :=
  { s with cap := { s.cap with recs := tabPut none s.cap.recs e x } }

/-- The bay's chain rate F_c in S/s (R87). -/
def State.chainRate (s : State) (bay : Nat) : Nat := if s.bit (A.FLT_BAYCFG bay) 0 then 19200 else 9600

/-- The sample size S = 4 × NSIG + 32 octets (R204). -/
def State.capS (s : State) (p : Nat) : Nat := 4 * s.fld (A.CAP_PLAN_CFG p) F.CAP_PLAN_CFG_NSIG + 32

/-- Blocks of a plan's ring: ⌈PRE × F_c × S / 65,536⌉ + 1 (R204). -/
def State.ringBlocks (s : State) (p : Nat) : Nat :=
  let bay := s.fld (A.CAP_PLAN_CFG p) F.CAP_PLAN_CFG_BAY
  let n := s.fld (A.CAP_PLAN_WIN p) F.CAP_PLAN_WIN_PRE * s.chainRate bay * s.capS p
  (n + 65536 * 1000 - 1) / (65536 * 1000) + 1

/-- Free blocks in ascending order. -/
def State.capFree (s : State) : List Nat :=
  (List.range 384).filter (fun b => !s.bit (A.CAP_LINK b) 30 && !s.cap.withdrawn.contains b)

/-- CAP_STAT.FREE follows the links. -/
def State.capSync (s : State) : State :=
  (s.setFld A.CAP_STAT F.CAP_STAT_FREE s.capFree.length).setFld A.CAP_STAT F.CAP_STAT_HELD s.cap.order.length

/-- The link of one of the 384 blocks. -/
def State.setLink (s : State) (b : Nat) (w : Word) : State := if b < 384 then s.setReg (A.CAP_LINK b) w else s

/-- Write the links of a chain of blocks (R212, R219). -/
def State.capLink (s : State) : List Nat → State
  | [] => s
  | [b] => s.setLink b 0xC0000000
  | b :: c :: l => State.capLink (s.setLink b (BitVec.ofNat 32 (0x40000000 + c % 512))) (c :: l)

/-- Unlink blocks. -/
def State.capUnlink (s : State) (l : List Nat) : State := s.forEach l (fun b s => s.setLink b 0)

/-- STATE of a directory entry: 0 free, 1 open, 2 closed, 3 acknowledged. -/
def State.capState (s : State) (e : Nat) : Nat := s.fld (A.CAP_DIR_INFO e) F.CAP_DIR_INFO_STATE

/-- The entry OVWR allows to be freed next (R214): the oldest acknowledged record that is not locked, else, with OVWR = 0, the
oldest unacknowledged closed one. -/
def State.capVictim (s : State) : Option Nat :=
  let ok (st e : Nat) : Bool := Nat.blt e 64 && s.capState e == st && !s.bit (A.CAP_DIR_INFO e) 29
  match s.cap.order.find? (ok 3) with
  | some e => some e
  | none => if s.fld A.CAP_CFG F.CAP_CFG_OVWR = 0 then s.cap.order.find? (ok 2) else none

/-- Free a record. -/
def State.capFreeRec (s : State) (e : Nat) : State :=
  let blocks := match s.capRec e with
    | some r => r.blocks
    | none => []
  let num := (s.reg (A.CAP_DIR_REC e)).toNat
  let s1 := if s.capState e = 2 then
      (s.incSat A.CAP_CNT F.CAP_CNT_OVW Ev.CAP_CNT_SAT noIndex).raise Ev.CAP_OVERWRITE num
    else s
  let s2 := ((s1.setCapRec e none).setReg (A.CAP_DIR_INFO e) 0).capUnlink blocks
  { s2 with cap := { s2.cap with order := s2.cap.order.filter (· != e) } }.capSync

/-- Free records until `n` blocks are free (and, with `dir`, fewer than 64 records are held), as far as OVWR allows; `fuel`
bounds the records freed. -/
def State.capMakeRoom (s : State) (n : Nat) (dir : Bool) : Nat → Bool × State
  | 0 => (Nat.ble n s.capFree.length && (!dir || Nat.blt s.cap.order.length 64), s)
  | fuel + 1 =>
    if Nat.ble n s.capFree.length && (!dir || Nat.blt s.cap.order.length 64) then (true, s)
    else match s.capVictim with
      | some e => State.capMakeRoom (s.capFreeRec e) n dir fuel
      | none => (false, s)

/-- A plan takes a fresh ring of blocks, chained as a ring. -/
def State.capNewRing (s : State) (p : Nat) : State :=
  let bs := s.capFree.take (s.ringBlocks p)
  let s1 := (s.capLink bs).setCapPlan p { s.capPlan p with blocks := bs }
  (s1.setFld (A.CAP_PLAN_STAT p) F.CAP_PLAN_STAT_RING bs.length).capSync

/-! ### A plan's bay, signals and digital channels -/

def State.planBay (s : State) (p : Nat) : Nat := s.fld (A.CAP_PLAN_CFG p) F.CAP_PLAN_CFG_BAY
def State.planRate (s : State) (p : Nat) : Nat := s.chainRate (s.planBay p)

/-- Signals in plan order: the valid entries of the list. -/
def State.planSigs (s : State) (p : Nat) : List Nat :=
  ((List.range 16).map (fun i => (s.reg (A.CAP_PLAN_SIGL p (i / 4))).toNat / 2 ^ (8 * (i % 4)) % 256)).filterMap
    (fun n => if n.testBit 7 then some (n % 128) else none)

/-- The source of digital channel `i`. -/
def State.planSrc (s : State) (p i : Nat) : Nat := (s.reg (A.CAP_DCH p (i / 2))).toNat / (if i % 2 = 0 then 1 else 65536) % 65536

/-- The plan's samples are written: it is enabled, or its last record is to complete. -/
def State.planRuns (s : State) (p : Nat) : Bool := s.bit (A.CAP_PLAN_CFG p) 31 || (s.capPlan p).closing

/-- The channel is given by frame results (R205). -/
def isResult (src : Nat) : Bool := src / 4096 == 2 || src / 4096 == 7

/-- Eight words from 256 bits. -/
def packBits (f : Nat → Bool) : List Word :=
  (List.range 8).map (fun w => BitVec.ofNat 32 ((List.range 32).foldl (fun a i => if f (32 * w + i) then a + 2 ^ i else a) 0))

/-- Bit `i` of eight words. -/
def digBit (ws : List Word) (i : Nat) : Bool := bitGet (ws.getD (i / 32) 0) (i % 32)

/-- Samples the plan's ring of blocks holds. -/
def State.ringSamples (s : State) (p : Nat) : Nat := (s.capPlan p).blocks.length * 65536 / s.capS p

/-! ### Triggers -/

/-- The cause word of a record: kind 0 channel, 1 Heddle, 2 host, 3 Peal, 4 peer, and the channel index (R213). -/
structure CapCause where
  kind : Nat
  index : Nat
  deriving DecidableEq, Repr

/-- Frame count of a bay's frame that a device time falls into: one of those closed, or by the timeline's period. -/
def State.frameAt (s : State) (b t : Nat) : Nat :=
  let c := tabGet bayChainInit s.chain.bays b
  let u : Rat := (s.smpTime t : Rat)
  match c.hist.find? (fun f => decide (f.at_ ≤ u) && decide (u < f.at_ + 8 * f.per)) with
  | some f => f.n
  | none => ((c.n : Int) + ((u - c.next) * (96 * c.ft) / (8 * 1000000000)).floor).toNat

/-- A record of plan `p` starts in the free directory entry `e` (R207). -/
def State.capOpen (s1 : State) (p t : Nat) (c : CapCause) (e : Nat) : State :=
  let pl := s1.capPlan p
  let num := s1.reg A.CAP_NEXTREC
  let pre := s1.fld (A.CAP_PLAN_WIN p) F.CAP_PLAN_WIN_PRE * 1000000
  let post := s1.fld (A.CAP_PLAN_WIN p) F.CAP_PLAN_WIN_POST * 1000000
  let r : CapRec := { trig := t, first := t, endT := t + post, post := post, count := 1, kind := c.kind, index := c.index
                      nsig := s1.fld (A.CAP_PLAN_CFG p) F.CAP_PLAN_CFG_NSIG
                      samples := pl.ring.filter (fun x => Nat.ble (t - pre) x.t && Nat.ble x.t (t + post))
                      snaps := [], snapLost := 0, flags := if c.kind = 4 then 4 else 0, peerRec := 0xFFFFFFFF
                      blocks := pl.blocks, frame := s1.frameAt (s1.planBay p) t
                      opsec := s1.reg A.ALM_OPSEC, pwrCyc := s1.reg A.ALM_PWRCYC, lastBurst := none, head := [], shut := false }
  let s2 := s1.setCapRec e (some r)
  let s3 := s2.setCapPlan p { s2.capPlan p with open_ := e :: (s2.capPlan p).open_ }
  let s4 := { s3 with cap := { s3.cap with order := s3.cap.order ++ [e] } }
  let info := 0x40000000 + p % 16 * 2 ^ 20 + (r.blocks.headD 0) % 512
  let s5 := ((s4.setReg (A.CAP_DIR_REC e) num).setReg (A.CAP_DIR_INFO e) (BitVec.ofNat 32 info)).setReg (A.CAP_DIR_LEN e) 0
  let s6 := (s5.setReg A.CAP_NEXTREC (num + 1)).capNewRing p
  let s7 := (s6.incWrap (A.CAP_PLAN_STAT p) F.CAP_PLAN_STAT_RECS).setBit (A.CAP_PLAN_STAT p) 31 true
  s7.raise Ev.CAP_TRIG num.toNat

/-- A trigger starts a record on a plan without an open record before its END, where room can be made (R207, R214); the Bool tells that it
did. -/
def State.capStart (s : State) (p t : Nat) (c : CapCause) : Bool × State :=
  let room := s.capMakeRoom (s.ringBlocks p) true 64
  let s1 := room.2
  if !room.1 then (false, (s1.incSat A.CAP_CNT F.CAP_CNT_REFUSED Ev.CAP_CNT_SAT noIndex).raise Ev.CAP_REFUSED p)
  else
    match (List.range 64).find? (fun e => s1.capState e == 0) with
    | none => (false, s1)
    | some e => (true, s1.capOpen p t c e)

/-- An accepted trigger is sent to the peer, except one that came from it, with the number of its record; to a request the number alone is
answered (R210). -/
def State.capTell (s : State) (p t : Nat) (c : CapCause) : State :=
  let num := s.reg (A.CAP_DIR_REC ((s.capPlan p).open_.headD 0))
  if c.kind = 4 then s.plySend (.recordNumber p num)
  else if s.bit (A.CAP_PLAN_CFG p) 30 then s.plySend (.capture p t num) else s

/-- A plan's open record that still takes triggers. -/
def State.capLive (s : State) (p : Nat) : Option (Nat × CapRec) :=
  ((s.capPlan p).open_.head?.bind (fun e => (s.capRec e).map (fun r => (e, r)))).filter (fun e => !e.2.shut)

/-- A trigger of plan `p` at time `t` (R206–R208). What samples a later END adds, the next write takes from the ring. -/
def State.captureTrigger (s : State) (p t : Nat) (c : CapCause) : State :=
  let start (s : State) : State :=
    let r := s.capStart p t c
    if r.1 then r.2.capTell p t c else r.2
  if !s.bit (A.CAP_PLAN_CFG p) 31 then s
  else
    match s.capLive p with
    | some (e, r) =>
      if t ≤ r.endT ∧ t ≤ r.first + 8000000000 then
        let r1 := { r with endT := min (max r.endT (t + r.post)) (r.first + 8000000000), count := min (r.count + 1) 0xFFFF,
                           flags := r.flags ||| 2 }
        (s.setCapRec e (some r1)).capTell p t c
      else start s
    | none => start s

/-- Rising edges on triggering channels: each a trigger at the instant, the first in channel order the cause of a start (R206, R217). -/
def State.capEdges (s : State) (p t : Nat) (old new : List Word) (only : Nat → Bool) : State :=
  s.forEach (List.range 256) (fun i s =>
    if only i && bitGet (s.reg (A.CAP_PLAN_TRIG p (i / 32))) (i % 32) && !digBit old i && digBit new i then
      s.captureTrigger p t { kind := 0, index := i }
    else s)

/-! ### Values that reach samples already taken (R205) -/

/-- Samples from an instant on take the values `f` gives to the channels `hit`. -/
def fixFrom (t : Nat) (hit f : Nat → Bool) (l : List CapSample) : List CapSample :=
  l.map (fun y => if y.t < t then y else { y with digital := packBits (fun i => if hit i then f i else digBit y.digital i) })

/-- Channels `hit` of plan `p` have the values `f` from device time `t` on: in the samples written, with the edge this makes, and in the
bits taken at instants not yet written. -/
def State.planPatch (s : State) (p t : Nat) (hit f : Nat → Bool) : State :=
  if !s.planRuns p then s
  else
    let x := s.capPlan p
    let rate := s.planRate p
    let dig := if x.ring.any (fun y => Nat.ble t y.t) then packBits (fun i => if hit i then f i else digBit x.digital i) else x.digital
    let s1 := s.setCapPlan p { x with
      ring := fixFrom t hit f x.ring, digital := dig
      pend := x.pend.map (fun e => if gridNs rate e.1 < t then e else (e.1, packBits (fun i => if hit i then f i else digBit e.2 i))) }
    let s2 := s1.forEach x.open_ (fun e s =>
      match s.capRec e with
      | some r => s.setCapRec e (some { r with samples := fixFrom t hit f r.samples })
      | none => s)
    s2.capEdges p (gridAfter rate t) x.digital dig hit

/-- A BIN input has had the value `v` since its stamp. -/
def State.binCapture (s : State) (i : Nat) (v : Bool) (ts : Nat) : State :=
  s.forEach (List.range 16) (fun p s => s.planPatch p ts (fun c => s.planSrc p c == 0x3000 + i) (fun _ => v))

end Sys2Proof.Machine
end

