-- ==== Sys2Proof/Machine/Stages.lean ====
section
/-! DEFINITION. The stages of a signal (R88–R99): lane and stream samples through the half-bands, the range merge, the compensation FIR
and the resampler, as functions of the samples held. The ROM coefficients are opaque (assumption 10); sample indices count from device
time 0 on the sample clock, so an even one is the centre of a half-band output (assumption 51). -/

namespace Sys2Proof.Machine

/-- A bay's chain. -/
def State.bayChain (s : State) (b : Nat) : BayChain := tabGet bayChainInit s.chain.bays b

def State.setBayChain (s : State) (b : Nat) (c : BayChain) : State :=
  { s with chain := { s.chain with bays := tabPut bayChainInit s.chain.bays b c } }

/-! ### Flags and stored values -/

/-- A flags octet from its bits 7–0. -/
def mkFlags (valid settling clipped rangeLo test subst holdover plaus : Bool) : SampleFlags :=
  BitVec.ofNat 8 (valid.toNat * 128 + settling.toNat * 64 + clipped.toNat * 32 + rangeLo.toNat * 16 + test.toNat * 8 +
    subst.toNat * 4 + holdover.toNat * 2 + plaus.toNat)

/-- Flags of what is computed from a window of samples (R104). -/
def joinFlags (l : List Sample) : SampleFlags :=
  mkFlags (l.all (fun x => flagGet x.f 7)) false (l.any (fun x => flagGet x.f 5)) (l.all (fun x => flagGet x.f 4))
    (l.any (fun x => flagGet x.f 3)) (l.any (fun x => flagGet x.f 2)) (l.any (fun x => flagGet x.f 1)) (l.any (fun x => flagGet x.f 0))

/-- The largest chain value (R90). -/
def chainMax : Int := 2 ^ 23 - 1

/-- A value as a chain sample: limited and then CLIPPED (R90). -/
def chainSample (r : Int) (f : SampleFlags) : Sample :=
  { v := clampInt (-chainMax) chainMax r, f := if r < -chainMax ∨ chainMax < r then flagPut f 5 true else f }

/-- A stage output: rounded to nearest and stored (R90). -/
def stageSample (v : Rat) (w : List Sample) : Sample := chainSample (ratRound v) (joinFlags w)

/-- A sample of nothing: what cleared delay lines hold, and a merge without either lane. -/
def sampleZero : Sample := { v := 0, f := 0 }

/-- A lane's sample as it enters the chain: a straight-binary AUX value is halved, ties upwards, and limited without a mark (R90). -/
def chainIn (straight : Bool) (e : ChainSmp) : Sample :=
  if straight then { v := min ((e.v + 1) / 2) chainMax, f := e.f } else chainSample e.v e.f

/-! ### Stage counts and rates (R88–R93) -/

/-- Last half-band stage of a bay: HB7, or HB6 at 19.2 kS/s. -/
def State.lastStage (s : State) (b : Nat) : Nat := if s.bit (A.FLT_BAYCFG b) 0 then 6 else 7

/-- Half-band stages a lane passes. -/
def State.laneStages (s : State) (x : Nat) : List Nat :=
  let m0 := s.laneN x - 2
  (List.range 8).filter (fun m => Nat.ble 1 m && Nat.ble m0 m && Nat.ble m (s.lastStage (s.laneBay x)))

/-- Design code of lane `x` at HBm in its register. -/
def State.design (s : State) (x m : Nat) : Nat := (s.reg (A.FLT_LANE x)).toNat / 2 ^ (3 * m - 3) % 8

/-- What a bay's chain loads at an instant: the registers as they stand (R94). -/
def State.newEpoch (s : State) (b : Nat) (t : Rat) : Epoch :=
  { start := t, clear := t
    lanes := ((List.range 128).filter (fun x => s.laneDeclared x && s.laneBay x == b)).map (fun x => (x, s.reg (A.FLT_LANE x)))
    user := [0, 1].map (fun u =>
      (List.range (s.fld A.FLT_HBU_CFG (if u = 0 then F.FLT_HBU_CFG_M0 else F.FLT_HBU_CFG_M1))).map (fun k => (s.reg (A.FLT_HBU u k)).toInt)) }

/-- What the bay's chain runs with now. -/
def State.epoch (s : State) (b : Nat) : Epoch := (s.bayChain b).epochs.headD (s.newEpoch b 0)

/-- What the bay's chain computes an output of an instant with. -/
def State.epochAt (s : State) (b : Nat) (t : Rat) : Epoch :=
  match (s.bayChain b).epochs.find? (fun e => decide (e.start ≤ t)) with
  | some e => e
  | none => s.epoch b

/-- Design code of lane `x` at HBm as loaded. -/
def Epoch.code (e : Epoch) (x m : Nat) : Nat :=
  match e.lanes.find? (fun p => p.1 == x) with
  | some p => p.2.toNat / 2 ^ (3 * m - 3) % 8
  | none => 2

/-- Coefficients of a user set as loaded. -/
def Epoch.set (e : Epoch) (code : Nat) : List Int := e.user.getD (code - 4) []

/-- Taps of a design (R92). -/
def Epoch.taps (e : Epoch) (code : Nat) : Nat :=
  match code with
  | 0 => 23
  | 1 => 31
  | 2 => 47
  | 3 => 63
  | c => 4 * (e.set c).length - 1

/-- Tap of a design at offsets ±(2k + 1): a ROM coefficient, or that of a user set with 31 fraction bits (R92, R93). -/
def Epoch.tap (e : Epoch) (code k : Nat) : Rat := if code < 4 then Config.halfBandTap code k else mkRat ((e.set code).getD k 0) (2 ^ 31)

/-- A signal is merged. -/
def State.sigMerged (s : State) (x : Nat) : Bool := s.bit (A.FLT_SIG x) 26
/-- A signal is fed from a subscribed stream. -/
def State.sigStream (s : State) (x : Nat) : Bool := s.bit (A.FLT_SIG x) 27
def State.sigA (s : State) (x : Nat) : Nat := s.fld (A.FLT_SIG x) F.FLT_SIG_LANE_A
def State.sigB (s : State) (x : Nat) : Nat := s.fld (A.FLT_SIG x) F.FLT_SIG_LANE_B
def State.sigBay (s : State) (x : Nat) : Nat := s.fld (A.FLT_SIG x) F.FLT_SIG_BAY
/-- Stream of a stream-fed signal, and its channel. -/
def State.sigSv (s : State) (x : Nat) : Nat := s.sigA x / 8
def State.sigCh (s : State) (x : Nat) : Nat := s.sigA x % 8
/-- FIR_LEN. -/
def State.firLen (s : State) (x : Nat) : Nat := s.fld (A.FLT_SIG x) F.FLT_SIG_FIRLEN_M1 + 1

/-- The stages whose DESIGN field counts for a signal: (lane, m) (R92). -/
def State.sigStages (s : State) (x : Nat) : List (Nat × Nat) :=
  if s.sigStream x then []
  else if s.sigMerged x then
    (if s.laneN (s.sigA x) = 3 then [(s.sigA x, 1)] else []) ++
      ((s.laneStages (s.sigB x)).filter (fun m => Nat.ble 2 m)).map (fun m => (s.sigB x, m))
  else (s.laneStages (s.sigA x)).map (fun m => (s.sigA x, m))

/-- Half-band stages of a signal after its merge, in order. -/
def State.sigHalves (s : State) (x : Nat) : List (Nat × Nat) :=
  if s.sigMerged x then (s.sigStages x).filter (fun p => Nat.ble 2 p.2) else s.sigStages x

/-- Rate of a subscribed stream. -/
def State.svRate (s : State) (r : Nat) : Nat := if s.fld (A.NET_SVS_CFG r) F.NET_SVS_CFG_RATE = 1 then 4000 else 4800

/-- Input rate of a signal's resampler. -/
def State.sigRate (s : State) (x : Nat) : Nat :=
  if s.sigStream x then s.svRate (s.sigSv x) else s.chainRate (s.sigBay x)

/-- Nanoseconds of a number of samples at a rate. -/
def samplesNs (n : Rat) (rate : Nat) : Rat := n * 1000000000 / rate

/-! ### Windows of input samples -/

/-- Samples `a` to `a + n − 1` of a list in ascending order, with a gap where one is missing. -/
def fillWin : List ChainSmp → Int → Nat → List (Option ChainSmp)
  | _, _, 0 => []
  | [], a, n + 1 => none :: fillWin [] (a + 1) n
  | e :: l, a, n + 1 => if (e.k : Int) = a then some e :: fillWin l (a + 1) n else none :: fillWin (e :: l) (a + 1) n

/-- The held samples of a key in a window. -/
def State.heldWin (s : State) (key : Nat) (a : Int) (n : Nat) : List (Option ChainSmp) :=
  fillWin (((tabGet [] s.chain.smps key).filter (fun e => decide (a ≤ (e.k : Int)) && decide ((e.k : Int) < a + n))).reverse) a n

/-- What stands in a delay line at index `k` of lane `x`: the sample; nothing where the lines have been cleared since; else a missing
sample, without VALID and of no stated value. -/
def State.laneCell (s : State) (p : Epoch) (x : Nat) (k : Int) (e : Option ChainSmp) : Sample :=
  if s.laneInstant x 0 + samplesNs k (9830400 / 2 ^ s.laneN x) < p.clear then sampleZero
  else
    match e with
    | some e => chainIn (s.laneStraight x) e
    | none => { v := (chainSample (Config.missingSample x k) 0).v, f := mkFlags false false false (s.laneGain x != 0) false false false false }

/-- The samples of lane `x` in a window. -/
def State.laneWin (s : State) (e : Epoch) (x : Nat) (a : Int) (n : Nat) : List Sample :=
  ((s.heldWin x a n).zip (List.range n)).map (fun p => s.laneCell e x (a + p.2) p.1)

/-! ### Half-bands (R92, R93) -/

/-- One half-band output from its window of `t` samples: the centre by 0.5, symmetric taps at odd offsets. -/
def hbOut (tap : Nat → Rat) (t : Nat) (w : List Sample) : Sample :=
  let x (i : Nat) : Rat := ((w.getD i sampleZero).v : Rat)
  let c := (t - 1) / 2
  stageSample ((List.range ((t + 1) / 4)).foldl (fun a k => a + tap k * (x (c - (2 * k + 1)) + x (c + (2 * k + 1)))) (x c / 2)) w

/-- `n` outputs in a row, each two input samples after the one before. -/
def hbRun (tap : Nat → Rat) (t : Nat) : Nat → List Sample → List Sample
  | 0, _ => []
  | n + 1, xs => hbOut tap t (xs.take t) :: hbRun tap t n (xs.drop 2)

/-- Outputs `a` to `a + n − 1` of half-band stages of the given designs, the last stage first, over an input. -/
def hbPath (e : Epoch) (base : Int → Nat → List Sample) : List Nat → Int → Nat → List Sample
  | [], a, n => base a n
  | d :: l, a, n => hbRun (e.tap d) (e.taps d) n (hbPath e base l (2 * a - ((e.taps d - 1) / 2 : Nat)) (2 * n + e.taps d - 2))

/-! ### Range merge (R91) -/

/-- The choice of the range merge between lane B's sample, where it is present, and lane A's on the same instant. -/
def mergeTake (a : Sample) (b : Option Sample) : Sample :=
  let av := flagGet a.f 7
  match b with
  | some y =>
    if (flagGet y.f 7 && !flagGet y.f 5) || !av then { v := y.v, f := flagPut y.f 4 true } else { v := a.v, f := flagPut a.f 4 false }
  | none => if av then { v := a.v, f := flagPut a.f 4 false } else sampleZero

/-- Merged samples in a row: `r` the place of lane B's instants between lane A's, six of which each interpolation takes. -/
def mergeRun (r : Rat) : List Sample → List (Option Sample) → List Sample
  | _, [] => []
  | as, b :: bs =>
    let w := as.take 6
    let y := stageSample ((List.range 6).foldl (fun t i => t + Config.mergeTap r i * ((w.getD i sampleZero).v : Rat)) 0) w
    mergeTake y b :: mergeRun r (as.drop 1) bs

/-- A re-enabled lane is ignored by the merge until it has settled (R115). -/
def State.mergeHeld (s : State) (x : Nat) (k : Int) : Bool :=
  let t := s.laneInstant x 0 + samplesNs k (9830400 / 2 ^ s.laneN x)
  decide (t < ((tabGet 0 s.chain.mute x : Nat) : Rat) - 1)

/-- A merge input that is ignored stands without VALID. -/
def State.mergeMute (s : State) (x : Nat) (k : Int) (y : Sample) : Sample := if s.mergeHeld x k then { y with f := flagPut y.f 7 false } else y

/-- Lane A at 614.4 kS/s, after HB1 where it is at n = 3. -/
def State.mergeA (s : State) (e : Epoch) (x : Nat) (a : Int) (n : Nat) : List Sample :=
  let l := s.sigA x
  hbPath e (fun a n => ((s.laneWin e l a n).zip (List.range n)).map (fun p => s.mergeMute l (a + p.2) p.1))
    (if s.laneN l = 3 then [e.code l 1] else []) a n

/-- Lane B's sample at index `k` as the merge sees it: present, cleared, or missing. -/
def State.mergeB (s : State) (e : Epoch) (l : Nat) (k : Int) (c : Option ChainSmp) : Option Sample :=
  if s.mergeHeld l k then none
  else if c.isNone && !decide (s.laneInstant l 0 + samplesNs k (9830400 / 2 ^ s.laneN l) < e.clear) then none
  else some (s.laneCell e l k c)

/-- The merged samples of a signal on lane B's instants. -/
def State.mergeWin (s : State) (e : Epoch) (x : Nat) (a : Int) (n : Nat) : List Sample :=
  let l := s.sigB x
  let u := (s.laneInstant l 0 - s.laneInstant (s.sigA x) 0) * 614400 / 1000000000
  let bs := ((s.heldWin l a n).zip (List.range n)).map (fun p => s.mergeB e l (a + p.2) p.1)
  mergeRun (u - u.floor) (s.mergeA e x (a + u.floor - 2) (n + 5)) bs

/-! ### Compensation FIR (R96, R97) -/

/-- The coefficients in force after every fade has run: the registers, with 30 fraction bits. -/
def State.firRegs (s : State) (x : Nat) : List Int := (List.range (s.firLen x)).map (fun t => (s.reg (A.FLT_FIR x t)).toInt)

/-- The coefficients at chain sample `k`: each change fades in over 64 samples from what was in force at it. -/
def firBlend : List FirSet → Int → List Rat
  | [], _ => []
  | e :: l, k =>
    if l.isEmpty then e.c.map (fun c => (c : Rat))
    else if k ≤ e.k then firBlend l k
    else if e.direct || decide (e.k + 64 ≤ k) then e.c.map (fun c => (c : Rat))
    else
      let r : Rat := ((k - e.k : Int) : Rat) / 64
      ((firBlend l e.k).zip e.c).map (fun p => (1 - r) * p.1 + r * (p.2 : Rat))

/-- Coefficients of a signal at chain sample `k`. -/
def State.firAt (s : State) (x : Nat) (k : Int) : List Rat :=
  match tabGet [] s.chain.fir x with
  | [] => (s.firRegs x).map (fun c => (c : Rat))
  | l => firBlend l k

/-- One output: tap `t` by the sample `t` old; the window is in ascending order. -/
def firOut (c : List Rat) (w : List Sample) : Sample :=
  stageSample ((c.zip w.reverse).foldl (fun a p => a + p.1 * (p.2.v : Rat)) 0 / 2 ^ 30) w

/-- Outputs in a row from sample `k` on. -/
def State.firRun (s : State) (x : Nat) : Nat → Int → List Sample → List Sample
  | 0, _, _ => []
  | n + 1, k, xs => firOut (s.firAt x k) (xs.take (s.firLen x)) :: State.firRun s x n (k + 1) (xs.drop 1)

/-! ### A signal before its resampler -/

/-- Samples `a` to `a + n − 1` of a signal at its resampler's input. -/
def State.sigWin (s : State) (e : Epoch) (x : Nat) (a : Int) (n : Nat) : List Sample :=
  if s.sigStream x then
    ((s.heldWin (128 + x) a n).zip (List.range n)).map (fun p => match p.1 with
      | some y => chainSample y.v y.f
      | none => { v := (chainSample (Config.missingSample (128 + x) (a + p.2)) 0).v, f := 0 })
  else
    let halves := ((s.sigHalves x).map (fun p => e.code p.1 p.2)).reverse
    let base := if s.sigMerged x then s.mergeWin e x else s.laneWin e (s.sigA x)
    s.firRun x n a (hbPath e base halves (a - (s.firLen x - 1 : Nat)) (n + s.firLen x - 1))

/-- Instant of sample 0 at the resampler's input, with the FIR's delay taken off (R96, R98), on the sample clock. -/
def State.sigZero (s : State) (x : Nat) : Rat :=
  if s.sigStream x then (s.smpTime 0 : Rat)
  else s.laneInstant (if s.sigMerged x then s.sigB x else s.sigA x) 0 - samplesNs (((s.firLen x : Rat) - 1) / 2) (s.sigRate x)

/-! ### Resampler (R98) -/

/-- A signal's output at position `q` in samples of rate `rate` counted from device time 0: 16 input samples around it, the coefficient
phase of the fraction's top 10 bits and the next 8 bits between that phase and the next. -/
def State.resample (s : State) (e : Epoch) (x : Nat) (q : Rat) (rate : Nat) : Sample :=
  let u := q * s.sigRate x / rate - s.sigZero x * s.sigRate x / 1000000000
  let f := ((u - u.floor) * 2 ^ 32).floor.toNat
  let ph := f / 2 ^ 22
  let r : Rat := ((f / 2 ^ 14 % 256 : Nat) : Rat) / 256
  let w := s.sigWin e x (u.floor - 7) 16
  stageSample ((List.range 16).foldl (fun a i =>
    a + ((1 - r) * Config.resampleTap ph i + r * Config.resampleTap (ph + 1) i) * ((w.getD i sampleZero).v : Rat)) 0) w

end Sys2Proof.Machine
end

