-- ==== Sys2Proof/Machine/Chain.lean ====
section
/-! DEFINITION. The decimation chain and its frames (R9–R12, R19, R23, R88–R110): delays, settling, stop and restart, output samples
with their flags, frequency tracking, and the steps CHAIN_RESTART and FRAME_CLOSE. -/

namespace Sys2Proof.Machine

/-! ### Delays (R89) -/

/-- Delay of stage HBm in ns: (T − 1)/2 samples at 9.8304 MS/s ÷ 2^(m+2). -/
def State.stageDelay (s : State) (p : Nat × Nat) : Rat :=
  samplesNs ((((s.epoch (s.laneBay p.1)).taps ((s.epoch (s.laneBay p.1)).code p.1 p.2) : Rat) - 1) / 2) (9830400 / 2 ^ (p.2 + 2))

/-- Total delay of a signal (R89), in ns. -/
def State.sigDelay (s : State) (x : Nat) : Rat :=
  if s.sigStream x then
    samplesNs ((s.fld (A.FLT_BAYCFG (s.sigBay x)) F.FLT_BAYCFG_SVDLY : Rat) + 8) (s.sigRate x)
  else
    let hb := (s.sigStages x).foldl (fun a p => a + s.stageDelay p) 0
    let merge := if s.sigMerged x then samplesNs (7 / 2) 614400 else 0
    hb + merge + samplesNs (((s.firLen x : Rat) - 1) / 2) (s.sigRate x) + samplesNs 8 (s.sigRate x)

/-- The largest total delay among a bay's signals. -/
def State.bayDelay (s : State) (b : Nat) : Rat := (s.baySigs b).foldl (fun a x => ratMax a (s.sigDelay x)) 0

/-- FLT_LAT takes the latency: the delay and at most 10 µs of computation, which the spec leaves open; one delay has one computation time on
every device, so that the frames of a twin close together (R12, assumption 10). -/
def State.setLatency (s : State) (b : Nat) : State :=
  s.setReg (A.FLT_LAT b) (BitVec.ofNat 32 (ratCeilNat (s.bayDelay b) + Config.chainCompute (s.bayDelay b) % 10001))

/-! ### Settling (R105, R106) -/

/-- D of a signal, stage by stage. -/
def State.settleD (s : State) (x : Nat) : Nat :=
  let e := s.epoch (s.sigBay x)
  let half (d : Nat) (p : Nat × Nat) : Nat := (d + e.taps (e.code p.1 p.2) - 1 + 1) / 2
  let st := s.sigStages x
  if s.sigStream x then 0
  else if s.sigMerged x then
    let d1 := (st.filter (fun p => p.2 == 1)).foldl half 0
    (st.filter (fun p => p.2 != 1)).foldl half (d1 + 5) + s.firLen x - 1
  else st.foldl half 0 + s.firLen x - 1

/-- N = ⌈(D + 16) × F_out / F_in⌉ + 1 on the tracking timeline. -/
def State.settleN (s : State) (x : Nat) : Nat :=
  ratCeilNat (((s.settleD x : Rat) + 16) * (96 * (s.bayChain (s.sigBay x)).ft) / s.sigRate x) + 1

/-- Tracking samples of a signal still to settle. -/
def State.settleLeft (s : State) (x : Nat) : Nat :=
  ((tabGet [] s.chain.settle x).map (·.2)).headD 0

/-- FLT_SETTLE and FLT_STAT.SETTLING of a bay. -/
def State.settleSync (s : State) (b : Nat) : State :=
  let left := (s.baySigs b).foldl (fun a x => max a (s.settleLeft x)) 0
  (s.setFld (A.FLT_SETTLE b) F.FLT_SETTLE_REMAIN left).setBit A.FLT_STAT b (left != 0)

/-- Signals of bay `b` settle from an instant. -/
def State.settleSigs (s : State) (b : Nat) (xs : List Nat) (t : Rat) : State :=
  if xs.isEmpty then s
  else
    let s1 := s.forEach xs (fun x s =>
      { s with chain := { s.chain with settle := tabMod [] s.chain.settle x (fun l => (t, s.settleN x) :: l.take 3) } })
    let n := xs.foldl (fun a x => max a (s.settleN x)) 0
    let s2 := (s1.setFld (A.FLT_SETTLE b) F.FLT_SETTLE_LAST n).settleSync b
    s2.setBayChain b { s2.bayChain b with settling := true }

/-- Signals a lane feeds. -/
def State.sigsOfLane (s : State) (x : Nat) : List Nat :=
  (List.range 96).filter (fun g => s.bit (A.FLT_SIG g) 31 && !s.sigStream g &&
    (s.sigA g == x || (s.sigMerged g && s.sigB g == x)))

/-- A re-enabled lane settles: an unmerged signal settles; a merge ignores the lane for that time (R105, R115). -/
def State.laneSettle (s : State) (x : Nat) (t : Rat) : State :=
  s.forEach (s.sigsOfLane x) (fun g s =>
    let other := if s.sigA g = x then s.sigB g else s.sigA g
    if s.sigMerged g && s.laneOn other then
      let ns := samplesNs (s.settleN g) 1 / (96 * (s.bayChain (s.sigBay g)).ft)
      { s with chain := { s.chain with mute := tabPut 0 s.chain.mute x (ratCeilNat (t + ns) + 1) } }
    else s.settleSigs (s.sigBay g) [g] t)

/-! ### Stop and restart (R94, R95, R443) -/

/-- The chain of a bay is stopped, or about to stop at the end of the frame in flight. -/
def BayChain.halted (c : BayChain) : Bool := c.stopFrom.isSome && c.stopTo.isNone

/-- The chain of a bay stops at an instant; a frame in flight then completes and stands (R115). -/
def State.chainStop (s : State) (b : Nat) (t : Rat) : State :=
  let c := s.bayChain b
  (s.setBayChain b { c with stopFrom := some t, stopN := none, stopTo := none }).setBit A.FLT_STAT (8 + b) true

/-- It restarts at an instant, with its delay lines cleared; every signal settles. -/
def State.chainStart (s : State) (b : Nat) (t : Rat) : State :=
  let c := s.bayChain b
  let s1 := ((s.setBayChain b { c with stopTo := some t, restartAt := none, epochs := (s.newEpoch b t :: c.epochs).take 4 }).setBit A.FLT_STAT (8 + b) false).raise
    Ev.FLT_CHAIN_START b
  (s1.settleSigs b (s1.baySigs b) t).setLatency b

/-- CHAIN_RESTART: after an overlay's stop the chain restarts in the next chain-rate period. -/
def doChainRestart (bay : Fin 8) (s : State) : State :=
  match (s.bayChain bay).restartAt with
  | none => s
  | some t => if (s.tim.smp : Rat) < t then s else s.chainStart bay t

/-- A sample instant falls into the stop. -/
def BayChain.stoppedAt (c : BayChain) (t : Rat) : Bool :=
  match c.stopFrom with
  | none => false
  | some a => decide (a ≤ t) && (match c.stopTo with
    | none => true
    | some e => decide (t < e))

/-! ### Samples that reach the chain -/

/-- Add a sample to those held newest first; what is more than 20 ms older at the lane's rate is let go. -/
def pushSmp (keep : Nat) (e : ChainSmp) (l : List ChainSmp) : List ChainSmp := e :: l.filter (fun q => Nat.blt e.k (q.k + keep))

/-- A sample of key `key` (a lane, or 128 + signal) at index `k` of its grid of `rate` samples per second. -/
def State.chainPush (s : State) (key k rate : Nat) (v : Int) (f : SampleFlags) : State :=
  { s with chain := { s.chain with smps := tabMod [] s.chain.smps key (pushSmp (rate / 50) { k := k, v := v, f := f }) } }

/-! ### Output samples (R98, R104) -/

/-- Instant of a held sample of a key on the sample clock. -/
def State.smpInstant (s : State) (key k : Nat) : Rat :=
  if key < 128 then s.laneInstant key k else (s.smpTime 0 : Rat) + samplesNs k (s.sigRate (key - 128))

/-- HOLDOVER at an instant: that of the newest sample taken by then, else the present lock state. -/
def State.holdoverAt (s : State) (x : Nat) (t : Rat) : Bool :=
  let key := if s.sigStream x then 128 + x else if s.sigMerged x then s.sigB x else s.sigA x
  match (tabGet [] s.chain.smps key).find? (fun e => decide (s.smpInstant key e.k ≤ t)) with
  | some e => flagGet e.f 1
  | none => s.unlocked

/-- The sample is counted in the last settling that began by its instant. -/
def State.settlesAt (s : State) (x : Nat) (t : Rat) : Bool :=
  match (tabGet [] s.chain.settle x).find? (fun p => decide (p.1 ≤ t)) with
  | some p => p.2 != 0
  | none => false

/-- What a signal shows at an instant where its stages give `y`: 0 with only HOLDOVER and PLAUS while the bay's chain is stopped (R95);
without VALID while it settles (R104). -/
def State.outMask (s : State) (x : Nat) (t : Rat) (y : Sample) : Sample :=
  let hold := s.holdoverAt x t
  let settle := s.settlesAt x t
  if (s.bayChain (s.sigBay x)).stoppedAt t then { v := 0, f := mkFlags false false false false false false hold (flagGet y.f 0) }
  else { v := y.v, f := flagPut (flagPut (if settle then flagPut y.f 7 false else y.f) 6 settle) 1 hold }

/-- A signal's output at an instant of the sample clock, its position being `q` in samples of rate `rate`. -/
def State.outAt (s : State) (x : Nat) (t q : Rat) (rate : Nat) : Sample :=
  s.outMask x t (s.resample (s.epochAt (s.sigBay x) t) x q rate)

/-- Index of a signal's newest chain-rate sample at an instant. -/
def State.chainIx (s : State) (x : Nat) (t : Rat) : Int := ((t - s.sigZero x) * s.sigRate x / 1000000000).floor

/-- Its instant's distance from that instant, δ_s in ns, at most 0 (R98, R213). -/
def State.chainSkew (s : State) (x : Nat) (t : Rat) : Rat := s.sigZero x + samplesNs (s.chainIx x t) (s.sigRate x) - t

/-- A signal's chain-rate sample at a grid instant (R204). -/
def State.chainAt (s : State) (x : Nat) (t : Rat) : Sample :=
  s.outMask x t ((s.sigWin (s.epochAt (s.sigBay x) t) x (s.chainIx x t) 1).headD sampleZero)

/-- A signal's output at a device time, on the fixed timeline: its position is exact (R101). -/
def State.outSample (s : State) (x : Nat) (t : Rat) : Sample :=
  s.outAt x t (t * s.chainRate (s.sigBay x) / 1000000000) (s.chainRate (s.sigBay x))

/-- One sample less in the last settling that began by an instant; what began before it is over. -/
def settleStep (t : Rat) : List (Rat × Nat) → List (Rat × Nat)
  | [] => []
  | p :: l => if p.1 ≤ t then [(p.1, p.2 - 1)] else p :: settleStep t l

/-- One settling sample of a signal has been made, at an instant. -/
def State.settleCount (s : State) (x : Nat) (t : Rat) : State :=
  { s with chain := { s.chain with settle := tabMod [] s.chain.settle x (settleStep t) } }

/-- The samples of a signal in a frame: `n` from the last backwards, at the instants of the timeline and the positions of the resampler. -/
def State.sigSamples (s : State) (x : Nat) (c : BayChain) (per : Rat) : Nat → State × List Sample
  | 0 => (s, [])
  | n + 1 =>
    let i := 7 - n
    let t := c.next + (i : Rat) * per
    let v := s.outAt x t (mkRat ((c.pos + i * c.step : Nat) : Int) (2 ^ 32)) (s.chainRate (s.sigBay x))
    let s1 := if s.settlesAt x t then s.settleCount x t else s
    let r := State.sigSamples s1 x c per n
    (r.1, v :: r.2)

/-- The resampler's position and STEP for the frame that begins at the timeline's next instant (R98, R100). -/
def BayChain.place (c : BayChain) (rate : Nat) : BayChain :=
  { c with
    pos := (ratRound (c.next * rate * 2 ^ 32 / 1000000000)).toNat
    step := (ratRound ((rate : Rat) / (96 * c.ft) * 2 ^ 32)).toNat }

/-! ### Frequency tracking (R102, R103) -/

/-- A tracking source's phasor and magnitude, with its nominal value, from the frames held: `volt` the voltage source. -/
def State.trackSource (s : State) (b : Nat) (volt : Bool) (h : List FrameBuf) : Option Cx :=
  let sel := if volt then s.fld (A.FLT_TRKCFG b) F.FLT_TRKCFG_VSRC else s.fld (A.FLT_TRKCFG b) F.FLT_TRKCFG_ISRC
  let base := if volt then 4 else 0
  if sel = 0 then (if volt then (s.seqVoltages b h).map (·.p) else (s.seqCurrents b h).map (·.p))
  else s.kindPhasor b (base + sel - 1) h

/-- Nominal value of a tracking source. -/
def State.trackNominal (s : State) (b : Nat) (volt : Bool) : Rat :=
  if !volt then s.inom b
  else if s.fld (A.FLT_TRKCFG b) F.FLT_TRKCFG_VSRC = 0 then s.vph b else s.kindNominal b 4

/-- The count of frames below 5 % (3: absent) after a frame. -/
def trackLow (mag : Option Rat) (nominal : Rat) (low : Nat) : Nat :=
  match mag with
  | none => 3
  | some m =>
    if low = 3 then (if 6 / 100 * nominal ≤ m then 0 else 3)
    else if m < 5 / 100 * nominal then min (low + 1) 3 else 0

/-- Nominal frequency. -/
def State.nomFreq (s : State) (b : Nat) : Rat := if s.bit (A.FLT_BAYCFG b) 3 then 60 else 50

/-- What tracking found in a frame. -/
structure TrackOut where
  ft : Rat
  fm : Rat
  limit : Bool
  slew : Bool
  deriving DecidableEq, Repr

/-- f_m and the next f_t from the source in use. `c` is the chain with this frame and source counts already in it. -/
def State.trackFreq (s : State) (b : Nat) (c : BayChain) : TrackOut :=
  let raw : Rat :=
    if c.src = 2 then s.nomFreq b
    else if c.srcCount < 192 then c.ft
    else
      match s.trackSource b (c.src == 0) c.hist, s.trackSource b (c.src == 0) (c.hist.drop 12) with
      | some x, some y => c.ft * (1 + wrapTurn (cxArg x - cxArg y))
      | _, _ => c.ft
  let fm := ratClamp 40 70 raw
  let lim := 20 * (8 / (96 * c.ft))
  let d := fm - c.ft
  { ft := c.ft + ratClamp (-lim) lim d, fm := fm, limit := decide (raw ≠ fm), slew := decide (d < -lim) || decide (lim < d) }

/-- The bay's tracking after a frame: source, f_t, FLT_TRK and the events. A follower's f_t is the actor's (R12). -/
def State.track (s : State) (b : Nat) : State :=
  let c := s.bayChain b
  let lowV := trackLow ((s.trackSource b true c.hist).map cxAbs) (s.trackNominal b true) c.lowV
  let lowI := trackLow ((s.trackSource b false c.hist).map cxAbs) (s.trackNominal b false) c.lowI
  let src := if lowV < 3 then 0 else if lowI < 3 then 1 else 2
  let c1 := { c with lowV := lowV, lowI := lowI, src := src, srcCount := if src = c.src then min (c.srcCount + 8) 192 else 0 }
  let o := s.trackFreq b c1
  let follower := s.role == 2
  let shown := if follower then o.fm else o.ft
  let was := s.bit (A.FLT_TRK b) 29
  let s1 := s.setBayChain b { c1 with ft := if follower then c1.ft else o.ft }
  let s2 := ((s1.setFld (A.FLT_TRK b) F.FLT_TRK_SOURCE src).setBit (A.FLT_TRK b) 29 o.limit).setBit (A.FLT_TRK b) 28 o.slew
  let s3 := s2.setFld (A.FLT_TRK b) F.FLT_TRK_FREQ (ratRound (shown * 10000)).toNat
  let s4 := if src = c.src then s3 else s3.raise Ev.FLT_TRK_SOURCE b
  if o.limit && !was then s4.raise Ev.FLT_TRK_LIMIT b else s4

/-! ### FRAME_CLOSE -/

/-- A change of a lane's DESIGN changes a stage that counts for a signal of the bay (R94). -/
def State.designHit (s : State) (b : Nat) (e : Nat × Word) : Bool :=
  (s.baySigs b).any (fun x => (s.sigStages x).any (fun p =>
    e.1 == A.FLT_LANE p.1 && (s.design p.1 p.2 != e.2.toNat / 2 ^ (3 * p.2 - 3) % 8)))

/-- Apply one of an overlay's chain-side values: a lane's EN has the effects of R63. -/
def State.applyChainReg (s : State) (t : Rat) (e : Nat × Word) : State :=
  let lane := (e.1 - A.ACQ_LANE 0) / 4
  if inArr (A.ACQ_LANE 0) 4 128 e.1 then
    (if bitGet e.2 31 && !s.laneOn lane then (s.laneEnable lane).laneSettle lane t
     else if !bitGet e.2 31 && s.laneOn lane then s.laneDisable lane else s)
  else s.setReg e.1 e.2

/-- A stop that falls into a frame begins with the next one (R115); an overlay's stop begins with its frame. -/
def BayChain.stopAtFrame (c : BayChain) : BayChain :=
  let nxt := c.next + 8 * samplesNs 1 1 / (96 * c.ft)
  match c.stopFrom, c.stopN with
  | some a, none => if c.next < a && a < nxt then { c with stopFrom := some nxt } else c
  | some _, some n => if n = c.n then { c with stopFrom := some c.next, stopN := none } else c
  | none, _ => c

/-! ### Overlay boundaries (R97, R435) -/

/-- The frames from a bay's next one to its first whose first instant is at or after device time `t`. -/
def State.framesTo (s : State) (b t : Nat) : Nat :=
  let c := s.bayChain b
  ratCeilNat (((s.smpTime t : Rat) - c.next) * (96 * c.ft) / (8 * 1000000000))

/-- The first instant of that frame. -/
def State.boundaryAt (s : State) (b t : Nat) : Rat :=
  (s.bayChain b).next + samplesNs (8 * s.framesTo b t) 1 / (96 * (s.bayChain b).ft)

/-- A signal whose coefficients the changes name. -/
def firHit (l : List (Nat × Word)) (x : Nat) : Bool := l.any (fun e => inArr (A.FLT_FIR x 0) 4 64 e.1)

/-- The set now in the registers joins the sets of signal `x` after its last chain sample by instant `f`; `old` is what was in force. -/
def State.firChange (s : State) (x : Nat) (f : Rat) (direct : Bool) (old : List Int) : State :=
  let k := ((f - s.sigZero x) * s.sigRate x / 1000000000).floor
  { s with chain := { s.chain with fir := tabMod [] s.chain.fir x (fun l =>
      ({ k := k, direct := direct, c := s.firRegs x } : FirSet) :: (if l.isEmpty then [{ k := k, direct := true, c := old }] else l.take 4)) } }

/-- The chain takes an overlay's change `d` at its boundary `f`, frame `n`: new coefficients fade in unless the chain stops (R94, R97). -/
def State.takeChange (s : State) (b n : Nat) (f : Rat) (d : BayChange) : State :=
  let stop := d.stop || d.chain.any (s.designHit b)
  let s1 := s.forEach d.chain (fun e t => t.applyChainReg f e)
  let s2 := s1.forEach ((s.baySigs b).filter (firHit d.chain)) (fun x t => t.firChange x f stop (s.firRegs x))
  if stop && !(s2.bayChain b).halted then
    let s3 := (s2.chainStop b f).raise Ev.FLT_CHAIN_STOP b
    s3.setBayChain b { s3.bayChain b with stopN := some n, restartAt := some (f + samplesNs 1 (s3.chainRate b)) }
  else s2

/-- The bay's overlay changes whose boundary has come take effect (R435): those of the engine wait for its frame. -/
def State.bayBoundary (s : State) (b : Nat) : State :=
  let now (d : BayChange) : Bool := decide (s.boundaryAt b d.t ≤ (s.tim.smp : Rat))
  let due := (tabGet [] s.cfg.bayDue b).filter now
  if due.isEmpty then s
  else
    let s1 := { s with cfg := { s.cfg with
      bayDue := tabPut [] s.cfg.bayDue b ((tabGet [] s.cfg.bayDue b).filter (fun d => !now d))
      prtDue := tabMod [] s.cfg.prtDue b (· ++ due.map (fun (d : BayChange) =>
        ({ n := (s.bayChain b).n + s.framesTo b d.t, k := d.k, prot := d.prot } : PrtChange))) } }
    s1.forEach due (fun d t => t.takeChange b ((s.bayChain b).n + s.framesTo b d.t) (s.boundaryAt b d.t) d)

/-- Every bay's boundaries. -/
def State.boundaryTick (s : State) : State :=
  if s.cfg.switched.isNone then s else s.forEach (List.range 8) (fun b t => t.bayBoundary b)

/-! ### Frames -/

/-- Ask the Reeve for a migration (R450). -/
def State.migTrigger (s : State) (m : MigTrig) : State := { s with pwr := { s.pwr with trigs := s.pwr.trigs ++ [m] } }

/-- Post a frame on the bay's ring: SLIPS where one waits, DROPS of the oldest where four wait (R19). It wakes the engine's cluster (R15). -/
def State.postFrame (s : State) (b : Nat) (fr : FrameBuf) : State :=
  let c := s.bayChain b
  let s1 := if c.ring.isEmpty then s
    else
      let s2 := (s.incSat (A.FLT_FRMSTAT b) F.FLT_FRMSTAT_SLIPS Ev.SUP_FRAME_SAT b).raise Ev.SUP_FRAME_SLIP b
      s2.migTrigger { cause := 3, engine := s2.fld (A.FLT_FRMRT b) F.FLT_FRMRT_ENGINE, bay := some b }
  let full := Nat.ble 4 c.ring.length
  let s3 := if full then
      (s1.incSat (A.FLT_FRMSTAT b) F.FLT_FRMSTAT_DROPS Ev.SUP_FRAME_SAT b).raise Ev.SUP_FRAME_DROP b
    else s1
  let ring := (if full then c.ring.drop 1 else c.ring) ++ [fr]
  let s4 := s3.setBayChain b { s3.bayChain b with ring := ring }
  let s5 := s4.setFld (A.FLT_FRMRT b) F.FLT_FRMRT_FILL ring.length
  if fr.engine < 8 then s5.wakeFor (fr.engine / 4) else s5

/-- When a bay's next frame closes: its eighth sample's instant and the chain latency after it. -/
def State.frameClosesAt (s : State) (b : Nat) : Rat :=
  let c := s.bayChain b
  c.next + 7 * samplesNs 1 1 / (96 * c.ft) + ((s.reg (A.FLT_LAT b)).toNat : Rat)

/-- The bay closes frames: the chains run and the bay is declared. -/
def State.closesFrames (s : State) (b : Nat) : Bool := s.cfg.switched.isSome && s.bit (A.PRT_BAYCFG b) 31

/-- The frame is due. -/
def State.frameDue (s : State) (b : Nat) : Bool := decide (s.frameClosesAt b ≤ (s.tim.smp : Rat))

/-- The frame of a bay with every signal's samples, and the state with the settling counted. -/
def State.buildFrame (s : State) (b : Nat) : State × FrameBuf :=
  let c := s.bayChain b
  let per := samplesNs 1 1 / (96 * c.ft)
  let r := (s.baySigs b).foldl (fun (a : State × List (Nat × List Sample)) x =>
    let q := State.sigSamples a.1 x c per 8
    (q.1, a.2 ++ [(x, q.2)])) (s, [])
  let fr : FrameBuf :=
    { n := c.n, at_ := c.next, stamp := s.devTime c.next, per := per, ft := c.ft, sig := r.2, posted := s.tim.up
      engine := s.fld (A.FLT_FRMRT b) F.FLT_FRMRT_ENGINE, tch := r.1.reg A.PRT_TCH_STATE }
  (r.1, fr)

/-- The chain after a frame: the next frame of the timeline, the stop that this frame has passed. -/
def BayChain.after (c : BayChain) (fr : FrameBuf) : BayChain :=
  let clear := match c.stopTo with
    | some e => decide (e ≤ fr.at_)
    | none => false
  { c with
    n := c.n + 1, next := fr.at_ + 8 * fr.per, hist := (fr :: c.hist).take 24
    stopFrom := if clear then none else c.stopFrom, stopTo := if clear then none else c.stopTo }

/-- The timeline moves on: a follower that has reached the frame of the actor's last word takes it (R12), and the resampler's position is
set for the next frame. -/
def State.timeline (s : State) (b : Nat) : State :=
  let c := s.bayChain b
  let c1 := match c.steer with
    | some p => if p.1 = c.n then { c with next := p.2.1, ft := p.2.2, steer := none } else c
    | none => c
  s.setBayChain b (c1.place (s.chainRate b))

/-- FRAME_CLOSE: the bay's frame is posted, tracking moves on, the counters follow (R9, R19, R100–R106). No frames are posted in
Watchman mode (R452). -/
def doFrameClose (bay : Fin 8) (s : State) : State :=
  let b := bay.val
  if !s.closesFrames b || s.inWatchman || !s.frameDue b then s
  else
    let (s1, fr) := (s.setBayChain b (s.bayChain b).stopAtFrame).buildFrame b
    let s2 := (s1.setBayChain b ((s1.bayChain b).after fr)).settleSync b
    let quiet := fr.sig.all (fun e => e.2.all (fun x => !flagGet x.f 6))
    let done := (s2.bayChain b).settling && quiet && s2.fld (A.FLT_SETTLE b) F.FLT_SETTLE_REMAIN == 0
    let s3 := if done then (s2.setBayChain b { s2.bayChain b with settling := false }).raise Ev.FLT_SETTLE_DONE b else s2
    let s4 := s3.setReg64 (A.FLT_FRMCNT_LO b) (A.FLT_FRMCNT_HI b) fr.n
    let s5 := s4.setReg64 (A.FLT_FRMTIME_LO b) (A.FLT_FRMTIME_HI b) fr.stamp
    let s6 := s5.setReg (A.FLT_FRMPER b) (BitVec.ofInt 32 (ratRound (8 * fr.per)))
    let s7 := ((s6.postFrame b fr).track b).timeline b
    if s7.role = 1 then s7.plySend (.change (.timeline b (fr.n + 1) (s7.devTime (s7.bayChain b).next) (s7.bayChain b).ft)) else s7

/-! ### Steps as executed -/

def execChainRestart (bay : Fin 8) (s : State) : Host.Outcome State Fault Refusal := .next (s.awake (doChainRestart bay))
def execFrameClose (bay : Fin 8) (s : State) : Host.Outcome State Fault Refusal := .next (s.awake (doFrameClose bay))
end Sys2Proof.Machine
end

