-- ==== Sys2Proof/Machine/WaveBranch.lean ====
section
/-! DEFINITION. The wavefront branch and the Watchman feed's filter (R111–R114), with the steps ARRIVAL_DETECT and ARRIVAL_REARM. -/

namespace Sys2Proof.Machine

/-! ### The Watchman feed (R114) -/

/-- A sample reaches the feed of comparator `c`. -/
def State.feedPush (s : State) (c : Nat) (y : Sample) : State :=
  { s with trip := { s.trip with
      wmTaps := tabMod [] s.trip.wmTaps c (fun l => (y :: l).take 23)
      wmNew := tabMod 0 s.trip.wmNew c (fun n => min (n + 1) 3) } }

/-- |x| of the fixed 23-tap half-band over the newest samples, with their flags (assumption 52). -/
def State.feedOut (s : State) (c : Nat) : Nat × SampleFlags :=
  let l := tabGet [] s.trip.wmTaps c
  ((hbOut Config.feedTap 23 l).v.natAbs, joinFlags l)

/-! ### Modal samples (R111, R112) -/

/-- The lane that feeds comparator `c`. -/
def State.feedLane (s : State) (c : Nat) : Option Nat := (List.range 128).find? (fun x => s.laneFeed x == some c)

/-- The three lanes of a bay's wavefront branch, IA, IB, IC, where all exist (R111). -/
def State.waveLanes (s : State) (b : Nat) : List Nat := [0, 1, 2].filterMap (fun p => s.feedLane (3 * b + p))

/-- A bay's branch runs. -/
def State.waveOn (s : State) (b : Nat) : Bool := s.bit (A.FLT_WFCFG b) 31 && (s.waveLanes b).length == 3 && !s.inWatchman

/-- Place of lane `a`'s instants between those of lane `x`, in samples of `x`. -/
def State.wavePlace (s : State) (a x : Nat) : Rat := (s.laneInstant a 0 - s.laneInstant x 0) * 1228800 / 1000000000

/-- Lane `x` on the instant of sample `i` of lane `a`: four samples around it, where all are held; the second part is those samples. -/
def State.waveAligned (s : State) (a x i : Nat) : Option (Rat × List ChainSmp) :=
  let u := s.wavePlace a x
  match (s.heldWin x ((i : Int) + u.floor - 1) 4).filterMap id with
  | [p, q, r, t] =>
    let c (j : Nat) : Rat := Config.waveTap (u - u.floor) j
    some (c 0 * (p.v : Rat) + c 1 * (q.v : Rat) + c 2 * (r.v : Rat) + c 3 * (t.v : Rat), [p, q, r, t])
  | _ => none

/-- The modal sample of index `i`: α, β and γ. -/
def State.waveForm (s : State) (b i : Nat) : Option WaveSmp :=
  match s.waveLanes b with
  | [la, lb, lc] =>
    match (tabGet [] s.chain.smps la).find? (fun e => e.k == i), s.waveAligned la lb i, s.waveAligned la lc i with
    | some a, some y, some z =>
      let all := a :: (y.2 ++ z.2)
      some { k := i
             m := [ratRound ((2 * (a.v : Rat) - y.1 - z.1) / 3), ratRound ((y.1 - z.1) / root3), ratRound (((a.v : Rat) + y.1 + z.1) / 3)]
             ok := all.all (fun e => flagGet e.f 7 && !flagGet e.f 3), clipped := all.any (fun e => flagGet e.f 5) }
    | _, _, _ => none
  | _ => none

/-- The newest index for which every sample of the three lanes is held. -/
def State.waveReady (s : State) (b : Nat) : Nat :=
  match s.waveLanes b with
  | [la, lb, lc] =>
    let new (x : Nat) : Int := (((tabGet [] s.chain.smps x).head?).map (fun e => (e.k : Int))).getD 0
    (min (new la) (min (new lb - (s.wavePlace la lb).floor - 2) (new lc - (s.wavePlace la lc).floor - 2))).toNat
  | _ => 0

/-- The branch takes what the lanes' newest samples complete; it holds 20 ms, of which the store is the last 3,072 samples (R113). -/
def State.waveTake (s : State) (b : Nat) : State :=
  let c := s.bayChain b
  if !s.waveOn b then s
  else
    let i := s.waveReady b
    if ((c.wave.head?).map (fun w => Nat.ble i w.k)).getD false then s
    else
      match s.waveForm b i with
      | none => s
      | some w => s.setBayChain b { c with wave := w :: c.wave.filter (fun q => Nat.blt i (q.k + 24577))
                                           excl := c.excl.filter (fun e => Nat.blt i (e.2 + 24577)) }

/-! ### Arrivals (R112, R113) -/

/-- Value of a mode in a modal sample. -/
def WaveSmp.mode (w : WaveSmp) (m : Nat) : Int := w.m.getD m 0

/-- Differences of a mode over samples in a row, newest first: index and Δm. -/
def waveDiffs (m : Nat) : List WaveSmp → List (Nat × Int)
  | [] => []
  | w :: l =>
    match l with
    | [] => []
    | v :: _ => if v.k + 1 = w.k then (w.k, w.mode m - v.mode m) :: waveDiffs m l else waveDiffs m l

/-- The noise of a mode: the RMS of the differences before the newest, leaving out the 1 ms after each arrival; 0 without one. -/
def BayChain.sigma (c : BayChain) (m : Nat) : Rat :=
  let l := ((waveDiffs m c.wave).drop 1).filter (fun d => !c.excl.any (fun e => e.1 == m && Nat.ble e.2 d.1 && Nat.blt d.1 (e.2 + 1229)))
  if l.isEmpty then 0 else realSqrt (mkRat (l.foldl (fun a d => a + d.2 * d.2) 0) l.length)

/-- The effective threshold max(THR, K × σ). -/
def State.waveThr (s : State) (b m : Nat) : Rat :=
  ratMax (s.fld (A.FLT_WFCFG b) F.FLT_WFCFG_THR : Nat) ((s.fld (A.FLT_WFCFG b) F.FLT_WFCFG_K : Nat) * (s.bayChain b).sigma m)

/-- Instant of a modal sample on the sample clock: that of IA's sample. -/
def State.waveInstant (s : State) (b k : Nat) : Rat := s.laneInstant ((s.waveLanes b).headD 0) k

/-- The instant of a crossing between the samples before and at index `k`, by linear interpolation of |Δm|. -/
def State.crossing (s : State) (b k : Nat) (d0 d1 thr : Rat) : Rat :=
  let t := s.waveInstant b k
  if d0 < thr ∧ d0 < d1 then t - samplesNs ((d1 - thr) / (d1 - d0)) 1228800 else t

/-- ARRIVAL_DETECT: the newest |Δm| of an armed mode has reached the effective threshold; the arrival is stamped on a 50 ns grid and the
mode waits to re-arm. -/
def doArrivalDetect (bay : Fin 8) (mode : Fin 3) (s : State) : State :=
  let c := s.bayChain bay
  let thr := s.waveThr bay mode
  match c.wave, waveDiffs mode c.wave with
  | w :: v :: _, (k, d) :: rest =>
    if !s.waveOn bay || c.opened.any (fun a => a.1.mode == mode.val) || !w.ok || !v.ok || k ≠ w.k || decide ((d.natAbs : Rat) < thr) then s
    else
      let d0 : Rat := ((rest.head?.map (fun e => (e.2.natAbs : Rat))).getD 0)
      let t := (s.devTime (s.crossing bay k d0 (d.natAbs : Rat) thr) + 25) / 50 * 50
      let a : Arrival := { t := t, mode := mode, neg := decide (d < 0), clipped := w.clipped || v.clipped, peak := 0, frame := 0 }
      (s.setBayChain bay { c with opened := c.opened ++ [(a, k)], excl := (mode.val, k) :: c.excl }).incWrap (A.FLT_WFSTAT bay)
        F.FLT_WFSTAT_ARRIVALS
  | _, _ => s

/-- The largest |Δm| of a mode from index `k` on. -/
def BayChain.peakFrom (c : BayChain) (m k : Nat) : Nat :=
  ((waveDiffs m c.wave).filter (fun d => Nat.ble k d.1)).foldl (fun a d => max a d.2.natAbs) 0

/-- The mode has stayed below half the threshold for its last four samples, all after index `k`. -/
def BayChain.quiet4 (c : BayChain) (m k : Nat) (thr : Rat) : Bool :=
  let l := ((waveDiffs m c.wave).take 4).filter (fun d => Nat.blt k d.1)
  l.length == 4 && l.all (fun d => decide (2 * (d.2.natAbs : Rat) < thr))

/-- ARRIVAL_REARM: the mode re-arms; its record, with the peak of the re-arm period, is posted to the bay's engine, or lost at a full
queue. -/
def doArrivalRearm (bay : Fin 8) (mode : Fin 3) (s : State) : State :=
  let b := bay.val
  let c := s.bayChain b
  match c.opened.find? (fun a => a.1.mode == mode.val) with
  | none => s
  | some (a, k) =>
    if !c.quiet4 mode k (s.waveThr b mode) then s
    else
      let s1 := s.setBayChain b { c with opened := c.opened.filter (fun x => x.1.mode != mode.val) }
      let c1 := s1.bayChain b
      if 32 ≤ c1.arrivals.length then
        let s2 := s1.incSat (A.FLT_WFSTAT b) F.FLT_WFSTAT_LOST Ev.FLT_CNT_SAT b
        if c1.lostAt = some c1.n then s2
        else (s2.setBayChain b { s2.bayChain b with lostAt := some c1.n }).raise Ev.FLT_WF_LOST b
      else
        let r := { a with peak := min (c.peakFrom mode k) (2 ^ 24 - 1), frame := (s.reg (A.FLT_FRMCNT_LO b)).toNat }
        s1.setBayChain b { c1 with arrivals := c1.arrivals ++ [r] }

/-! ### Steps as executed -/

def execArrivalDetect (bay : Fin 8) (mode : Fin 3) (_ _ _ : Computed) (s : State) : Host.Outcome State Fault Refusal :=
  .next (s.awake (doArrivalDetect bay mode))
def execArrivalRearm (bay : Fin 8) (mode : Fin 3) (_ : Computed) (s : State) : Host.Outcome State Fault Refusal := .next (s.awake (doArrivalRearm bay mode))

end Sys2Proof.Machine
end

