-- ==== Sys2Proof/Machine/Calibration.lean ====
section
/-! DEFINITION. Converters, rotation, calibration, the suspect search and out-of-turn take-overs (R33, R47, R55, R66, R68–R80, R84,
R86), and their steps. -/

namespace Sys2Proof.Machine

/-! ### Converters and attachments -/

/-- CAL_CONV STATE: 0 in service, 1 spare, 2 calibrating, 3 retired. -/
def State.convState (s : State) (n : Nat) : Nat := s.fld (A.CAL_CONV n) F.CAL_CONV_STATE

def State.setConvState (s : State) (n v : Nat) : State := s.setFld (A.CAL_CONV n) F.CAL_CONV_STATE v

/-- Rotation is halted by a retired converter on the S16 mux (R74). -/
def State.rotHalted (s : State) : Bool := s.convState (s.conv 16) == 3

/-- An injection runs on some bay. -/
def State.injRunning (s : State) : Bool := s.fld A.CAL_INJ_STAT F.CAL_INJ_STAT_BUSY != 0

/-- CAL_STAT.ROT: 2 halted, 3 start-up calibration, 1 deferred or disabled, 0 running (R70, R74, R75, R84, R86). -/
def State.rotSync (s : State) : State :=
  let v := if s.rotHalted then 2
    else if s.acq.calStart.isSome then 3
    else if s.acq.search.isSome || !s.acq.searchQ.isEmpty || s.injRunning || !s.bit A.CAL_ROT_CFG 31 then 1
    else 0
  s.setFld A.CAL_STAT F.CAL_STAT_ROT v

/-- The cross-check counts of the pairs that hold slice `k` restart (R55). -/
def State.xckRestart (s : State) (k : Nat) : State :=
  s.forEach [k % 16, (k + 15) % 16] (fun j s => s.setSlice j { s.slice j with xck := 0 })

/-- The spare is attached to slice `k` and the slice's converter to the S16 mux (R68). `st` is the released converter's state. -/
def State.takeOver (s : State) (k st : Nat) : State :=
  let old := s.conv k
  let new := s.conv 16
  let s1 := (s.setFld (A.ACQ_SLICE k) F.ACQ_SLICE_CONV new).setFld (A.ACQ_SLICE 16) F.ACQ_SLICE_CONV old
  let s1 := s1.setSlice k { s1.slice k with prevConv := old, movedAt := s1.tim.smp }
  let s1 := s1.setSlice 16 { s1.slice 16 with prevConv := new, movedAt := s1.tim.smp }
  let s2 := ((s1.setConvState new 0).setConvState old st).setFld A.CAL_STAT F.CAL_STAT_SPARE old
  (s2.xckRestart k).raise Ev.ACQ_SLICE_MOVED k

/-- What the spare does. -/
def State.setUse (s : State) (u : SpareUse) : State := { s with acq := { s.acq with use := u } }

/-- A released converter starts calibrating. -/
def State.calBegin (s : State) (second : Bool) (why : Nat) : State :=
  ((s.setConvState (s.conv 16) 2).setUse (.cal (s.conv 16) s.tim.up second why)).rotSync

/-! ### Forming, judging and committing a calibration (R71–R73, assumption 53) -/

/-- Nominal VREF_MID, 2.048 V, in R34 LSB. -/
def vrefNominal : Int := 0x400000

/-- The tables of a calibration. -/
structure CalTables where
  ofs : List Int
  gain : List Nat
  lin : List Int
  dacOfs : Int
  dacGain : Nat
  deriving DecidableEq, Repr

/-- OFS of gain 2^g: what AGND reads, in R34 LSB before the gain. -/
def calOfs (r : CalResult) (g : Nat) : Int := ratRound (mkRat (r.agnd.getD g 0) 1024 * 2 ^ (6 - g))

/-- A ×1 reading from the sum of 1,024 codes, in R34 LSB before the gain. -/
def calRead1 (r : CalResult) (sum : Int) : Rat := 64 * mkRat sum 1024 - calOfs r 0

/-- GAIN for ×1: VREF_MID reads its nominal value. -/
def calGain1 (r : CalResult) : Rat := (vrefNominal : Rat) / calRead1 r r.vref

/-- The test DAC's output in R34 LSB at −3.5 V and +3.5 V, ±28,000 codes. -/
def calDacAt (r : CalResult) (high : Bool) : Rat := calGain1 r * calRead1 r ((if high then r.dacHigh else r.dacLow).getD 0 0)

/-- R34 LSB per DAC code, and the output at code 0. -/
def calDacStep (r : CalResult) : Rat := (calDacAt r true - calDacAt r false) / 56000
def calDacZero (r : CalResult) : Rat := (calDacAt r true + calDacAt r false) / 2

/-- GAIN of gain 2^g: at ×2, ×4, ×8 the DAC's swing of ±24,576/2^g codes reads its transferred value. -/
def calGainAt (r : CalResult) (g : Nat) : Rat :=
  if g = 0 then calGain1 r
  else calDacStep r * (49152 / 2 ^ g) / (mkRat (r.dacHigh.getD g 0 - r.dacLow.getD g 0) 1024 * 2 ^ (6 - g))

/-- DAC code of ramp step j: ±4.0 V, ±32,000 codes, in 4,096 steps. -/
def rampCode (j : Nat) : Int := -32000 + (j * 64000 / 4095 : Nat)

/-- Departure of ramp step j from the line, in 1/64 code, with the step's mean code. -/
def calLinPoint (r : CalResult) (j : Nat) (sum : Int) : Rat × Rat :=
  let c := mkRat sum 14
  (c, (calDacZero r + calDacStep r * (rampCode j : Rat)) / calGain1 r + calOfs r 0 - 64 * c)

/-- LIN at breakpoint p: the mean departure of the steps within half a spacing; beyond the ramp that of the nearest one inside. -/
def calLinAt (r : CalResult) (p : Nat) : Int :=
  let q : Int := max 1 (min 63 (p : Int))
  let c : Rat := ((-131072 + 4096 * q : Int) : Rat)
  let l := ((r.ramp.zip (List.range 4096)).map (fun e => calLinPoint r e.2 e.1)).filter (fun e => decide (c - 2048 ≤ e.1) && decide (e.1 < c + 2048))
  if l.isEmpty then 0 else ratRound (l.foldl (fun a e => a + e.2) 0 / l.length)

/-- The tables a calibration forms. -/
def calTables (r : CalResult) : CalTables :=
  { ofs := [0, 1, 2, 3].map (calOfs r), gain := [0, 1, 2, 3].map (fun g => (ratRound (calGainAt r g * 2 ^ 30)).toNat)
    lin := (List.range 65).map (calLinAt r), dacOfs := ratRound (calDacZero r), dacGain := (ratRound (calDacStep r * 65536)).toNat }

/-- The offset noise at every gain is at most 3 codes: N Σc² − (Σc)² ≤ (3 N)². -/
def calQuiet (r : CalResult) : Bool :=
  [0, 1, 2, 3].all (fun g => decide (1024 * (r.agndSq.getD g 0 : Int) - r.agnd.getD g 0 * r.agnd.getD g 0 ≤ (3 * 1024) ^ 2))

/-- VREF_MID is within ±0.1 % of its nominal value at a ×1 gain. -/
def calVrefOk (r : CalResult) (gain : Nat) : Bool :=
  let v := mkRat gain (2 ^ 30) * calRead1 r r.vref
  decide (1000 * (v - vrefNominal) ≤ vrefNominal) && decide (1000 * ((vrefNominal : Rat) - v) ≤ vrefNominal)

/-- The tests of R73, for converter `n`. -/
def State.calAccepted (s : State) (n : Nat) (r : CalResult) : Bool :=
  let t := calTables r
  t.ofs.all (fun o => Nat.ble o.natAbs 4096) && t.gain.all (fun g => Nat.ble (99 * 2 ^ 30) (100 * g) && Nat.ble (100 * g) (101 * 2 ^ 30)) &&
    t.lin.all (fun l => Nat.ble l.natAbs 512) && calQuiet r && calVrefOk r (s.reg (A.CAL_GAIN n 0)).toNat

/-- Write consecutive items of a table. -/
def State.putList {α : Type} (s : State) (l : List α) (f : Nat → α → State → State) : State :=
  (l.foldl (fun (p : Nat × State) x => (p.1 + 1, f p.1 x p.2)) (0, s)).2

/-- Write one gain's offset and gain of a converter. -/
def State.putGain (s : State) (n g : Nat) (o : Int) (k : Nat) : State :=
  (s.setFld (A.CAL_OFS n g) F.CAL_OFS_OFS (BitVec.ofInt 24 o).toNat).setReg (A.CAL_GAIN n g) (BitVec.ofNat 32 k)

/-- The new tables replace the old ones. -/
def State.calCommit (s : State) (n : Nat) (r : CalResult) : State :=
  let t := calTables r
  let s1 := s.putList (t.ofs.zip t.gain) (fun g p s => s.putGain n g p.1 p.2)
  let s2 := s1.putList t.lin (fun p l s => s.setReg (A.CAL_LIN n p) (BitVec.ofNat 32 (BitVec.ofInt 16 l).toNat))
  let s3 := (s2.setReg A.CAL_DAC_OFS (BitVec.ofNat 32 (BitVec.ofInt 24 t.dacOfs).toNat)).setReg A.CAL_DAC_GAIN (BitVec.ofNat 32 t.dacGain)
  let s4 := (s3.setFld (A.CAL_CONV n) F.CAL_CONV_TEMP (BitVec.ofInt 8 r.temp).toNat).setFld (A.CAL_CONV n) F.CAL_CONV_AGE 0
  { s4 with acq := { s4.acq with calAt := tabPut none s4.acq.calAt n (some s4.tim.up) } }.incWrap A.CAL_CNT F.CAL_CNT_CALS

/-- A rejected calibration is counted and raised; FAIL1 marks the first of a sequence. -/
def State.calReject (s : State) (n : Nat) : State :=
  ((s.setBit (A.CAL_CONV n) 27 true).incWrap A.CAL_CNT F.CAL_CNT_FAILS).raise Ev.CAL_CONV_FAIL n

/-- A converter is retired (R74). -/
def State.calRetire (s : State) (n : Nat) : State := (s.setConvState n 3).raise Ev.CAL_CONV_RETIRED n

/-! ### Suspect marks (R55, R77) -/

/-- Slice `k` is in a pair marked suspect. -/
def State.pairSuspect (s : State) (k : Nat) : Bool :=
  Nat.blt k 16 && (s.bit A.ACQ_XCK_STAT k || s.bit A.ACQ_XCK_STAT ((k + 15) % 16))

/-- ACQ_SLICE.SUSPECT of a pair's slices follows SUSP_PAIR. -/
def State.suspectSync (s : State) (k : Nat) : State :=
  s.forEach [k, (k + 1) % 16] (fun j s => s.setBit (A.ACQ_SLICE j) 31 (s.pairSuspect j))

/-- A pair is marked suspect and a search falls due. -/
def State.markSuspect (s : State) (k : Nat) : State :=
  if s.bit A.ACQ_XCK_STAT k then s
  else
    let s1 := ((s.setBit A.ACQ_XCK_STAT k true).suspectSync k).raise Ev.ACQ_XCK_SUSPECT k
    { s1 with acq := { s1.acq with searchQ := s1.acq.searchQ ++ [k] } }.rotSync

/-- A suspect mark is cleared; the pair is counted afresh. -/
def State.clearSuspect (s : State) (k : Nat) : State :=
  (((s.setBit A.ACQ_XCK_STAT k false).suspectSync k).setSlice k { s.slice k with xck := 0 }).raise Ev.ACQ_XCK_CLEAR k

/-! ### Rotation -/

/-- CAL_ROT_CFG.INTERVAL in ns. -/
def State.rotInterval (s : State) : Nat := s.fld A.CAL_ROT_CFG F.CAL_ROT_CFG_INTERVAL * 100000000

/-- The rotation interval has run since the last shadowing began; before the first one it has: the first interval after ACQ_REEL_SWITCH
(R75) is taken to begin at the switch (assumption 54). -/
def State.rotDue (s : State) (n : Nat) : Bool :=
  match s.acq.rotLast with
  | none => true
  | some t => Nat.ble (t + n * s.rotInterval) s.tim.up

/-- Nothing defers a scheduled rotation. -/
def State.rotFree (s : State) : Bool :=
  s.cfg.switched.isSome && s.acq.use == .idle && s.acq.search.isNone && s.acq.searchQ.isEmpty && s.acq.takeQ.isEmpty && s.acq.attachQ.isEmpty &&
    !s.injRunning && !s.rotHalted && s.acq.calStart.isNone && !s.inWatchman

/-- ROTATION_DUE: at a Reel cycle boundary the next slice's shadowing starts; with rotation disabled the spare recalibrates in place every 17 intervals. -/
def doRotationDue (s : State) : State :=
  if !s.rotFree then s.rotSync
  else if s.bit A.CAL_ROT_CFG 31 then
    (if s.rotDue 1 && s.onCycle then
      let s1 := s.setUse (.shadow (s.fld A.CAL_STAT F.CAL_STAT_NEXT) 0 s.slotNow 0 false)
      { s1 with acq := { s1.acq with rotLast := some s1.tim.up } }.rotSync
    else s.rotSync)
  else if s.rotDue 17 then
    ({ s with acq := { s.acq with rotLast := some s.tim.up } }).calBegin false 1
  else s.rotSync

/-- 64 Reel cycles have run since slot `start`, and a Reel cycle begins. -/
def State.shadowEnded (s : State) (start : Nat) : Bool := s.onCycle && s.slotBegun (start + 64 * s.cycleL)

/-- SHADOW_END: after 64 Reel cycles the spare takes the slice over and the released converter calibrates; a shadowing of a slice
that has become suspect meanwhile, so that a search waits, is abandoned (R68, R76, R84). -/
def doShadowEnd (s : State) : State :=
  match s.acq.use with
  | .shadow k 0 start _ mism =>
    if !s.shadowEnded start then s
    else if s.acq.searchQ.any (fun q => q == k || q == (k + 15) % 16) then s.setUse .idle
    else
      let s1 := if mism then s.raise Ev.CAL_SHADOW_MISMATCH k else s
      (s1.takeOver k 2).calBegin false 0
  | _ => s

/-- The search ends with a result. -/
def State.searchEnd (s : State) (k result : Nat) : State :=
  let s1 := (s.setFld A.CAL_SEARCH F.CAL_SEARCH_STATE 0).setFld A.CAL_SEARCH F.CAL_SEARCH_RESULT result
  ({ s1 with acq := { s1.acq with search := none } }.raise Ev.CAL_SEARCH_DONE k).rotSync

/-- The second calibration or the retirement that follows a rejection, or what follows a commit: the end of a rotation, or the
search's second run (R73, R74, R77). A search whose spare is retired ends there: both slices have disagreed, RESULT 3. -/
def State.calFinish (s : State) (n : Nat) (ok second : Bool) (why : Nat) : State :=
  if !ok then
    (if !second then (s.calReject n).calBegin true why
     else
      let s1 := ((s.calReject n).calRetire n).setUse .idle
      match s1.acq.search with
      | some q => s1.searchEnd q.k 3
      | none => s1.rotSync)
  else
    let s1 := ((s.setBit (A.CAL_CONV n) 27 second).setConvState n 1).setUse .idle
    match why with
    | 0 =>
      ((s1.setFld A.CAL_STAT F.CAL_STAT_NEXT ((s1.fld A.CAL_STAT F.CAL_STAT_NEXT + 1) % 16)).incWrap A.CAL_STAT
        F.CAL_STAT_ROUNDS).rotSync
    | 2 =>
      (match s1.acq.search with
      | some q => ((s1.setUse (.shadow q.k 1 s1.slotNow 0 false)).setFld A.CAL_SEARCH F.CAL_SEARCH_STATE 1).rotSync
      | none => s1.rotSync)
    | _ => s1.rotSync

/-- CALIBRATION_DONE: 12 ms after a converter's calibration began, its result is judged; the tables are committed or kept. -/
def doCalibrationDone (r : CalResult) (s : State) : State :=
  match s.acq.use with
  | .cal n start second why =>
    if s.tim.up < start + 12000000 then s
    else if s.calAccepted n r then (s.calCommit n r).calFinish n true second why
    else s.calFinish n false second why
  | _ => s

/-! ### The suspect search -/

/-- SEARCH_START: at a Reel cycle boundary the spare shadows the first slice of the oldest marked pair; a rotation's shadowing is abandoned, a calibration
waited for (R77, R84). -/
def doSearchStart (s : State) : State :=
  match s.acq.searchQ, s.acq.use with
  | _, .cal .. => s
  | [], _ => s
  | k :: rest, _ =>
    if s.acq.search.isSome || s.rotHalted || s.acq.calStart.isSome || s.inWatchman || !s.onCycle then s
    else
      let s1 := { s with acq := { s.acq with search := some { k := k, dis0 := false, second := false }, searchQ := rest } }
      let s2 := (s1.setFld A.CAL_SEARCH F.CAL_SEARCH_STATE 1).setFld A.CAL_SEARCH F.CAL_SEARCH_PAIR k
      (s2.setUse (.shadow k 1 s2.slotNow 0 false)).rotSync

/-- The spare takes over the one slice of the pair that disagrees. -/
def State.searchTake (s : State) (k j result : Nat) : State :=
  ((((s.setUse .idle).takeOver j 2).clearSuspect k).searchEnd k result).calBegin false 1

/-- SEARCH_PHASE_END: the first phase hands to the second; the second gives the outcome of R77. Where one slice disagrees, RESULT is 1 for
slice k and 2 for slice k + 1: the spec names both values without saying which is which (assumption 54). -/
def doSearchPhaseEnd (s : State) : State :=
  match s.acq.use, s.acq.search with
  | .shadow j st start _ mism, some q =>
    if st = 0 || !s.shadowEnded start then s
    else
      let s0 := if mism then s.raise Ev.CAL_SHADOW_MISMATCH j else s
      if st = 1 then
        let s1 := { s0 with acq := { s0.acq with search := some { q with dis0 := mism } } }
        (s1.setFld A.CAL_SEARCH F.CAL_SEARCH_STATE 2).setUse (.shadow ((q.k + 1) % 16) 2 s1.slotNow 0 false)
      else if q.dis0 && !mism then s0.searchTake q.k q.k 1
      else if !q.dis0 && mism then s0.searchTake q.k ((q.k + 1) % 16) 2
      else if !q.dis0 then ((s0.setUse .idle).clearSuspect q.k).searchEnd q.k 0
      else if q.second then (s0.setUse .idle).searchEnd q.k 3
      else
        let s1 := { s0 with acq := { s0.acq with search := some { q with second := true } } }
        (s1.setFld A.CAL_SEARCH F.CAL_SEARCH_STATE 3).calBegin false 2
  | _, _ => s

/-- The tests of a slice count afresh, and its PLAUS from them ends. -/
def State.diagFresh (s : State) (k : Nat) : State := s.setSlice k { s.slice k with diagBad := false, runs := [0, 0, 0, 0, 0, 0] }

/-- OUT_OF_TURN_TAKEOVER: at a Reel cycle boundary the spare takes over a slice that failed its internal tests, and a scheduled shadowing
waits until after; the spare itself calibrates at once (R80, R84). -/
def doOutOfTurnTakeover (slice : Fin 17) (s : State) : State :=
  let k := slice.val
  match s.acq.use with
  | .cal .. => s
  | _ =>
    if !s.acq.takeQ.contains k || s.rotHalted || s.acq.search.isSome || s.inWatchman || (k != 16 && !s.onCycle) then s
    else
      let late := s.acq.use != .idle
      let s1 := { s with acq := { s.acq with takeQ := s.acq.takeQ.filter (· != k), rotLast := if late then none else s.acq.rotLast } }
      if k = 16 then (s1.diagFresh 16).calBegin false 1
      else ((s1.diagFresh k).takeOver k 2).calBegin false 1

/-- REEL_CYCLE_BOUNDARY: the take-overs that start-up calibration left due are made (R33, R75). A spare that is itself retired takes none:
the slice keeps its converter. -/
def doReelCycleBoundary (s : State) : State :=
  if s.cfg.switched.isNone || !s.onCycle then s
  else
    match s.acq.attachQ with
    | [] => s
    | k :: rest =>
      let s1 : State := { s with acq := { s.acq with attachQ := rest } }
      if s1.rotHalted then s1.rotSync else (s1.takeOver k 3).rotSync

/-! ### Before the image -/

/-- The default Reel of a slice (R47). -/
def defaultReel (k : Nat) : List Word :=
  if k < 16 ∧ k % 2 = 0 then
    [0x00000000, 0x00020000, 0x00040000, 0x40002000, 0x00000000, 0x00020000, 0x00040000, 0xC0002000]
  else [0xC0007800]

/-- Open slots of a Reel per cycle: slots of OPEN entries. -/
def openSlots (l : List Word) : Nat :=
  l.foldl (fun a w => a + (if bitGet w 30 then w.toNat / 2 ^ 11 % 64 + 1 else 0)) 0

/-- Put a Reel in force on slice `k`. -/
def State.putReel (s : State) (k : Nat) (l : List Word) : State :=
  let s0 := s.forEach (List.range 256) (fun e s => s.setReg (A.ACQ_REEL k e) 0)
  let s1 := s0.putList l (fun e w s => s.setReg (A.ACQ_REEL k e) w)
  (s1.setFld (A.ACQ_SLICE k) F.ACQ_SLICE_ENTRIES l.length).setFld (A.ACQ_SLICE k) F.ACQ_SLICE_OPEN (min (openSlots l) 255)

/-- SAMPLE_CLOCK_LOCK: the sample domain runs; quick calibration gives every converter its ×1 offset and gain; the default Reels and
the OTP Watchman thresholds are in force; the start-up calibration runs (R47, R66, R75, R146, R440). With PFW asserted the start stops here,
in Watchman mode (R518). -/
def doSampleClockLock (q : List CalResult) (s : State) : State :=
  if s.fld A.SUP_STAT F.SUP_STAT_PHASE ≠ 0 || !s.pwr.refclk || s.bit A.PWR_DOMAIN_STAT 1 then s
  else
    let s1 := s.setBit A.PWR_DOMAIN_STAT 1 true
    let s2 := s1.putList q (fun n r s =>
      if s.convState n = 3 then s else s.putGain n 0 (calOfs r 0) (ratRound (calGain1 r * 2 ^ 30)).toNat)
    let s3 := s2.forEach (List.range 17) (fun k s => s.putReel k (defaultReel k))
    let s4 := { s3 with acq := { s3.acq with
      calStart := some s3.tim.up, attachQ := (List.range 16).filter (fun k => s3.convState (s3.conv k) == 3) } }.rotSync
    let any := (List.range 8).any (fun b => s4.fld (A.PRT_WM_THR b) F.PRT_WM_THR_THR != 0)
    let s5 := if any then (s4.setFld A.PRT_STAT F.PRT_STAT_WM_SRC 1).raise Ev.PRT_WM_SRC noIndex else s4
    let s6 := s5.setReg A.SUP_TWM (BitVec.ofNat 32 ((s5.tim.up - s5.pwr.goodAt) / 1000))
    if s6.pwr.pfw then
      let s7 := s6.forEach [0, 1, 2, 3] (fun c s => s.setReg (A.PWR_CLUSTER c) 3)
      let s8 : State := { (s7.setBit A.PWR_DOMAIN_STAT 3 false).setBit A.PWR_DOMAIN_STAT 4 true with acq := { s7.acq with calStart := none, attachQ := [] } }
      (s8.setFld A.SUP_STAT F.SUP_STAT_PHASE 8).raise Ev.SUP_POWER 0
    else s6.setFld A.SUP_STAT F.SUP_STAT_PHASE 1

/-- One converter's start-up result: committed, rejected once, or retired after the second (R75); one that stays retired from before
converts nothing (R74). -/
def State.startupCal (s : State) (n : Nat) (r : CalResult) : State :=
  if s.convState n = 3 then s
  else if s.calAccepted n r then
    let s1 := (s.calCommit n r).setBit (A.CAL_CONV n) 27 (s.acq.failed1.contains n)
    { s1 with acq := { s1.acq with failed1 := s1.acq.failed1.filter (· != n) } }
  else if !s.acq.failed1.contains n then
    let s1 := s.calReject n
    { s1 with acq := { s1.acq with failed1 := s1.acq.failed1 ++ [n] } }
  else
    let s1 := (s.calReject n).calRetire n
    let ks := (List.range 16).filter (fun k => s1.conv k == n)
    { s1 with acq := { s1.acq with failed1 := s1.acq.failed1.filter (· != n), attachQ := s1.acq.attachQ ++ ks } }

/-- STARTUP_CAL_DONE: the results of the converters that have not passed yet, the first time of all 17. -/
def doStartupCalDone (r : List CalResult) (s : State) : State :=
  match s.acq.calStart with
  | none => s
  | some t =>
    if s.tim.up < t + 12000000 then s
    else
      let again := s.acq.failed1
      let s1 := s.putList r (fun n x s => if again.isEmpty || again.contains n then s.startupCal n x else s)
      if s1.acq.failed1.isEmpty then { s1 with acq := { s1.acq with calStart := none } }.rotSync
      else { s1 with acq := { s1.acq with calStart := some s1.tim.up } }

/-! ### Steps as executed -/

def execRotationDue (s : State) : Host.Outcome State Fault Refusal := .next (s.awake doRotationDue)
def execShadowEnd (s : State) : Host.Outcome State Fault Refusal := .next (s.awake doShadowEnd)
def execCalibrationDone (r : CalResult) (s : State) : Host.Outcome State Fault Refusal := .next (s.awake (doCalibrationDone r))
def execSearchStart (s : State) : Host.Outcome State Fault Refusal := .next (s.awake doSearchStart)
def execSearchPhaseEnd (s : State) : Host.Outcome State Fault Refusal := .next (s.awake doSearchPhaseEnd)
def execOutOfTurnTakeover (slice : Fin 17) (s : State) : Host.Outcome State Fault Refusal := .next (s.awake (doOutOfTurnTakeover slice))
def execReelCycleBoundary (s : State) : Host.Outcome State Fault Refusal := .next (s.awake doReelCycleBoundary)
def execSampleClockLock (q : List CalResult) (s : State) : Host.Outcome State Fault Refusal := .next (doSampleClockLock q s)
def execStartupCalDone (r : List CalResult) (s : State) : Host.Outcome State Fault Refusal := .next (doStartupCalDone r s)

end Sys2Proof.Machine
end

