-- ==== Sys2Proof/Machine/Injection.lean ====
section
/-! DEFINITION. External-path checks: open input, step injection, pair balance (R81–R84, R443), and their steps. -/

namespace Sys2Proof.Machine

/-! ### Failed paths (R82) -/

/-- Bit of an input in the three-word maps of CAL_OPEN_W and CAL_INJ_W. -/
def State.pinBit (s : State) (w : Nat → Nat) (pin : Nat) : Bool := s.bit (w (pin / 32)) (pin % 32)

/-- The pair-balance check has failed a lane's signal. -/
def State.pbFailedLane (s : State) (x : Nat) : Bool :=
  (s.sigsOfLane x).any (fun g =>
    let k := s.fld (A.FLT_SIG g) F.FLT_SIG_KIND
    Nat.ble 4 k && Nat.ble k 6 && s.bit A.CAL_PB (4 * s.sigBay g + (k - 4)))

/-- Some check has failed an input's path. -/
def State.pathFailed (s : State) (pin : Nat) : Bool :=
  s.pinBit A.CAL_OPEN_W pin || s.pinBit A.CAL_INJ_W pin || (s.lanesOn pin).any s.pbFailedLane

/-- Change something about an input's path and raise what becomes of it. -/
def State.pathChange (s : State) (pin : Nat) (f : State → State) : State :=
  let before := s.pathFailed pin
  let s1 := f s
  let after := s1.pathFailed pin
  if after && !before then s1.raise Ev.CAL_PATH_FAIL pin
  else if before && !after then s1.raise Ev.CAL_PATH_CLEAR pin
  else s1

/-- A bit of a path map. -/
def State.setPin (s : State) (w : Nat → Nat) (pin : Nat) (b : Bool) : State :=
  s.pathChange pin (fun s => s.setBit (w (pin / 32)) (pin % 32) b)

/-! ### Injection -/

/-- The bay of an input's lanes; 8 where every one of them has NOBAY. -/
def State.pinBay (s : State) (p : Nat) : Nat :=
  (((s.lanesOn p).find? (fun x => !s.bit (A.ACQ_LANE x) 7)).map s.laneBay).getD 8

/-- Inputs of a bay with a declared lane; for 8 those that feed no bay, which only the start injection of the device drives. -/
def State.bayPins (s : State) (b : Nat) : List Nat := (List.range 96).filter (fun p => !(s.lanesOn p).isEmpty && s.pinBay p == b)

/-- A bay's bit of a field of CAL_INJ_STAT. -/
def State.setInjBit (s : State) (lo b : Nat) (v : Bool) : State := if b < 8 then s.setBit A.CAL_INJ_STAT (lo + b) v else s

/-- The image's entry for the signal an input feeds. -/
def State.pinSignal (s : State) (p : Nat) : Option SignalEntry :=
  match (s.lanesOn p).flatMap s.sigsOfLane, s.cfg.image with
  | g :: _, some i => i.signals[g]?
  | _, _ => none

def State.injGain (s : State) (p : Nat) : Rat := ((s.pinSignal p).map (fun e => fpVal e.injGain)).getD 0
def State.injTau (s : State) (p : Nat) : Rat := ((s.pinSignal p).map (fun e => fpVal e.injTau)).getD 0

/-- The reference lane of an input: its ×1 lane, else its only lane (R83). -/
def State.refLane (s : State) (p : Nat) : Option Nat :=
  match (s.lanesOn p).find? (fun x => s.laneGain x == 0) with
  | some x => some x
  | none => (s.lanesOn p).head?

/-- Decay over a time in ns with a time constant in s. -/
def decay (ns : Rat) (tau : Rat) : Rat := realExp (-(ns / (tau * 1000000000)))

/-- The response to 0, +1, −1, 0 V of 5 ms each, shaped by the first-order time constant, in R34 LSB for gain 1. -/
def injShape (ns tau : Rat) : Rat :=
  let v : Rat := 2048000
  let seg : Rat := 5000000
  if ns < seg then 0
  else if ns < 2 * seg then v * (1 - decay (ns - seg) tau)
  else
    let y1 := v * (1 - decay seg tau)
    if ns < 3 * seg then -v + (y1 + v) * decay (ns - 2 * seg) tau
    else
      let y2 := -v + (y1 + v) * decay seg tau
      y2 * decay (ns - 3 * seg) tau

/-- The expected response of an input at an instant. -/
def State.injExpected (s : State) (p : Nat) (t : Rat) : Rat :=
  match tabGet none s.acq.inj (s.pinBay p) with
  | none => 0
  | some st => s.injGain p * injShape (t - (st.1 : Rat)) (s.injTau p)

/-- What happens to an input. -/
def State.setInjPin (s : State) (p : Nat) (v : Option InjPin) : State :=
  { s with acq := { s.acq with injPins := tabPut none s.acq.injPins p v } }

/-- Step injection runs on an input, so its lanes' samples carry TEST. -/
def State.injecting (s : State) (p : Nat) : Bool := tabGet none s.acq.injPins p == some .injected

/-- The injection of a bay ends: BUSY clears and a stopped chain restarts (R443). -/
def State.injClose (s : State) (b : Nat) : State :=
  let s1 := { s with acq := { s.acq with inj := tabPut none s.acq.inj b none, injLast := tabPut none s.acq.injLast b (some s.tim.up) } }
  let s2 := s1.setInjBit 24 b false
  (if b < 8 && (s2.bayChain b).halted then s2.chainStart b s2.tim.smp else s2).rotSync

/-- The reference lane of an input departs from the expected response: the bay's switches open at once, the departed input is
watched, the others are skipped (R83). -/
def State.injDepart (s : State) (p : Nat) (level : Rat) : State :=
  let b := s.pinBay p
  let cut := (s.bayPins b).filter (fun q => q != p && s.injecting q)
  let s1 := s.forEach cut (fun q s => s.setInjPin q (some .skipped))
  let s2 := s1.setInjPin p (some (.watch s1.tim.smp level false))
  (if cut.isEmpty then s2 else s2.setInjBit 8 b true).injClose b

/-- An injected or watched input's reference lane delivers a sample taken at instant `t`. The level that decays during the watch is taken to
be the expected response at the departing sample: with the injected step shaped and scaled, not the step's own level (assumption 56). -/
def State.injSample (s : State) (lane : Nat) (v : Int) (t : Rat) : State :=
  match s.laneAin lane with
  | none => s
  | some p =>
    if s.refLane p ≠ some lane || (s.pinSignal p).isNone then s
    else
      let off (e : Rat) : Bool := decide (2 ^ 23 < 100 * ratMax ((v : Rat) - e) (e - (v : Rat)))
      match tabGet none s.acq.injPins p with
      | some .injected => if off (s.injExpected p t) then s.injDepart p (s.injExpected p t) else s
      | some (.watch t0 level ex) =>
        if (t0 : Rat) + 1000000 ≤ t ∧ t ≤ (t0 : Rat) + 2000000 then
          s.setInjPin p (some (.watch t0 level (ex || off (level * decay (t - (t0 : Rat)) (s.injTau p)))))
        else s
      | _ => s

/-- All lanes of an input stayed below 1 % of full scale in the last 20 ms. -/
def State.pinQuiet (s : State) (p : Nat) : Bool :=
  (s.lanesOn p).all (fun x => (s.lane x).lastBig == 0 || Nat.ble ((s.lane x).lastBig + 20000000) (s.tim.up + 1))

/-- An injection of the bay is due: at start, 20 ms after ACQ_REEL_SWITCH and once; else every PERIOD on a bay out of service. -/
def State.injDue (s : State) (b : Nat) (atStart : Bool) : Bool :=
  match s.cfg.switched with
  | none => false
  | some t =>
    if atStart then
      s.bit A.CAL_INJ_CTL 23 && (tabGet none s.acq.injLast b).isNone && Nat.ble (t + 20000000) s.tim.up
    else
      s.bit A.CAL_INJ_CTL (24 + b) && (match tabGet none s.acq.injLast b with
        | none => true
        | some u => Nat.ble (u + s.fld A.CAL_INJ_CTL F.CAL_INJ_CTL_PERIOD * 100000000) s.tim.up)

/-- A calibration uses the test DAC. -/
def State.calibrating (s : State) : Bool :=
  match s.acq.use with
  | .cal .. => true
  | _ => s.acq.calStart.isSome

/-- The injection of one bay starts: at start an input with signal is skipped, and the bay's chain stops while there is an input to inject. -/
def State.injStart (s : State) (b : Nat) (atStart : Bool) : State :=
  let pins := s.bayPins b
  let go := if atStart then pins.filter s.pinQuiet else pins
  let skip := if atStart then pins.filter (fun p => !s.pinQuiet p) else []
  let s1 := s.setInjBit 8 b (!skip.isEmpty)
  let s2 := s1.forEach skip (fun p s => s.setInjPin p (some .skipped))
  if go.isEmpty then
    { s2 with acq := { s2.acq with injLast := tabPut none s2.acq.injLast b (some s2.tim.up) } }
  else
    let s3 := s2.forEach go (fun p s => s.setInjPin p (some .injected))
    let s4 := ({ s3 with acq := { s3.acq with inj := tabPut none s3.acq.inj b (some (s3.tim.smp, atStart)) } }.setInjBit 24 b true).rotSync
    if atStart && b < 8 && !s4.bit A.FLT_STAT (8 + b) then s4.chainStop b s4.tim.smp else s4

/-- The injection of a bay may start now. -/
def State.injReady (s : State) (b : Nat) (atStart : Bool) : Bool :=
  s.injDue b atStart && !s.calibrating && (tabGet none s.acq.inj b).isNone && !s.inWatchman

/-- STEP_INJECTION_START: the bay's inputs are injected together, or at start all of the device's (R81, R83, R84, R443). -/
def doStepInjectionStart (bay : Fin 8) (atStart : Bool) (s : State) : State :=
  if atStart then s.forEach ((List.range 9).filter (fun b => s.injReady b true)) (fun b t => t.injStart b true)
  else if s.injReady bay false then s.injStart bay false else s

/-! ### Judging a response (R81, assumption 56) -/

/-- Samples of lane `x` taken in a span, oldest first, with their instants. -/
def State.spanSamples (s : State) (x : Nat) (a b : Rat) : List (Rat × Int) :=
  (((tabGet [] s.chain.smps x).map (fun e => (s.laneInstant x e.k, e.v))).filter (fun e => decide (a ≤ e.1) && decide (e.1 < b))).reverse

/-- Mean of samples; 0 of none. -/
def meanSamples (l : List (Rat × Int)) : Rat := if l.isEmpty then 0 else (l.foldl (fun a e => a + (e.2 : Rat)) 0) / l.length

/-- The response amplitude in R34 LSB per volt × 1 V: the swing between the last 1 ms at +1 V and the last 1 ms at −1 V, in parts of that
of unit gain with the input's INJ_TAU. -/
def State.injAmplitude (s : State) (x t0 : Nat) (tau : Rat) : Rat :=
  let lev (a : Rat) : Rat := meanSamples (s.spanSamples x ((t0 : Rat) + a) ((t0 : Rat) + a + 1000000))
  (lev 9000000 - lev 14000000) / (injShape 9500000 tau - injShape 14500000 tau)

/-- The instant of the first sample of a list at or beyond a level, interpolated from the sample before it. -/
def crossAt (level : Rat) : List (Rat × Int) → Option Rat
  | [] => none
  | [e] => if level * level ≤ level * (e.2 : Rat) then some e.1 else none
  | e :: f :: l =>
    if level * level ≤ level * (e.2 : Rat) then some e.1
    else if level * level ≤ level * (f.2 : Rat) then some (e.1 + (f.1 - e.1) * ((level - (e.2 : Rat)) / ((f.2 : Rat) - (e.2 : Rat))))
    else crossAt level (f :: l)

/-- The 63 % time in s: from the step to +1 V until 63 % of the amplitude. -/
def State.injRise (s : State) (x t0 : Nat) (amp : Rat) : Option Rat :=
  (crossAt (63 / 100 * amp * 2048000) (s.spanSamples x ((t0 : Rat) + 5000000) ((t0 : Rat) + 10000000))).map
    (fun t => (t - ((t0 : Rat) + 5000000)) / 1000000000)

/-- Judge one injected input from the samples of its reference lane (R81). -/
def State.injJudge (s : State) (p t0 : Nat) : State :=
  match s.refLane p, s.pinSignal p with
  | some x, some _ =>
    let g := s.injGain p
    let tau := s.injTau p
    let away (x y tol : Rat) : Bool := decide (tol * ratMax y (-y) < x - y) || decide (tol * ratMax y (-y) < y - x)
    let amp := s.injAmplitude x t0 tau
    let bad := away amp g (1 / 4) || (match s.injRise x t0 amp with
      | some r => away r tau (1 / 2)
      | none => true)
    let s1 := if bad then s.setInjBit 16 (s.pinBay p) true else s
    s1.setPin A.CAL_INJ_W p bad
  | _, _ => s

/-- A bay's injection ends after its 20 ms: each input still injected is judged. -/
def State.injEnd (s : State) (b : Nat) : State :=
  match tabGet none s.acq.inj b with
  | none => s
  | some st =>
    if s.tim.smp < st.1 + 20000000 then s
    else
      let on := (s.bayPins b).filter s.injecting
      let s1 := (s.setInjBit 16 b false).forEach on (fun p s => s.injJudge p st.1)
      (s1.forEach on (fun p s => s.setInjPin p none)).injClose b

/-- STEP_INJECTION_END: 20 ms after the start each injected input is judged and the bay's injection ends; with it that of the inputs without
a bay. -/
def doStepInjectionEnd (bay : Fin 8) (s : State) : State := (s.injEnd bay).injEnd 8

/-- INJECTION_WATCH_END: a departure that fell came from the injection and fails the path; one that persists is a signal. -/
def doInjectionWatchEnd (pin : Fin 96) (s : State) : State :=
  match tabGet none s.acq.injPins pin with
  | some (.watch t0 _ ex) =>
    if s.tim.smp < t0 + 2000000 then s
    else
      let s1 := s.setInjPin pin none
      if ex then s1.setInjBit 8 (s1.pinBay pin) true
      else (s1.setInjBit 16 (s1.pinBay pin) true).setPin A.CAL_INJ_W pin true
  | _ => s

/-! ### Open input -/

/-- The fastest lane of an input. -/
def State.fastLane (s : State) (p : Nat) : Option Nat :=
  (s.lanesOn p).foldl (fun a x => match a with
    | some y => if s.laneN x < s.laneN y then some x else a
    | none => some x) none

/-- The check of an input. -/
def State.openChk (s : State) (p : Nat) : OpenChk := tabGet openInit s.acq.openRun p

def State.setOpenChk (s : State) (p : Nat) (e : OpenChk) : State :=
  { s with acq := { s.acq with openRun := tabPut openInit s.acq.openRun p e } }

/-- A sample of a lane enters the mean over the last 100 ms of its input's half-period. -/
def State.openSample (s : State) (lane : Nat) (v : Int) (t : Rat) : State :=
  match s.laneAin lane with
  | none => s
  | some p =>
    let e := s.openChk p
    if s.fastLane p ≠ some lane || decide (t < ((e.at_ : Nat) : Rat) + 25000000) then s
    else s.setOpenChk p { e with sum := e.sum + v, cnt := e.cnt + 1 }

/-- OPEN_CHECK_REVERSAL: the bias reverses and the half-period's mean is compared with the one before (R81). A half-period without a sample
is not compared. -/
def doOpenCheckReversal (pin : Fin 96) (s : State) : State :=
  let p := pin.val
  let e := s.openChk p
  if (s.lanesOn p).isEmpty || Nat.blt s.tim.smp (e.at_ + 125000000) || s.inWatchman then s
  else
    let mean : Option Rat := if e.cnt = 0 then none else some (mkRat e.sum e.cnt)
    let differs := match mean, e.mean with
      | some x, some y => some (decide (((s.fld A.CAL_OPEN_THR F.CAL_OPEN_THR_THR * 2048 : Nat) : Rat) < 10 * ratMax (x - y) (y - x)))
      | _, _ => none
    let bad := if differs = some true then min (e.bad + 1) 3 else 0
    let good := if differs = some false then min (e.good + 1) 3 else 0
    let s1 := s.setOpenChk p { bad := bad, good := good, mean := mean, at_ := s.tim.smp, sum := 0, cnt := 0 }
    if bad = 3 then s1.setPin A.CAL_OPEN_W p true
    else if good = 3 then s1.setPin A.CAL_OPEN_W p false
    else s1

/-! ### Pair balance, once per power cycle (R81) -/

/-- Set or clear a phase's pair-balance failure. -/
def State.setPb (s : State) (b p : Nat) (v : Bool) : State :=
  match s.sigOf b (4 + p) with
  | none => s
  | some g =>
    match s.laneAin (s.sigA g) with
    | none => s
    | some pin => s.pathChange pin (fun s => s.setBit A.CAL_PB (4 * b + p) v)

/-- One power cycle's check from the three phasors and |I2|. -/
def State.pairBalance (s : State) (b : Nat) (va vb vc : Cx) (i2 : Rat) : State :=
  let ab := if s.vconn b then cxAbs va else cxAbs (cxSub va vb)
  let bc := if s.vconn b then cxAbs vb else cxAbs (cxSub vb vc)
  let ca := if s.vconn b then cxAbs vc else cxAbs (cxSub vc va)
  let top := ratMax ab (ratMax bc ca)
  if 2 * top < s.vnom b ∨ s.inom b ≤ 10 * i2 then s
  else
    let k : Rat := (s.fld A.CAL_PB_THR F.CAL_PB_THR_RATIO : Rat) / 100
    let low (x y z : Rat) : Bool := decide (x < k * z) && decide (y < k * z)
    let bad := [low ab ca bc, low ab bc ca, low bc ca ab]
    let runs := tabGet [0, 0, 0] s.acq.pbRun b
    let runs1 := (runs.zip bad).map (fun p => if p.2 then min (p.1 + 1) 10 else 0)
    let ok := if bad.any id then 0 else min ((tabGet [0] s.acq.pbOk b).headD 0 + 1) 50
    let s1 := { s with acq := { s.acq with pbRun := tabPut [0, 0, 0] s.acq.pbRun b runs1, pbOk := tabPut [0] s.acq.pbOk b [ok] } }
    let s2 := s1.forEach ((List.range 3).filter (fun p => runs1.getD p 0 == 10)) (fun p s => s.setPb b p true)
    if ok = 50 then s2.forEach ((List.range 3).filter (fun p => s2.bit A.CAL_PB (4 * b + p))) (fun p s => s.setPb b p false) else s2

/-! ### Steps as executed -/

def execStepInjectionStart (bay : Fin 8) (atStart : Bool) (s : State) : Host.Outcome State Fault Refusal :=
  .next (s.awake (doStepInjectionStart bay atStart))
def execStepInjectionEnd (bay : Fin 8) (_ : Computed) (s : State) : Host.Outcome State Fault Refusal := .next (s.awake (doStepInjectionEnd bay))
def execInjectionWatchEnd (pin : Fin 96) (s : State) : Host.Outcome State Fault Refusal := .next (s.awake (doInjectionWatchEnd pin))
def execOpenCheckReversal (pin : Fin 96) (_ : Computed) (s : State) : Host.Outcome State Fault Refusal := .next (s.awake (doOpenCheckReversal pin))

end Sys2Proof.Machine
end

