-- ==== Sys2Proof/Machine/Acquisition.lean ====
section
/-! DEFINITION. Lane samples, accumulators, trackers, the cross-check, urgent conversions and internal-path tests (R34–R64, R76,
R79, R80), and their steps. -/

namespace Sys2Proof.Machine

/-! ### Accumulators (R56–R58) -/

/-- Index of the frame of a bay's tracking timeline that an instant falls into. -/
def State.frameIdx (s : State) (b : Nat) (t : Rat) : Nat :=
  let c := s.bayChain b
  ((c.n : Int) + ((t - c.next) * (96 * c.ft) / (8 * 1000000000)).floor).toNat

/-- The window of lane `x` is complete by the instant `t`: 2^N samples, or CYCLES whole power cycles, of twelve frames each. -/
def State.windowDone (s : State) (x : Nat) (t : Rat) : Bool :=
  let l := s.lane x
  if l.cnt = 0 then false
  else if bitGet l.winCfg 31 then
    Nat.ble (l.winFrame + 12 * fldGet F.ACQ_ACCCFG_CYCLES l.winCfg) (s.frameIdx (s.laneBay x) t)
  else Nat.ble (2 ^ fldGet F.ACQ_ACCCFG_N l.winCfg) l.cnt

/-- The window's results are copied as one unit and the bank restarts (R58). -/
def State.windowEnd (s : State) (x : Nat) : State :=
  let l := s.lane x
  let fl := mkFlags l.allValid false (flagGet l.orFlags 5) (s.laneGain x != 0) (flagGet l.orFlags 3) false (flagGet l.orFlags 1)
    (flagGet l.orFlags 0)
  let s1 := ((s.setReg64 (A.ACQ_ACC_SUM_LO x) (A.ACQ_ACC_SUM_HI x) (BitVec.ofInt 64 l.sum).toNat).setReg64 (A.ACQ_ACC_SSQ_LO x)
    (A.ACQ_ACC_SSQ_HI x) l.ssq).setReg (A.ACQ_ACC_CNT x) (BitVec.ofNat 32 (l.cnt % 2 ^ 21))
  let s2 := s1.setReg (A.ACQ_ACC_FLG x) (BitVec.ofNat 32 fl.toNat)
  let s3 := s2.setReg (A.ACQ_ACC_SEQ x) (s2.reg (A.ACQ_ACC_SEQ x) + 1)
  let s4 := s3.setLane x { l.fresh with winNext := some (l.winFrame + 12 * fldGet F.ACQ_ACCCFG_CYCLES l.winCfg) }
  if bitGet l.winCfg 30 then s4.raise Ev.ACQ_ACC_WINDOW x else s4

/-- The accumulator's value of a sample: in units of the converter step, 18 bits (R56). -/
def State.accValue (s : State) (x : Nat) (v : Int) : Int :=
  clampInt (-131072) 131071 (if s.laneStraight x then roundDiv v 128 else roundDiv v (2 ^ (6 - s.laneGain x)))

/-- The frame a window begins at whose first sample falls into frame `i`: with 2^N samples that frame; with cycles where the window before
ended, or at the next cycle boundary. -/
def LaneSt.windowStart (l : LaneSt) (cfg : Word) (i : Nat) : Nat :=
  if !bitGet cfg 31 then i
  else
    let wait := (i + 11) / 12 * 12
    match l.winNext with
    | some f => if f % 12 = 0 ∧ i < f + 12 * fldGet F.ACQ_ACCCFG_CYCLES cfg then f else wait
    | none => wait

/-- A sample taken at instant `t` enters the bank; a window takes the configuration in force when it begins (R57). -/
def State.accumulate (s : State) (x : Nat) (v : Int) (f : SampleFlags) (t : Rat) : State :=
  let s0 := if s.windowDone x t then s.windowEnd x else s
  let l := s0.lane x
  let i := s0.frameIdx (s0.laneBay x) t
  let cfg := if l.cnt = 0 then s0.reg (A.ACQ_ACCCFG x) else l.winCfg
  let start := if l.cnt = 0 then l.windowStart cfg i else l.winFrame
  let u := s0.accValue x v
  if i < start then s0.setLane x { l with winNext := some start }
  else
    s0.setLane x { l with sum := l.sum + u, ssq := l.ssq + (u * u).toNat, cnt := l.cnt + 1, allValid := l.allValid && flagGet f 7
                          orFlags := l.orFlags ||| f, winCfg := cfg, winFrame := start, winNext := none }

/-! ### Comparisons (R54, R55, R76) -/

/-- Two calibrated results differ by more than THR × 0.01 % of the gain's full scale. -/
def State.disagree (s : State) (g : Nat) (a b : Int) : Bool :=
  decide ((s.fld A.ACQ_XCK_THR F.ACQ_XCK_THR_THR : Int) * gainFull g < 10000 * ((a - b).natAbs : Int))

/-- A counted disagreement of the pair k, k + 1, or an agreement; four disagreements in a row mark it. -/
def State.xckCount (s : State) (k : Nat) (differ : Bool) : State :=
  if differ then
    let n := min ((s.slice k).xck + 1) 4
    let s1 := s.setSlice k { s.slice k with xck := n }
    if n = 4 then s1.markSuspect k else s1
  else s.setSlice k { s.slice k with xck := 0 }

/-- The place, among the conversions of lane `x`'s sample `k`, of the cross-check slot of the slice before (position 0, one gain). -/
def State.xckPlace (s : State) (x k : Nat) : Option Nat :=
  if s.laneMux x ≠ 0 || !Nat.blt (s.laneSlice x) 16 then none
  else
    let es := s.reel ((s.laneSlice x + 15) % 16)
    match reelXck es 0 with
    | none => none
    | some j =>
      let i := (j + s.cycleL - s.laneFirst x k % s.cycleL) % s.cycleL
      let same := match reelAt es j with
        | some w => w.toNat / 2 ^ 24 % 4 == s.laneGain x
        | none => false
      if i < s.laneRep x && same then some i else none

/-- A position's code by a converter, at lane `x`'s gain. -/
def State.xckVal (s : State) (x conv : Nat) (code : Int) : CalVal :=
  calLimit (gainFull (s.laneGain x)) (codeAtEnd code) (s.calRaw 1 conv (s.laneGain x) code)

/-- The shadowing converter's result beside that of slice `j`'s own; four disagreements in a row are remembered (R76). -/
def State.shadowCompare (s : State) (j g : Nat) (mine other : CalVal) : State :=
  match s.acq.use with
  | .shadow k st start n mism =>
    if k ≠ j || mine.clipped || other.clipped then s
    else
      let n1 := if s.disagree g mine.v other.v then min (n + 1) 4 else 0
      s.setUse (.shadow k st start n1 (mism || n1 == 4))
  | _ => s

/-- The cross-check of the slice before in one of lane `x`'s slots, with the code of a converter that shadows that slice. -/
def State.xckStep (s : State) (x : Nat) (mine : CalVal) (code : Int) (shadow : Option Int) : State :=
  let k := (s.laneSlice x + 15) % 16
  let other := s.xckVal x (s.conv k) code
  let s1 := if mine.clipped || other.clipped then s else s.xckCount k (s.disagree (s.laneGain x) mine.v other.v)
  match shadow with
  | some c => s1.shadowCompare k (s1.laneGain x) other (s1.xckVal x (s1.conv 16) c)
  | none => s1

/-! ### LANE_SAMPLE -/

/-- A sample-domain sensor keeps every lane at PLAUS (R450). -/
def State.hotSamples (s : State) : Bool :=
  (tabGet none s.pwr.throttleAt 4).isSome &&
    [6, 7].any (fun k => decide (1250 < signExt 16 (s.fld (A.SUP_TEMP k) F.SUP_TEMP_TEMP)))

/-- The path of lane `x` has failed, or its converter converts nothing (R61, R74, R82). -/
def State.laneFailed (s : State) (x : Nat) : Bool :=
  s.convState (s.conv (s.laneSlice x)) == 3 || s.pbFailedLane x ||
    (match s.laneAin x with
     | some p => s.pathFailed p
     | none => false)

/-- Slice `k`'s lanes carry PLAUS. -/
def State.slicePlaus (s : State) (k : Nat) : Bool := s.bit (A.ACQ_SLICE k) 31 || (s.slice k).diagBad || s.hotSamples

/-- Flags of a sample of lane `x`. -/
def State.laneFlags (s : State) (x : Nat) (clipped : Bool) : SampleFlags :=
  let test := match s.laneAin x with
    | some p => s.injecting p
    | none => false
  mkFlags (!s.laneFailed x) false clipped (s.laneGain x != 0) test false s.unlocked (s.slicePlaus (s.laneSlice x))

/-- The lane converts: the image's Reels are in force, the lane is enabled, and in Watchman mode only the high-range lanes of the
feed convert (R452). -/
def State.laneConverts (s : State) (x : Nat) : Bool :=
  s.fld A.ACQ_STAT F.ACQ_STAT_REEL_SRC != 0 && s.laneDeclared x && s.laneOn x && (!s.inWatchman || (s.laneFeed x).isSome)

/-- What one conversion of lane `x` gives; a retired converter converts nothing, and the value is free (R74, assumption 50). -/
def State.convVal (s : State) (x conv slot : Nat) (code : Int) : CalVal :=
  if s.convState conv = 3 then { v := (chainSample (Config.missingSample x slot) 0).v, clipped := false } else s.calCode x conv code

/-- The sample of lane `x` from its conversions' values: their mean, CLIPPED where one of them is. -/
def sampleOf (vals : List CalVal) : CalVal :=
  { v := roundDiv (vals.foldl (fun a c => a + c.v) 0) vals.length, clipped := vals.any (·.clipped) }

/-- A sample is kept: bank, tracker, ACQ_CLIP, the 20 ms of R83, the chain and its branches, the open-input check. -/
def State.laneKeep (s : State) (x k : Nat) (v : Int) (f : SampleFlags) : State :=
  let t := s.laneInstant x k
  let s1 := (s.accumulate x v f t).trackSample x v f (s.devTime t)
  let s2 := if flagGet f 5 then s1.raiseLim Ev.ACQ_CLIP x x else s1
  let big := decide (gainFull (s2.laneGain x) ≤ 100 * (v.natAbs : Int))
  let l := s2.lane x
  let s3 := s2.setLane x { l with last := some ({ v := v, f := f }, s2.tim.smp), k := k, lastBig := if big then s2.tim.up + 1 else l.lastBig }
  let s4 := s3.chainPush x k (9830400 / 2 ^ s3.laneN x) v f
  let s5 := match s4.laneFeed x with
    | some c => (s4.feedPush c { v := v, f := f }).waveTake (c / 3)
    | none => s4
  s5.openSample x v t

/-- LANE_SAMPLE: the newest sample of a lane becomes available, 4 slots after its last slot (R36, R41). `d` holds the codes of its REPEAT
conversions, made by the converter attached at its instant. -/
def doLaneSample (lane : Fin 128) (d : LaneIn) (s : State) : State :=
  let x := lane.val
  match s.laneNewest x with
  | none => s
  | some k =>
    if !s.laneConverts x || Nat.ble k (s.lane x).k || Nat.blt (s.laneFirst x k) (s.lane x).from_ || d.codes.length ≠ s.laneRep x then s
    else
      let conv := s.convAt (s.laneSlice x) (s.laneInstant x k)
      let vals := d.codes.map (s.convVal x conv (s.laneFirst x k))
      let y := sampleOf vals
      let s1 := s.laneKeep x k y.v (s.laneFlags x y.clipped)
      let s2 := match s1.xckPlace x k, d.xck with
        | some i, some c => s1.xckStep x (vals.getD i y) c d.xckShadow
        | _, _ => s1
      let s3 := s2.forEach (vals.zip d.shadow) (fun p s => s.shadowCompare (s.laneSlice x) (s.laneGain x) p.1 (s.calCode x (s.conv 16) p.2))
      s3.injSample x y.v (s3.laneInstant x k)

/-- ACC_WINDOW_END: a window is complete: no sample of it is to come. -/
def doAccWindowEnd (lane : Fin 128) (s : State) : State :=
  let x := lane.val
  if s.windowDone x (ratMin (s.laneInstant x ((s.lane x).k + 1)) (s.tim.smp : Rat)) then s.windowEnd x else s

/-! ### Internal-path tests (R79, R80) -/

/-- Position and gain of test 1–6 on a slice. -/
def testPoint (slice test : Nat) : Nat × Nat :=
  let base := if slice = 16 then 104 else 7
  match test with
  | 1 => (base + 1, 0)
  | 2 => (base + 2, 0)
  | 3 => (base + 2, 3)
  | 4 => (base, 0)
  | 5 => (base, 3)
  | _ => (base + 3, 0)

/-- INPUT_CHECK_REQUEST: every 1 ms one urgent conversion per slice; a dropped request is made again 1 ms later. -/
def doInputCheckRequest (s : State) : State :=
  let early := match s.acq.diagLast with
    | some t => Nat.blt s.tim.up (t + 1000000)
    | none => false
  if early || !s.bit A.PWR_DOMAIN_STAT 1 || s.inWatchman then s
  else
    let s1 := { s with acq := { s.acq with diagLast := some s.tim.up } }
    s1.forEach (List.range 17) (fun k s =>
      let p := testPoint k ((s.slice k).test + 1)
      let (r, s2) := s.urgentRequest { src := 0, pos := p.1, gain := p.2, came := 0, slot := 0, tag := 0, heddle := 0 } k
      if r = .accepted then s2.setSlice k { s2.slice k with test := ((s2.slice k).test + 1) % 6 } else s2)

/-- The test that a diagnostic conversion of a position at a gain serves, if one does. -/
def testOf (slice pos gain : Nat) : Option Nat :=
  [1, 2, 3, 4, 5, 6].find? (fun t => testPoint slice t == (pos, gain))

/-- Test DAC code of the triangle at a device time: ±3.9 V in 1 s, 125 µV a code (R78). -/
def dacTriangle (t : Nat) : Int :=
  let w := (t + Config.dacPhase) % 1000000000
  let m : Int := if w < 250000000 then (w : Int) else if w < 750000000 then 500000000 - (w : Int) else (w : Int) - 1000000000
  roundDiv (m * 31200) 250000000

/-- Step of an injection at a time from its start: 0, +1, −1, 0 V in DAC codes. -/
def injCode (ns : Nat) : Int := if 5000000 ≤ ns ∧ ns < 10000000 then 8000 else if 10000000 ≤ ns ∧ ns < 15000000 then -8000 else 0

/-- Test DAC code in a slot: what a calibration or an injection puts out, else the triangle, which steps every 16 slots (R78, R81). -/
def State.dacCode (s : State) (slot : Nat) : Int :=
  let t := slotStart ((slot / 16 * 16 : Nat) : Rat)
  if s.calibrating then Config.dacCal slot
  else
    match ((List.range 9).filterMap (fun b => tabGet none s.acq.inj b)).head? with
    | some st => injCode (t - (st.1 : Rat)).floor.toNat
    | none => dacTriangle (s.devTime t)

/-- The test DAC's expected value in a slot, in R34 LSB, by the last transfer measured. -/
def State.dacExpected (s : State) (slot : Nat) : Int :=
  signExt 24 (s.fld A.CAL_DAC_OFS F.CAL_DAC_OFS_OFS) + roundDiv (s.dacCode slot * ((s.reg A.CAL_DAC_GAIN).toNat : Int)) 65536

/-- Whether a test passes; none where it is not counted. -/
def State.testPass (s : State) (test slot : Nat) (v : Int) : Option Bool :=
  let e := s.dacExpected slot
  match test with
  | 1 => some (decide (2000 * (v - 0x400000).natAbs ≤ 0x400000))
  | 2 => some (decide (v.natAbs ≤ 64))
  | 3 => some (decide (v.natAbs ≤ 16))
  | 4 => some (decide (2000 * ((v - e).natAbs : Int) ≤ gainFull 0))
  | 5 => if 1024000 < e.natAbs then none else some (decide (2000 * ((v - e).natAbs : Int) ≤ gainFull 3))
  | _ => some (decide (-50 ≤ Config.diodeTemp v) && decide (Config.diodeTemp v ≤ 135))

/-- A test result of slice `k`: eight failures in a row bring PLAUS and a take-over, or a calibration of the spare. The spec does not say
what ERR_VREF shows of an error beyond its 16 bits: it is limited to −32,768 to 32,767 (assumption 57). -/
def State.testResult (s : State) (k test slot : Nat) (v : Int) : State :=
  let s0 := if test = 1 then
      s.setFld (A.CAL_DIAG k) F.CAL_DIAG_ERR_VREF (BitVec.ofInt 16 (clampInt (-32768) 32767 (v - 0x400000))).toNat
    else s
  match s0.testPass test slot v with
  | none => s0
  | some ok =>
    let sl := s0.slice k
    let was := sl.runs.getD (test - 1) 0
    let n := if ok then 0 else min (was + 1) 8
    let runs := sl.runs.set (test - 1) n
    let s1 := s0.setSlice k { sl with runs := runs }
    let s2 := (s1.setBit (A.CAL_DIAG k) (16 + (test - 1)) (!ok)).setFld (A.CAL_DIAG k) F.CAL_DIAG_FAILRUN (runs.foldl max 0)
    if n = 8 && was != 8 then
      let s3 := s2.raise Ev.CAL_CONV_FAIL (s2.conv k)
      if k = 16 then
        (if s3.rotHalted then s3 else { s3 with acq := { s3.acq with takeQ := s3.acq.takeQ ++ [16] } })
      else
        let s4 := s3.setSlice k { s3.slice k with diagBad := true }
        if s4.rotHalted then s4 else { s4 with acq := { s4.acq with takeQ := s4.acq.takeQ ++ [k] } }
    else s2

/-! ### URGENT_SERVE (R50–R53) -/

/-- A one-shot conversion's calibrated value by converter `conv`: an AUX position is straight binary unless a lane there is declared SIGNED. -/
def State.urgentVal (s : State) (k pos gain conv slot : Nat) (code : Int) : CalVal :=
  if s.convState conv = 3 then { v := (chainSample (Config.missingSample (256 + k) slot) 0).v, clipped := false }
  else
    match s.laneAt k pos gain with
    | some x => s.calCode x conv code
    | none =>
      if k = 16 ∧ 96 ≤ pos ∧ pos ≤ 103 then calStraight (codeAtEnd code) (s.calRaw 2 conv gain code)
      else calLimit (gainFull gain) (codeAtEnd code) (s.calRaw 1 conv gain code)

/-- The left-aligned result: TEST always set. -/
def State.urgentWord (s : State) (k conv : Nat) (u : Urgent) (c : CalVal) : Word :=
  let bad := s.convState conv == 3 || (match ainOf k u.pos with
    | some p => s.pathFailed p
    | none => false)
  let f := mkFlags (!bad) false c.clipped (u.gain != 0) true false s.unlocked (s.slicePlaus k)
  BitVec.ofNat 32 ((BitVec.ofInt 24 c.v).toNat * 256 + f.toNat)

/-- A conversion's result is available: 4 slots after the end of its slot (R36). -/
def State.slotDone (s : State) (slot : Nat) : Bool := s.slotBegun (slot + 5)

/-- An entry is a diagnostic conversion: position 7–10, or 104–107 on S16 (R39). -/
def diagEntry (k : Nat) (w : Word) : Bool := w.toNat / 2 ^ 28 % 8 == 0 && Nat.ble (if k = 16 then 104 else 7) (w.toNat / 2 ^ 17 % 128)

/-- The newest slot of a diagnostic Reel entry of slice `k` whose result is available and not delivered, with its position and gain. -/
def State.diagNewest (s : State) (k : Nat) : Option (Nat × Nat × Nat) :=
  (List.range s.cycleL).findSome? (fun j =>
    let n := s.slotNow - 5 - j
    if !s.slotDone n || Nat.ble n (s.slice k).diagSlot || s.fld A.ACQ_STAT F.ACQ_STAT_REEL_SRC == 0 || (k == 16 && s.s16Away) then none
    else match reelAt (s.reel k) (n % s.cycleL) with
      | some w => if diagEntry k w then some (n, w.toNat / 2 ^ 17 % 128, w.toNat / 2 ^ 24 % 4) else none
      | none => none)

/-- A diagnostic conversion's result goes to the CAL block. -/
def State.diagResult (s : State) (k pos gain slot : Nat) (v : Int) : State :=
  match testOf k pos gain with
  | some t => s.testResult k t slot v
  | none => s

/-- URGENT_SERVE: the result of a slice's urgent conversion is delivered to its source, 4 slots after its slot (R50–R53). Where none waits,
that of the Reel's newest diagnostic entry goes to the CAL block (R39). -/
def doUrgentServe (slice : Fin 17) (code : Int) (s : State) : State :=
  let k := slice.val
  let at_ (slot : Nat) : Nat := s.convAt k (slotStart ((slot : Rat) + 1 / 8))
  match (s.slice k).urgent with
  | none =>
    (match s.diagNewest k with
    | none => s
    | some (n, pos, gain) =>
      (s.setSlice k { s.slice k with diagSlot := n }).diagResult k pos gain n (s.urgentVal k pos gain (at_ n) n code).v)
  | some u =>
    if !s.slotDone u.slot then s
    else
      let s1 := s.setSlice k { s.slice k with urgent := none }
      let c := s1.urgentVal k u.pos u.gain (at_ u.slot) u.slot code
      let w := s1.urgentWord k (at_ u.slot) u c
      match u.src with
      | 0 => s1.diagResult k u.pos u.gain u.slot c.v
      | 1 =>
        let s2 := s1.setReg A.ACQ_URG_RES_HDL w
        (s2.setOctetsLE (iBase + 0xB0) 4 w.toNat).setOctetsLE (iBase + 0xB4) 4 (s2.octetsLE (iBase + 0xB4) 4 + 1)
      | _ =>
        ((s1.setReg A.ACQ_URG_RES_HOST w).raise Ev.ACQ_URG_DONE k).respond (respEntry u.tag 0 0x10 w 0 0)

/-! ### Steps as executed -/

def execLaneSample (lane : Fin 128) (d : LaneIn) (s : State) : Host.Outcome State Fault Refusal := .next (doLaneSample lane d s)
def execAccWindowEnd (lane : Fin 128) (s : State) : Host.Outcome State Fault Refusal := .next (doAccWindowEnd lane s)
def execInputCheckRequest (s : State) : Host.Outcome State Fault Refusal := .next (s.awake doInputCheckRequest)
def execUrgentServe (slice : Fin 17) (code : Int) (s : State) : Host.Outcome State Fault Refusal := .next (s.awake (doUrgentServe slice code))

end Sys2Proof.Machine
end

