-- ==== Sys2Proof/Machine/Flags.lean ====
section
/-! DEFINITION. The flag computations of the Heddle: how an instruction's result joins LB (R231), SAT, SATS and ZERO (R222,
R232, R233), and the condition word CW (R222). -/

namespace Sys2Proof.Machine

/-- The combination op of COMB codes 1 AND, 2 OR, 3 XOR; 0 loads. -/
def combine (comb : Nat) (a r : Bool) : Bool :=
  match comb with
  | 0 => r
  | 1 => a && r
  | 2 => a || r
  | _ => xor a r

/-- A logic result joins LB under COMB and NEG. -/
def joinLb (w : BitVec 64) (c : Ctx) (r : Bool) : Ctx := { c with lb := combine (insComb w) c.lb (xor r (insNeg w)) }

/-- Store a result in X with the flags of an instruction marked SAT; `z` tells a stored 0. -/
def storeX (c : Ctx) (x : Word) (sat z : Bool) : Ctx := { c with x := x, sat := sat, sats := c.sats || sat, zero := z }

/-- Limit a signed result to 32 bits with SAT (R232). -/
def storeInt (c : Ctx) (v : Int) : Ctx :=
  let l := clampInt (-2 ^ 31) (2 ^ 31 - 1) v
  storeX c (wordOfInt l) (l ≠ v) (l = 0)

/-- ±0.0 stored by a floating-point instruction. -/
def isFpZero (x : Word) : Bool := x.toNat % 2 ^ 31 == 0

/-- The condition word (R222). -/
def condWord (c : Ctx) : Word :=
  BitVec.ofNat 32 (c.calls.length * 2 ^ 16 + c.groups.length * 2 ^ 8 + c.zero.toNat * 8 + c.sats.toNat * 4 + c.sat.toNat * 2 +
    c.lb.toNat)

/-- The context an execution starts with: registers, CW and stacks cleared (R221). -/
def ctxStart (task prio pc clk release started limit : Nat) (img : Tab Byte) : Ctx :=
  { task := task, prio := prio, lb := false, x := 0, y := 0, sat := false, sats := false, zero := false, groups := [],
    calls := [], pc := pc, img := img, out := [], kept := [], clk := clk, release := release, started := started, count := 0,
    limit := limit }

end Sys2Proof.Machine
end

