-- ==== Sys2Proof/Machine/HeddleOps.lean ====
section
/-! DEFINITION. Running one instruction on a Heddle: fetch from the logic store, the instruction limit, program faults (R241),
the end of an execution and what follows it (R248, R251, R252, R254), breakpoints and the logic's STOP and HOLD (R259, R260). -/

namespace Sys2Proof.Machine

/-! ### The Q image outside executions -/

/-- Mask of the bits of Q octet `o` that active force entries hold. -/
def State.forcedMask (s : State) (o : Nat) : Byte :=
  (s.forces 2).foldl (fun m e =>
    let b := forceBits (s.reg (A.HDL_FRC_CFG e))
    (List.range 8).foldl (fun m i => if b.1 ≤ 8 * o + i ∧ 8 * o + i < b.1 + b.2 then m ||| bitMask i else m) m) 0

/-- GOUT[g] is a controlled-closing output: the pin is not driven from its Q bit (R314). -/
def State.closingGout (s : State) (g : Nat) : Bool :=
  (List.range 8).any (fun b => s.bit (A.PEL_CC_CFG b) 31 && s.fld (A.PEL_CC_CFG b) F.PEL_CC_CFG_GOUT == g)

/-- PRT_LTRQ takes the requests of the Q image in RUN, and 0 in STOP and HOLD (R143). -/
def State.ltrqFollow (s : State) : State :=
  let v := if s.logicMode = 0 then BitVec.ofNat 32 (s.octetsLE (qBase + 0x200) 4) else 0
  if s.reg A.PRT_LTRQ = v then s else (s.setReg A.PRT_LTRQ v).tripEval

/-- Every GOUT the program writes takes its Q bit. -/
def State.goutFollow (s : State) : State :=
  s.forEach (List.range 8) (fun g s =>
    if s.closingGout g || (s.qWriters (8 * 0x204 + g)).isEmpty then s else s.setGout g (s.qBit (8 * 0x204 + g)))

/-- Every Q element takes its declared stop value as one unit (R259); forced elements keep the forced value (R256). -/
def State.qStop (s : State) : State :=
  let keep := s.mem.filter (fun e => Nat.blt e.1 qBase || Nat.ble mBase e.1)
  let s0 := { s with mem := keep, hdl := { s.hdl with derived := [] } }
  let s1 := s0.forEach s.hdl.qstop (fun e t => t.setOctet (qBase + e.1) e.2)
  let s2 := s1.forEach (s.forces 2) (fun e t =>
    let b := forceBits (s.reg (A.HDL_FRC_CFG e))
    t.forEach (List.range b.2) (fun i t =>
      let o := qBase + (b.1 + i) / 8
      t.setOctet o (maskByte (bitMask (b.1 + i)) (if bitGet (s.reg (A.HDL_FRC_VAL e)) i then 0xFF else 0) (t.octet o))))
  s2.ltrqFollow.goutFollow

/-- No execution is in progress on any Heddle. -/
def State.allIdle (s : State) : Bool :=
  (List.range 4).all (fun h => (s.heddle h).run.isNone && (s.heddle h).stack.isEmpty)

/-! ### Entering and leaving hold defaults (R135) -/

/-- Block inputs of declared instances that stand at their hold default: 4 × instance + input. -/
def State.inputsHeld (s : State) : List Nat :=
  ((List.range 512).filter (fun x => s.fld (A.PRT_EI_CFG x) F.PRT_EI_CFG_TYPE != 0)).flatMap (fun x =>
    ((List.range 4).filter (fun j => (s.blockInput x j).2)).map (fun j => 4 * x + j))

/-- PRT_STAT.HOLDDEF is 1 while any block input stands at its hold default; each input that takes it raises PRT_HOLD_DEFAULT with its
instance (R135, R153). -/
def State.holdDefaults (s : State) : State :=
  let l := s.inputsHeld
  let new := l.filter (fun k => !s.prot.held.contains k)
  (State.setBit { s with prot := { s.prot with held := l } } A.PRT_STAT 2 (!l.isEmpty)).forEach new (fun k s => s.raise Ev.PRT_HOLD_DEFAULT (k / 4))

/-- The logic mode changes (R259, R268): 0 RUN, 1 STOP, 2 HOLD. -/
def State.setMode (s : State) (m : Nat) : State :=
  if s.logicMode = m then s
  else ((s.setFld A.HDL_STAT F.HDL_STAT_MODE m).raise Ev.HDL_MODE m).ltrqFollow.holdDefaults

/-- STOP: releases that have not started are dropped, executions in progress complete, and then Q takes its stop values. -/
def State.stopLogic (s : State) : State :=
  let s1 := s.setMode 1
  let s2 := s1.forEach (List.range 4) (fun h s =>
    let x := { s.heddle h with rels := [], cycQ := [] }
    match x.run, x.stack with
    | none, c :: l => s.setHeddle h { x with run := some c, stack := l }
    | _, _ => s.setHeddle h x)
  if s2.allIdle then s2.qStop else s2

/-! ### Breakpoint (R260) -/

/-- The TASK number of HDL_PFLT and HDL_BRK: 32 for a task of the free-run cycle. -/
def State.taskNumber (s : State) (t : Nat) : Nat := if s.bit A.HDL_STAT 29 && Nat.blt t 16 then 32 else t

/-- Stop before the armed index when Heddle `h`'s execution has reached it. -/
def State.breakCheck (s : State) (h : Nat) : State :=
  match s.hdl.brk, (s.heddle h).run with
  | some i, some c =>
    if c.pc = i ∧ s.logicMode = 0 then
      let w := 0x80000000 + h % 4 * 2 ^ 28 + s.taskNumber c.task * 2 ^ 22 + i % 65536
      ({ s with hdl := { s.hdl with brk := none } }.setReg A.HDL_BRK (BitVec.ofNat 32 w)).setMode 2
    else s
  | _, _ => s

/-! ### End of an execution -/

/-- The best waiting release of a Heddle: highest priority, then earlier release, then periodic before event, then lower task
number (R248). -/
def State.bestRel (s : State) (h : Nat) : Option Rel :=
  (s.heddle h).rels.foldl (fun b r =>
    match b with
    | none => some r
    | some q =>
      let pr := s.fld (A.HDL_TCFG h r.task) F.HDL_TCFG_PRIO
      let pq := s.fld (A.HDL_TCFG h q.task) F.HDL_TCFG_PRIO
      if pr < pq ∨ (pr = pq ∧ (r.at_ < q.at_ ∨ (r.at_ = q.at_ ∧ r.task < q.task))) then some r else b) none

/-- A release of higher priority than `prio` waits. -/
def State.higherWaits (s : State) (h prio : Nat) : Bool :=
  (s.heddle h).rels.any (fun r => Nat.blt (s.fld (A.HDL_TCFG h r.task) F.HDL_TCFG_PRIO) prio)

/-- A free-run cycle whose tasks are done ends: its length is shown, and beyond BUDGET the Heddle idles for one BUDGET (R251, R252). -/
def State.cycleEnd (s : State) (h : Nat) : State :=
  let x := s.heddle h
  if !x.inCycle || !x.cycQ.isEmpty then s
  else
    let us := (s.tim.now - x.cycStart.getD s.tim.now) / 1000
    let s1 := (s.setHeddle h { x with inCycle := false }).setFld (A.HDL_HSTAT h) ⟨23, 0⟩ (min us 0xFFFFFF)
    let budget := s1.fld A.HDL_CFG F.HDL_CFG_BUDGET
    if us ≤ budget then s1
    else
      let s2 := (s1.raise Ev.HDL_CYCLE_OVER h).countSkip h 0
      s2.setHeddle h { s2.heddle h with idleUntil := some (s2.tim.now + budget * 1000) }

/-- The running execution leaves the Heddle: the pre-empted one resumes unless a higher release waits. -/
def State.finishExec (s : State) (h : Nat) (c : Ctx) : State :=
  let x := s.heddle h
  let ns := s.tim.now - c.started
  let base := { x with run := none, longest := max x.longest ns }
  let s1 := match x.stack with
    | top :: rest => if s.higherWaits h top.prio then s.setHeddle h base
                     else s.setHeddle h { base with run := some top, stack := rest }
    | [] => s.setHeddle h base
  let s2 := if s1.bit A.HDL_STAT 29 && Nat.blt c.task 16 then s1.cycleEnd h else s1
  if s2.logicMode = 1 ∧ s2.allIdle then s2.qStop else s2

/-- A program fault: recorded, counted and raised; the execution stops without its output write (R241, R242). -/
def State.progFault (s : State) (h : Nat) (c : Ctx) (code : Nat) : State :=
  let w := c.pc % 65536 * 65536 + s.taskNumber c.task * 256 + code
  let s1 := s.setReg (A.HDL_PFLT h) (BitVec.ofNat 32 w)
  let s2 := (s1.incSat (A.HDL_PFCNT h) ⟨15, 0⟩ Ev.HDL_CNT_SAT noIndex).raiseLim Ev.HDL_PROG_FAULT h h
  s2.finishExec h c

/-! ### One instruction -/

/-- The instruction Heddle `h` executes next. -/
def State.nextIns (s : State) (h : Nat) : Option (Ctx × BitVec 64) :=
  (s.heddle h).run.bind (fun c => s.hdl.code[c.pc]?.map (fun w => (c, w)))

/-- Store the context after an instruction. -/
def State.putCtx (s : State) (h : Nat) (c : Ctx) : State := s.setHeddle h { s.heddle h with run := some c }

/-- Run one instruction's meaning on a context: the limit of R241, then the meaning on the context whose next index is the
following instruction. -/
def State.runIns (s : State) (h : Nat) (c : Ctx) (w : BitVec 64) (sem : BitVec 64 → Ctx → State → HRes) : State :=
  if c.limit < c.count + 1 then s.progFault h c 3
  else match sem w { c with pc := c.pc + 1, count := c.count + 1 } s with
    | .fault code => s.progFault h c code
    | .ok c1 s1 => (s1.putCtx h c1).breakCheck h

/-- The Heddle may run an instruction now: it runs in RUN, and in STOP an execution in progress completes; a higher release is
served first (R248, R259). -/
def State.mayRun (s : State) (h : Nat) (c : Ctx) : Bool :=
  !s.inWatchman && ((s.logicMode == 0 && !s.higherWaits h c.prio) || s.logicMode == 1)

/-- Heddle `h` executes its next instruction, which has the opcode and form given; otherwise the step does not come about. -/
def State.heddleStep (s : State) (h : Nat) (opc : Nat) (form : BitVec 64 → Bool) (sem : BitVec 64 → Ctx → State → HRes) : State :=
  match s.nextIns h with
  | none => s
  | some (c, w) => if insOpc w == opc && form w && s.mayRun h c then s.runIns h c w sem else s

/-- Any form. -/
def anyForm (_ : BitVec 64) : Bool := true

end Sys2Proof.Machine
end

