-- ==== Sys2Proof/Machine/Measure.lean ====
section
/-! DEFINITION. What an engine measures in a frame (R119–R126): phasors by filter, frequency and ROCOF, power, impedance loops,
harmonics, and the measurement snapshot registers (R151). -/

namespace Sys2Proof.Machine

/-! ### A bay's engine data -/

def State.bayProt (s : State) (b : Nat) : BayProt := tabGet bayProtInit s.prot.bays b

def State.setBayProt (s : State) (b : Nat) (p : BayProt) : State :=
  { s with prot := { s.prot with bays := tabPut bayProtInit s.prot.bays b p } }

/-- The frame an engine works on: the bay, the frame, the frames held newest first, Δt in s, and the trip channels at its close. -/
structure FrameCx where
  b : Nat
  fr : FrameBuf
  h : List FrameBuf
  dt : Rat

/-- Δt of a frame in s (R130: the length FLT_FRMPER shows). -/
def frameDt (fr : FrameBuf) : Rat := (ratRound (8 * fr.per) : Rat) / 1000000000

/-- Instant of a frame's last sample on `tim.up`, ns. -/
def frameEnd (fr : FrameBuf) : Rat := fr.at_ + 7 * fr.per

/-- A ratio of magnitudes; anything over 0 counts as very large. -/
def magQuot (a b : Rat) : Rat := if b = 0 then (if a = 0 then 0 else 1000000000) else a / b

/-! ### Phasors by filter -/

/-- Samples of a KIND in secondary units, whatever their flags. -/
def State.rawSamples (s : State) (b kind : Nat) (h : List FrameBuf) : List Rat :=
  match s.sigOf b kind with
  | none => []
  | some x => (histSig h x).map (fun v => (v.v : Rat) * s.kindScale b kind)

/-- Window of a filter code (R120): full-cycle, half-cycle, cosine; the type's own is full-cycle unless its rule says otherwise. -/
def filterWindow (f : Nat) : Nat := if f = 1 then 48 else if f = 2 then 120 else 96

/-- A filter's phasor. -/
def filterPhasor (f : Nat) (xs : List Rat) : Cx :=
  if f = 1 then halfPhasor xs else if f = 2 then cosPhasor xs else fullPhasor 1 xs

/-- A KIND's phasor from the samples held. -/
def State.ph (s : State) (cx : FrameCx) (kind f : Nat) : Cx := filterPhasor f (s.rawSamples cx.b kind cx.h)

/-- Its window holds only VALID samples (R107). -/
def State.phOk (s : State) (cx : FrameCx) (kind f : Nat) : Bool :=
  match s.sigOf cx.b kind with
  | none => false
  | some x => windowValid (filterWindow f) (histSig cx.h x)

def State.mag (s : State) (cx : FrameCx) (kind f : Nat) : Rat := cxAbs (s.ph cx kind f)

/-- All the KINDs' full-cycle windows are VALID. -/
def State.allOk (s : State) (cx : FrameCx) (ks : List Nat) : Bool := ks.all (fun k => s.phOk cx k 0)

/-- Current sequence components as measured. -/
def State.iSeq (s : State) (cx : FrameCx) : Seqs := seqI (s.rotAcb cx.b) (s.ph cx 0 0) (s.ph cx 1 0) (s.ph cx 2 0)

/-- Voltage sequence components as measured. -/
def State.vSeq (s : State) (cx : FrameCx) : Seqs :=
  seqV (s.rotAcb cx.b) (s.vconn cx.b) (s.ph cx 4 0) (s.ph cx 5 0) (s.ph cx 6 0)

/-- Imax, the largest full-cycle phase current (R169, R179). -/
def State.imax (s : State) (cx : FrameCx) : Rat := ratMax (s.mag cx 0 0) (ratMax (s.mag cx 1 0) (s.mag cx 2 0))

/-- 3I0 or IN, and 3V0 or VN, by the extension bits of R162. -/
def State.resI (s : State) (cx : FrameCx) (sum : Bool) (f : Nat) : Cx :=
  if sum then cxAdd (s.ph cx 0 f) (cxAdd (s.ph cx 1 f) (s.ph cx 2 f)) else s.ph cx 3 f
def State.resV (s : State) (cx : FrameCx) (meas : Bool) (f : Nat) : Cx :=
  if meas then s.ph cx 7 f else cxAdd (s.ph cx 4 f) (cxAdd (s.ph cx 5 f) (s.ph cx 6 f))

/-- The h-th harmonic's phasor over the full-cycle window. -/
def State.harm (s : State) (cx : FrameCx) (kind hh : Nat) : Cx := fullPhasor hh (s.rawSamples cx.b kind cx.h)

/-! ### Power and loops (R123) -/

/-- Complex power. -/
def State.power (s : State) (cx : FrameCx) : Cx :=
  let i (k : Nat) := cxConj (s.ph cx k 0)
  let v (k : Nat) := s.ph cx (4 + k) 0
  if s.vconn cx.b then cxSub (cxMul (v 0) (i 0)) (cxMul (v 1) (i 2))
  else cxAdd (cxMul (v 0) (i 0)) (cxAdd (cxMul (v 1) (i 1)) (cxMul (v 2) (i 2)))

/-- Impedance loop l in snapshot order, `none` where it is invalid. -/
def State.zLoop (s : State) (cx : FrameCx) (l : Nat) : Option Cx :=
  let a := l % 3
  let c := (l + 1) % 3
  let b := cx.b
  let phase := Nat.blt l 3
  let cur := if phase then cxSub (s.ph cx a 0) (s.ph cx c 0)
    else
      let k0 : Cx := { re := s.fpReg (A.PRT_K0RE b), im := s.fpReg (A.PRT_K0IM b) }
      cxAdd (s.ph cx a 0) (cxMul k0 (s.resI cx true 0))
  let volt := if phase && !s.vconn b then cxSub (s.ph cx (4 + a) 0) (s.ph cx (4 + c) 0) else s.ph cx (4 + a) 0
  if (!phase && s.vconn b) || decide (cxAbs cur < 5 / 100 * s.inom b) then none else some (cxDiv volt cur)

/-! ### Frequency and ROCOF (R124) -/

/-- The frequency source of a frame and its phasor: none while tracking has fallen back to the nominal frequency (R177). -/
def State.freqSource (s : State) (cx : FrameCx) : SeqHist :=
  let v1 := (s.vSeq cx).p
  let i1 := (s.iSeq cx).p
  if s.fld (A.FLT_TRK cx.b) F.FLT_TRK_SOURCE = 2 then { src := 2, v := cxZero }
  else if s.allOk cx [4, 5, 6] && decide (5 / 100 * s.vph cx.b ≤ cxAbs v1) then { src := 0, v := v1 }
  else if s.allOk cx [0, 1, 2] && decide (5 / 100 * s.inom cx.b ≤ cxAbs i1) then { src := 1, v := i1 }
  else { src := 2, v := cxZero }

/-- Mean of a list. -/
def ratMean (l : List Rat) : Rat := l.foldl (· + ·) 0 / (l.length : Rat)

/-- Frequency bookkeeping of a frame: the source history, the per-frame values, the reported values. -/
def freqStep (p : BayProt) (src : SeqHist) (ft t : Rat) : BayProt :=
  let same := match p.seqs.head? with
    | some q => q.src == src.src
    | none => true
  let seqs := if src.src = 2 then [] else (src :: (if same then p.seqs else [])).take 13
  let fvals := match seqs[12]? with
    | some old => ((ft * (1 + wrapTurn (cxArg src.v - cxArg old.v))) :: (if same then p.fvals else [])).take 12
    | none => []
  let freps := if fvals.length = 12 then ({ f := ratMean fvals, at_ := t } :: p.freps).take 601 else []
  { p with seqs := seqs, fvals := fvals, freps := freps }

/-- The reported frequency, where valid. -/
def BayProt.freq (p : BayProt) : Option Rat := p.freps.head?.map (fun x => x.f)

/-- ROCOF over W cycles, where available, in Hz/s. -/
def BayProt.rocof (p : BayProt) (w : Nat) : Option Rat :=
  match p.freps.head?, p.freps[12 * w]? with
  | some x, some y => some ((x.f - y.f) / ((x.at_ - y.at_) / 1000000000))
  | _, _ => none

/-- ROCOF_WIN of a bay. -/
def State.rocofWin (s : State) (b : Nat) : Nat := s.fld (A.PRT_BAYCFG b) F.PRT_BAYCFG_ROCOF_WIN

/-! ### The snapshot (R121, R122, R151) -/

/-- The angle reference in turns, and whether IA stands in for the reference signal. -/
def State.angleRef (s : State) (cx : FrameCx) : Rat × Bool :=
  let k := s.fld (A.PRT_BAYCFG cx.b) F.PRT_BAYCFG_REFSIG
  let x := s.ph cx k 0
  if cxAbs x < 5 / 100 * s.kindNominal cx.b k then (cxArg (s.ph cx 0 0), true) else (cxArg x, false)

/-- Write a magnitude and its referred angle in degrees. -/
def State.putPhasor (s : State) (am aa : Nat) (x : Cx) (ref : Rat) : State :=
  (s.setReg am (peWord (cxAbs x))).setReg aa (peWord (360 * wrapTurn (cxArg x - ref)))

/-- THD of a KIND (R122). -/
def State.thd (s : State) (cx : FrameCx) (kind : Nat) : Rat :=
  let x1 := s.mag cx kind 0
  if (s.sigOf cx.b kind).isNone ∨ x1 < 1 / 100 * s.kindNominal cx.b kind then 0
  else realSqrt (((List.range 14).map (fun i => cxSq (s.harm cx kind (i + 2)))).foldl (· + ·) 0) / x1

/-- Signals of a bay declared with a snapshot KIND that are not VALID in their window. -/
def State.sInv (s : State) (cx : FrameCx) : Nat :=
  (List.range 11).foldl (fun a k => a + (if (s.sigOf cx.b k).isSome && !s.phOk cx k 0 then 2 ^ k else 0)) 0

/-- Write the snapshot of a frame. DESIGN CHOICE (assumption 62): PRT_MEAS_F_Bn reads 0 while FINV is set, as ROCOF does by R124. -/
def State.snapshot (s : State) (cx : FrameCx) (p : BayProt) : State :=
  let b := cx.b
  let (ref, alt) := s.angleRef cx
  let s1 := s.setReg (A.PRT_MEAS_FRM b) (lo32 cx.fr.n)
  let f := p.freq
  let r := if f.isSome then p.rocof (s.rocofWin b) else none
  let s2 := (s1.setReg (A.PRT_MEAS_F b) ((f.map peWord).getD 0)).setReg (A.PRT_MEAS_ROCOF b) ((r.map peWord).getD 0)
  let s3 := s2.forEach (List.range 11) (fun k t =>
    if (s.sigOf b k).isSome then t.putPhasor (A.PRT_MEAS_SIGM b k) (A.PRT_MEAS_SIGA b k) (s.ph cx k 0) ref else t)
  let i := s.iSeq cx
  let v := s.vSeq cx
  let s4 := ((s3.putPhasor (A.PRT_MEAS_ISEQM b 0) (A.PRT_MEAS_ISEQA b 0) i.z ref).putPhasor
    (A.PRT_MEAS_ISEQM b 1) (A.PRT_MEAS_ISEQA b 1) i.p ref).putPhasor (A.PRT_MEAS_ISEQM b 2) (A.PRT_MEAS_ISEQA b 2) i.n ref
  let s5 := if s.vconn b then (s4.setReg (A.PRT_MEAS_VSEQM b 0) 0).setReg (A.PRT_MEAS_VSEQA b 0) 0
    else s4.putPhasor (A.PRT_MEAS_VSEQM b 0) (A.PRT_MEAS_VSEQA b 0) v.z ref
  let s6 := (s5.putPhasor (A.PRT_MEAS_VSEQM b 1) (A.PRT_MEAS_VSEQA b 1) v.p ref).putPhasor
    (A.PRT_MEAS_VSEQM b 2) (A.PRT_MEAS_VSEQA b 2) v.n ref
  let pq := s.power cx
  let s7 := (s6.setReg (A.PRT_MEAS_P b) (peWord pq.re)).setReg (A.PRT_MEAS_Q b) (peWord pq.im)
  let s8 := s7.forEach (List.range 6) (fun l t =>
    match s.zLoop cx l with
    | some z => (t.setReg (A.PRT_MEAS_ZM b l) (peWord (cxAbs z))).setReg (A.PRT_MEAS_ZA b l) (peWord (360 * cxArg z))
    | none => (t.setReg (A.PRT_MEAS_ZM b l) 0x7F800000).setReg (A.PRT_MEAS_ZA b l) 0)
  let s9 := if cx.fr.n % 4 = 0 then
      s8.forEach (List.range 6) (fun j t => t.setReg (A.PRT_MEAS_THD b j) (peWord (s.thd cx (if j < 3 then j else j + 1))))
    else s8
  let zinv := (List.range 6).foldl (fun a l => a + (if (s.zLoop cx l).isNone then 2 ^ l else 0)) 0
  s9.setReg (A.PRT_MEAS_FLG b) (BitVec.ofNat 32 (alt.toNat * 2 ^ 31 + f.isNone.toNat * 2 ^ 30 + zinv * 2 ^ 24 +
    r.isNone.toNat * 2 ^ 23 + s.sInv cx))

/-- Step 1 of R119: take a frame into the windows, and measure. A gap in the frame counts empties them (R19). -/
def State.measure (s : State) (b : Nat) (fr : FrameBuf) : FrameCx × State :=
  let p := s.bayProt b
  let gap := match p.hist.head? with
    | some q => q.n + 1 != fr.n
    | none => false
  let h := (fr :: (if gap then [] else p.hist)).take 24
  let cx : FrameCx := { b := b, fr := fr, h := h, dt := frameDt fr }
  let p1 := { p with hist := h }
  let p2 := if gap then { p1 with seqs := [], fvals := [], freps := [], mags := [] } else p1
  let p3 := freqStep p2 (s.freqSource cx) fr.ft (frameEnd fr)
  let mags := if s.allOk cx [0, 1, 2] then ((s.mag cx 0 0, s.mag cx 1 0, s.mag cx 2 0) :: p3.mags).take 25 else []
  let p4 := { p3 with mags := mags }
  let wave : WavePre :=
    { tn := (s.devTime (frameEnd fr) : Rat), ft := fr.ft, va := s.ph cx 4 0, vb := s.ph cx 5 0, vc := s.ph cx 6 0,
      ok := s.allOk cx [4, 5, 6] && decide (1 / 2 * s.vph b ≤ cxAbs (s.vSeq cx).p) }
  let s1 := s.setBayProt b { p4 with wave := some wave }
  let s2 := s1.snapshot cx p4
  let s3 := if fr.n % 12 = 0 && s.allOk cx [4, 5, 6] && s.allOk cx [0, 1, 2] then
      s2.pairBalance b (s.ph cx 4 0) (s.ph cx 5 0) (s.ph cx 6 0) (cxAbs (s.iSeq cx).n)
    else s2
  (cx, s3)

end Sys2Proof.Machine
end

