-- ==== Sys2Proof/Machine/ElementOps.lean ====
section
/-! DEFINITION. The element framework (R128–R137): pickups and the cold-load multiplier, curves, the timer state, reset, and what an
element type answers for a frame. -/

namespace Sys2Proof.Machine

/-! ### Settings of an instance -/

def State.inst (s : State) (x : Nat) : InstSt := tabGet instInit s.prot.inst x

def State.setInst (s : State) (x : Nat) (i : InstSt) : State :=
  { s with prot := { s.prot with inst := tabPut instInit s.prot.inst x i } }

def State.eiType (s : State) (x : Nat) : Nat := s.fld (A.PRT_EI_CFG x) F.PRT_EI_CFG_TYPE
def State.eiBay (s : State) (x : Nat) : Nat := s.fld (A.PRT_EI_CFG x) F.PRT_EI_CFG_BAY
def State.eiOn (s : State) (x : Nat) : Bool := s.bit (A.PRT_EI_CFG x) 31
def State.eiUnder (s : State) (x : Nat) : Bool := s.bit (A.PRT_EI_CFG x) 16
def State.eiFilter (s : State) (x : Nat) : Nat :=
  let f := s.fld (A.PRT_EI_CFG x) F.PRT_EI_CFG_FILTER
  if f = 3 then 0 else f
def State.eiDr (s : State) (x : Nat) : Rat := s.fpReg (A.PRT_EI_DR x)
def State.eiTms (s : State) (x : Nat) : Rat := s.fpReg (A.PRT_EI_TMS x)
def State.eiTmin (s : State) (x : Nat) : Rat := s.fpReg (A.PRT_EI_TMIN x)
def State.eiCurve (s : State) (x : Nat) : Nat := s.fld (A.PRT_EI_TIM x) F.PRT_EI_TIM_CURVE
def State.eiReset (s : State) (x : Nat) : Nat := s.fld (A.PRT_EI_TIM x) F.PRT_EI_TIM_RESET

/-- Extension word `w` of instance `x` as FP32, as a field, as a bit (R158). -/
def State.exf (s : State) (x w : Nat) : Rat := s.fpReg (A.PRT_EX x w)
def State.exn (s : State) (x w : Nat) (f : Fld) : Nat := s.fld (A.PRT_EX x w) f
def State.exb (s : State) (x w i : Nat) : Bool := s.bit (A.PRT_EX x w) i

/-- The BIN input a field names. -/
def State.binOf (s : State) (x w : Nat) (f : Fld) : Bool := s.bit A.LIO_BIN_STATE (s.exn x w f)

/-- Declared instances: the type codes run from 1 (R154, R181). -/
def State.declaredInst (s : State) (x : Nat) : Bool := s.eiType x != 0

/-- The instances of a bay in ascending number. -/
def State.bayInsts (s : State) (b : Nat) : List Nat := (List.range 512).filter (fun x => s.declaredInst x && s.eiBay x == b)

/-! ### Cold-load pickup (R169) -/

/-- MULT of every CLP instance that operates and names `x`. -/
def State.clpMults (s : State) (x : Nat) : List Rat := (s.clpActs x).map (fun c => s.exf c 2)

/-- The factor on a target's Gs: the largest MULT, 1 where none operates. -/
def State.clpMult (s : State) (x : Nat) : Rat :=
  match s.clpMults x with
  | [] => 1
  | m :: l => l.foldl ratMax m

/-- Gs in force. -/
def State.eiGs (s : State) (x : Nat) : Rat := s.fpReg (A.PRT_EI_PU x) * s.clpMult x

/-! ### What a type answers for a frame -/

/-- An element type's answer: timed by the framework from M = G/Gs, with the operate extended by `hold` s and forced on by `now`;
definite only, dropping at once; or start and operate of its own, with what H reads. -/
inductive ElemOut where
  | timed (start : Bool) (m : Rat) (ph : Nat) (hold : Rat) (now : Bool)
  | fixed (start : Bool) (delay : Rat) (ph : Nat)
  | direct (start op : Bool) (ph : Nat) (h : Rat)

/-- An over element on one quantity (R129): starts at G ≥ Gs, stays while G ≥ DR × Gs. -/
def State.overOne (s : State) (x : Nat) (st : InstSt) (g gs : Rat) (ph : Nat) : ElemOut :=
  .timed (decide ((if st.started then s.eiDr x * gs else gs) ≤ g)) (magQuot g gs) ph 0 false

/-- An under element on one quantity. -/
def State.underOne (s : State) (x : Nat) (st : InstSt) (g gs : Rat) (ph : Nat) : ElemOut :=
  .timed (decide (g ≤ (if st.started then s.eiDr x * gs else gs))) (magQuot g gs) ph 0 false

/-- Phases that start or stay started: ratios G/Gs by phase, `none` where the phase does not count. -/
def startedPhases (dr : Rat) (st : InstSt) (rs : List (Option Rat)) : Nat :=
  (List.range 3).foldl (fun a p =>
    match rs.getD p none with
    | some r => if (if st.ph.testBit p then dr else 1) ≤ r then a + 2 ^ p else a
    | none => a) 0

/-- The largest ratio of the started phases. -/
def largestOf (bits : Nat) (rs : List (Option Rat)) : Rat :=
  (List.range 3).foldl (fun a p => if bits.testBit p then ratMax a ((rs.getD p none).getD 0) else a) 0

/-- A phase-segregated over element (R128). -/
def State.overPhases (s : State) (x : Nat) (st : InstSt) (rs : List (Option Rat)) : ElemOut :=
  let bits := startedPhases (s.eiDr x) st rs
  .timed (bits != 0) (if bits = 0 then (rs.map (fun r => r.getD 0)).foldl ratMax 0 else largestOf bits rs) bits 0 false

/-! ### Timing (R130–R133) -/

/-- Constants k and α of the IEC curves. -/
def iecConst (c : Nat) : Rat × Rat :=
  match c with
  | 1 => (14 / 100, 2 / 100)
  | 2 => (135 / 10, 1)
  | 3 => (80, 2)
  | _ => (120, 1)

/-- Constants A, B, p and tr of the IEEE curves. -/
def ieeeConst (c : Nat) : Rat × Rat × Rat × Rat :=
  match c with
  | 5 => (515 / 10000, 114 / 1000, 2 / 100, 485 / 100)
  | 6 => (1961 / 100, 491 / 1000, 2, 216 / 10)
  | _ => (282 / 10, 1217 / 10000, 2, 291 / 10)

/-- Base to a power of the curve constants; whole powers are exact. -/
def curvePow (m p : Rat) : Rat := if p = 1 then m else if p = 2 then m * m else realPow m p

/-- The user curve from point `i` on: linear in log M and log t between the points, held outside them (R132). -/
def State.ucurveFrom (s : State) (u : Nat) (m : Rat) (i : Nat) : Nat → Rat
  | 0 => s.fpReg (A.PRT_UC_T u i)
  | n + 1 =>
    let m0 := s.fpReg (A.PRT_UC_M u i)
    let m1 := s.fpReg (A.PRT_UC_M u (i + 1))
    let t0 := s.fpReg (A.PRT_UC_T u i)
    let t1 := s.fpReg (A.PRT_UC_T u (i + 1))
    if m ≤ m0 then t0
    else if m < m1 then
      t0 * realExp ((realLog m - realLog m0) / (realLog m1 - realLog m0) * (realLog t1 - realLog t0))
    else State.ucurveFrom s u m (i + 1) n

/-- t(M) of the instance's user curve. -/
def State.ucurve (s : State) (x : Nat) (m : Rat) : Rat :=
  s.ucurveFrom (s.fld (A.PRT_EI_TIM x) F.PRT_EI_TIM_UCURVE) m 0 15

/-- t_op of an instance at M = G/Gs (R131). -/
def State.tOp (s : State) (x : Nat) (m0 : Rat) : Rat :=
  let c := s.eiCurve x
  let tms := s.eiTms x
  let m := if s.eiUnder x then m0 else ratClamp (11 / 10) (s.fpReg (A.PRT_EI_GMAX x)) m0
  if c = 0 then tms
  else if c ≤ 4 then
    let (k, a) := iecConst c
    tms * k / (curvePow m a - 1)
  else if c ≤ 7 then
    let (a, b, p, _) := ieeeConst c
    tms * (a / (curvePow m p - 1) + b)
  else tms * s.ucurve x m

/-- tr of the inverse reset (R133). -/
def State.trConst (s : State) (x : Nat) : Rat :=
  let c := s.eiCurve x
  if 5 ≤ c ∧ c ≤ 7 then (ieeeConst c).2.2.2 else s.fpReg (A.PRT_EI_TR x)

/-- H over a frame in which the element is not started (R133). -/
def State.resetH (s : State) (x : Nat) (dt m : Rat) (st : InstSt) : InstSt :=
  match s.eiReset x with
  | 1 =>
    let idle := st.idle + dt
    { st with idle := idle, h := if s.fpReg (A.PRT_EI_TR x) < idle then 0 else st.h }
  | 2 =>
    if m < 1 ∧ m < s.eiDr x then
      let tr := s.eiTms x * s.trConst x / (1 - m * m)
      { st with h := if tr ≤ 0 then 0 else ratMax 0 (st.h - dt / tr) }
    else st
  | _ => { st with h := 0 }

/-- H over a frame in which the element is started with operate time `t` (R130): the start frame counts. -/
def advanceH (st : InstSt) (dt t : Rat) : InstSt :=
  let run := (if st.started then st.run else 0) + dt
  { st with started := true, run := run, idle := 0, h := if t ≤ 0 then ratMax st.h 1 else st.h + dt / t }

/-- H ≥ 1 and at least TMIN since the start. DESIGN CHOICE (assumption 63): TMIN counts the start frame, and holds back an element of t_op = 0
too, which R130 has operate in its start frame. -/
def State.hReached (s : State) (x : Nat) (st : InstSt) : Bool := decide (1 ≤ st.h) && decide (s.eiTmin x ≤ st.run)

/-- An answer turned into the instance's new timer state and its operate. -/
def State.finish (s : State) (x : Nat) (dt : Rat) (st : InstSt) (o : ElemOut) : InstSt × Bool :=
  match o with
  | .timed start m ph hold now =>
    let st1 := if start then { advanceH st dt (s.tOp x m) with ph := ph }
      else { s.resetH x dt m st with started := false, ph := 0, run := 0 }
    let op := start && (now || s.hReached x st1)
    if hold = 0 then (st1, op)
    else if op then ({ st1 with t1 := 0, flag := true }, true)
    else if st.flag && decide (st.t1 < hold) then ({ st1 with t1 := st.t1 + dt }, true)
    else ({ st1 with t1 := 0, flag := false }, false)
  | .fixed start delay ph =>
    if start then
      let st1 := advanceH (if st.started then st else { st with h := 0 }) dt delay
      let st2 := { st1 with ph := ph }
      (st2, s.hReached x st2)
    else ({ st with started := false, ph := 0, run := 0, idle := 0, h := 0 }, false)
  | .direct start op ph h => ({ st with started := start, ph := ph, h := h }, op)

/-- Start and operate 0, H ← 0 (R134, R136); what a type keeps through a block stays. -/
def InstSt.zero (st : InstSt) : InstSt := { st with h := 0, run := 0, idle := 0, started := false, ph := 0 }

end Sys2Proof.Machine
end

