-- ==== Sys2Proof/Machine/Feeder.lean ====
section
/-! DEFINITION. The feeder elements (R154–R174): each type's quantity, direction, supervision and what it keeps between frames. -/

namespace Sys2Proof.Machine

/-- The N bit of PH. -/
def phN : Nat := 8

/-! ### Direction (R160) -/

/-- θ (in turns) lies in the sector about RCA (degrees), turned by 180° for a reverse element and widened by `widen` degrees. -/
def inSector (theta rca sector : Rat) (rev : Bool) (widen : Rat) : Bool :=
  let d := wrapTurn (theta - rca / 360 - (if rev then 1 / 2 else 0))
  decide (360 * (if d < 0 then -d else d) ≤ sector / 2 + widen)

/-- Polarising phasors of DPOC. -/
def State.polarising (s : State) (cx : FrameCx) (p : Nat) : Cx :=
  let v (k : Nat) := s.ph cx (4 + k % 3) 0
  let x := cxJ (if s.vconn cx.b then v (p + 1) else cxSub (v (p + 1)) (v (p + 2)))
  if s.rotAcb cx.b then cxNeg x else x

def polInit : PolMem := { good := 0, v := cxZero, n := 0, at_ := 0, filled := false }

/-- A phase's memory over a frame (R161). -/
def polStep (m : PolMem) (ok : Bool) (v : Cx) (vmin : Rat) (fr : FrameBuf) : PolMem :=
  if ok && decide (vmin ≤ cxAbs v) then
    let g := m.good + 1
    if 12 ≤ g then { good := 12, v := v, n := fr.n, at_ := frameEnd fr, filled := true } else { m with good := g }
  else { m with good := 0 }

/-- The polarising phasor in force: the present one, else the stored one advanced, for at most 24 frames. -/
def polNow (m : PolMem) (ok : Bool) (v : Cx) (vmin : Rat) (fr : FrameBuf) : Option Cx :=
  if ok && decide (vmin ≤ cxAbs v) then some v
  else if m.filled && Nat.ble fr.n (m.n + 24) then some (cxMul m.v (cxTurn (fr.ft * (frameEnd fr - m.at_) / 1000000000)))
  else none

/-! ### What a type watches in every enabled frame, blocked or not -/

/-- CLP's dead times (R169): `t1` below Gs, `t2` breaker open; `flag` the bay is cold. -/
def State.observeClp (s : State) (cx : FrameCx) (x : Nat) (st : InstSt) : InstSt :=
  let t1 := if s.allOk cx [0, 1, 2] then (if s.imax cx < s.eiGs x then st.t1 + cx.dt else 0) else st.t1
  let t2 := if s.exb x 3 7 && s.binOf x 3 F.EX_CLP_CBBIN then st.t2 + cx.dt else 0
  { st with t1 := t1, t2 := t2, flag := st.flag || decide (s.exf x 0 ≤ ratMax t1 t2) }

/-- DPOC's memories. -/
def State.observeDpoc (s : State) (cx : FrameCx) (x : Nat) (st : InstSt) : InstSt :=
  let ok := s.allOk cx [4, 5, 6]
  { st with pol := (List.range 3).map (fun p => polStep (st.pol.getD p polInit) ok (s.polarising cx p) (s.exf x 3) cx.fr) }

/-! ### Windows (R107) -/

/-- The filter's windows of the KINDs hold only VALID samples. -/
def State.winOk (s : State) (cx : FrameCx) (ks : List Nat) (f : Nat) : Bool := ks.all (fun k => s.phOk cx k f)

/-- The windows an instance uses are VALID. -/
def State.feederOk (s : State) (cx : FrameCx) (x : Nat) : Bool :=
  let f := s.eiFilter x
  let cur (sum : Bool) : List Nat := if sum then [0, 1, 2] else [3]
  let res (meas : Bool) : List Nat := if meas then [7] else [4, 5, 6]
  match s.eiType x with
  | 0x01 => s.winOk cx [0, 1, 2] f
  | 0x02 => s.winOk cx (cur (s.exb x 0 0)) f
  | 0x03 => s.winOk cx [0, 1, 2, 4, 5, 6] 0
  | 0x04 => s.winOk cx (cur (s.exb x 2 2) ++ res (s.exb x 2 3)) f
  | 0x05 => s.winOk cx [0, 1, 2] 0
  | 0x06 => s.winOk cx [0, 1, 2, 4, 5, 6] 0
  | 0x07 => s.winOk cx [4, 5, 6] 0
  | 0x08 => s.winOk cx [4, 5, 6] 0
  | 0x09 => s.winOk cx (res (s.exb x 0 0)) 0
  | 0x0A => s.winOk cx [4, 5, 6] 0
  | 0x0D =>
    s.exn x 0 F.EX_BF_MODE == 1 ||
      ([0, 1, 2] ++ (if s.exb x 0 2 then [3] else [])).all (fun k =>
        match s.sigOf cx.b k with
        | some g => windowValid 24 (histSig cx.h g)
        | none => false)
  | 0x0F => s.winOk cx [0, 1, 2] 0
  | 0x10 => s.winOk cx [0, 1, 2] 0
  | 0x12 => s.winOk cx ([0, 1, 2] ++ (if s.exb x 0 0 then [4, 5, 6] else [3])) 0
  | 0x13 => s.winOk cx [0, 1, 2, 4, 5, 6] 0
  | _ => true

/-! ### Overcurrent -/

/-- PHOC (R159). -/
def State.evalPhoc (s : State) (cx : FrameCx) (x : Nat) (st : InstSt) : ElemOut :=
  s.overPhases x st ([0, 1, 2].map (fun p => some (magQuot (s.mag cx p (s.eiFilter x)) (s.eiGs x))))

/-- NOC (R159). -/
def State.evalNoc (s : State) (cx : FrameCx) (x : Nat) (st : InstSt) : ElemOut :=
  s.overOne x st (cxAbs (s.resI cx (s.exb x 0 0) (s.eiFilter x))) (s.eiGs x) phN

/-- NPOC (R159). -/
def State.evalNpoc (s : State) (cx : FrameCx) (x : Nat) (st : InstSt) : ElemOut :=
  s.overOne x st (cxAbs (s.iSeq cx).n) (s.eiGs x) 0

/-- DPOC (R160, R161): each phase counts where its direction matches. DESIGN CHOICE (assumption 65): a phase out of direction counts as
M = 0 in the timing and the reset. -/
def State.evalDpoc (s : State) (cx : FrameCx) (x : Nat) (st : InstSt) : ElemOut :=
  let ok := s.allOk cx [4, 5, 6]
  let rs := [0, 1, 2].map (fun p =>
    let was := st.ph.testBit p
    let dir := match polNow (st.pol.getD p polInit) ok (s.polarising cx p) (s.exf x 3) cx.fr with
      | none => was || s.exb x 2 1
      | some v => inSector (cxArg (s.ph cx p 0) - cxArg v) (s.exf x 0) (s.exf x 1) (s.exb x 2 0) (if was then 2 else 0)
    if dir then some (magQuot (s.mag cx p 0) (s.eiGs x)) else none)
  s.overPhases x st rs

/-- DEF (R162): by angle, or by the projection on RCA inside the sector of DIR; it cannot start while |3V0| < V0MIN. -/
def State.evalDef (s : State) (cx : FrameCx) (x : Nat) (st : InstSt) : ElemOut :=
  let f := s.eiFilter x
  let ie := s.resI cx (s.exb x 2 2) f
  let v0 := s.resV cx (s.exb x 2 3) f
  let theta := cxArg ie - cxArg (cxNeg v0)
  let rev := s.exb x 2 0
  let proj := s.exb x 2 1
  let inside := inSector theta (s.exf x 0) (s.exf x 1) rev (if st.started && !proj then 2 else 0)
  let g := if !inside then 0
    else if proj then cxAbs ie * realCos (wrapTurn (theta - s.exf x 0 / 360))
    else cxAbs ie
  s.overOne x st (if !st.started && decide (cxAbs v0 < s.exf x 3) then 0 else g) (s.eiGs x) phN

/-- VROC (R163): each phase against k × Gs. -/
def State.evalVroc (s : State) (cx : FrameCx) (x : Nat) (st : InstSt) : ElemOut :=
  let v (p : Nat) : Rat :=
    if s.vconn cx.b then s.mag cx (4 + p) 0 else cxAbs (cxSub (s.ph cx (4 + p) 0) (s.ph cx (4 + (p + 1) % 3) 0))
  s.overPhases x st ([0, 1, 2].map (fun p =>
    let k := ratClamp (s.exf x 1) 1 (magQuot (v p) (s.exf x 0 * s.vnom cx.b))
    some (magQuot (s.mag cx p 0) (k * s.eiGs x))))

/-! ### Voltage and frequency -/

/-- The three magnitudes of PUV and POV (R164). -/
def State.voltMags (s : State) (cx : FrameCx) (meas : Bool) : List Rat :=
  [0, 1, 2].map (fun p =>
    if meas && !s.vconn cx.b then cxAbs (cxSub (s.ph cx (4 + p) 0) (s.ph cx (4 + (p + 1) % 3) 0)) else s.mag cx (4 + p) 0)

/-- Phases at or below their limit. -/
def underPhases (dr gs : Rat) (st : InstSt) (vs : List Rat) : Nat :=
  (List.range 3).foldl (fun a p => if vs.getD p 0 ≤ (if st.ph.testBit p then dr else 1) * gs then a + 2 ^ p else a) 0

/-- PUV (R164). -/
def State.evalPuv (s : State) (cx : FrameCx) (x : Nat) (st : InstSt) : ElemOut :=
  let vs := s.voltMags cx (s.exb x 0 0)
  let gs := s.eiGs x
  let blk := s.exf x 1
  let bits := underPhases (s.eiDr x) gs st vs
  let lo := vs.foldl ratMin (vs.getD 0 0)
  let hi := vs.foldl ratMax 0
  let dead := decide (0 < blk) && vs.all (fun v => decide (v < blk))
  let all := s.exb x 0 1
  let on := if all then bits == 7 else bits != 0
  .timed (on && (st.started || !dead)) (magQuot (if all then hi else lo) gs) (if on then bits else 0) 0 false

/-- POV (R164). -/
def State.evalPov (s : State) (cx : FrameCx) (x : Nat) (st : InstSt) : ElemOut :=
  s.overPhases x st ((s.voltMags cx (s.exb x 0 0)).map (fun v => some (magQuot v (s.eiGs x))))

/-- ROV and NPOV (R164). -/
def State.evalRov (s : State) (cx : FrameCx) (x : Nat) (st : InstSt) : ElemOut :=
  s.overOne x st (cxAbs (s.resV cx (s.exb x 0 0) 0)) (s.eiGs x) 0
def State.evalNpov (s : State) (cx : FrameCx) (x : Nat) (st : InstSt) : ElemOut :=
  s.overOne x st (cxAbs (s.vSeq cx).n) (s.eiGs x) 0

/-- V1 is measured and at least VMIN (R165). -/
def State.freqMay (s : State) (cx : FrameCx) (vmin : Rat) : Bool :=
  s.allOk cx [4, 5, 6] && decide (vmin ≤ cxAbs (s.vSeq cx).p)

/-- FREQ (R165). DESIGN CHOICE (assumption 66): a started element drops when no frequency is reported. -/
def State.evalFreq (s : State) (cx : FrameCx) (x : Nat) (st : InstSt) : ElemOut :=
  match (s.bayProt cx.b).freq with
  | none => .timed false 0 0 0 false
  | some f =>
    let gs := s.eiGs x
    let hys := s.exf x 0
    let on := if s.eiUnder x then decide (f ≤ (if st.started then gs + hys else gs))
      else decide ((if st.started then gs - hys else gs) ≤ f)
    .timed (on && (st.started || s.freqMay cx (s.exf x 1))) (magQuot f gs) 0 0 false

/-- ROCOF (R166). -/
def State.evalRocof (s : State) (cx : FrameCx) (x : Nat) (st : InstSt) : ElemOut :=
  match (s.bayProt cx.b).rocof (s.rocofWin cx.b) with
  | none => .timed false 0 0 0 false
  | some r =>
    let g := match s.exn x 0 F.EX_ROCOF_SIGN with
      | 0 => ratMax r (-r)
      | 1 => ratMax r 0
      | _ => ratMax (-r) 0
    if st.started || s.freqMay cx (s.exf x 1) then s.overOne x st g (s.eiGs x) 0 else .timed false (magQuot g (s.eiGs x)) 0 0 false

/-! ### Breaker failure, cold load, inrush -/

/-- A channel with BFEN of the bay was asserted at frame close (R167). -/
def State.bfChannel (s : State) (cx : FrameCx) : Bool :=
  (List.range 32).any (fun c => s.bit (A.PRT_TCH_CFG c) 22 && s.fld (A.PRT_TCH_CFG c) F.PRT_TCH_CFG_BFBAY == cx.b && bitGet cx.fr.tch c)

/-- BF (R167). -/
def State.evalBf (s : State) (cx : FrameCx) (x : Nat) : ElemOut :=
  let src := s.bfChannel cx || (s.exb x 0 8 && s.binOf x 0 F.EX_BF_EXTBIN)
  let ks := [0, 1, 2] ++ (if s.exb x 0 2 then [3] else [])
  let lim := root2 * s.eiGs x
  let cur := ks.any (fun k => ((s.rawSamples cx.b k cx.h).take 24).any (fun v => decide (lim ≤ ratMax v (-v))))
  let con := s.binOf x 0 F.EX_BF_CBBIN
  let cond := match s.exn x 0 F.EX_BF_MODE with
    | 0 => cur
    | 1 => con
    | _ => cur || con
  .fixed (src && cond) (s.eiTms x) 0

/-- CLP (R169): `t3` what is left of TCLP. -/
def State.evalClp (s : State) (cx : FrameCx) (x : Nat) (st : InstSt) : ElemOut × InstSt :=
  let hit := st.flag && decide (s.eiGs x ≤ s.imax cx)
  let left := if hit then s.exf x 1 else ratMax 0 (st.t3 - cx.dt)
  (.direct (st.flag && !hit) (decide (0 < left)) 0 0, { st with flag := st.flag && !hit, t3 := left })

/-- INR (R171). -/
def State.evalInr (s : State) (cx : FrameCx) (x : Nat) (st : InstSt) : ElemOut :=
  let rs := [0, 1, 2].map (fun p =>
    let x1 := s.mag cx p 0
    if 5 / 100 * s.inom cx.b ≤ x1 ∧ x1 ≤ s.exf x 0 then some (magQuot (magQuot (cxAbs (s.harm cx p 2)) x1) (s.eiGs x)) else none)
  match s.overPhases x st rs with
  | .timed start m ph _ _ => .timed start m ph (s.exf x 1) false
  | o => o

/-! ### Supervision -/

/-- TCS (R172). -/
def State.evalTcs (s : State) (x : Nat) : ElemOut :=
  let pin := s.exn x 0 F.EX_TCS_PIN
  let since := (tabGet 0 s.trip.pinOff pin) - 1
  let free := !s.bit A.LIO_TOUT pin && Nat.ble (since + 500000000) s.tim.up
  let g := free && (s.bit A.LIO_TOUT (16 + pin) != s.exb x 0 4)
  .timed g (if g then 1 else 0) 0 0 false

/-- CTS (R173): uncounted frames have G = 0. -/
def State.evalCts (s : State) (cx : FrameCx) (x : Nat) (st : InstSt) : ElemOut :=
  let i := s.iSeq cx
  let g := if s.exb x 0 0 then
      (if s.exf x 2 ≤ cxAbs i.p ∧ cxAbs (s.vSeq cx).n < s.exf x 1 then magQuot (cxAbs i.n) (cxAbs i.p) else 0)
    else cxAbs (cxSub (s.ph cx 3 0) (s.resI cx true 0))
  s.overOne x st g (s.eiGs x) 0

/-- No phase's magnitude has changed by more than `di` over the last 24 frames. -/
def steadyMags (mags : List (Rat × (Rat × Rat))) (di : Rat) : Bool :=
  let ok (f : Rat × (Rat × Rat) → Rat) : Bool :=
    match mags.map f with
    | [] => false
    | a :: l => decide (l.foldl ratMax a - l.foldl ratMin a ≤ di)
  mags.length == 25 && ok (fun m => m.1) && ok (fun m => m.2.1) && ok (fun m => m.2.2)

/-- VTFF (R174): `flag` started, `t1` consecutive healthy frames. -/
def State.evalVtff (s : State) (cx : FrameCx) (x : Nat) (st : InstSt) : ElemOut × InstSt :=
  let i := s.iSeq cx
  let v := s.vSeq cx
  let mcb := s.exb x 4 5 && s.binOf x 4 F.EX_VTFF_MCBBIN
  let v1 := cxAbs v.p
  let v2 := cxAbs v.n
  let begin_ := (decide (s.exf x 0 ≤ v2) && decide (cxAbs i.n < s.exf x 1)) ||
    (decide (v1 < s.exf x 2) && decide (5 / 100 * s.inom cx.b ≤ cxAbs i.p) && steadyMags (s.bayProt cx.b).mags (s.exf x 3)) || mcb
  let healthy := decide (7 / 10 * s.vph cx.b ≤ v1) && decide (v2 < 5 / 100 * s.vph cx.b)
  let t1 := if st.flag && healthy then st.t1 + 1 else 0
  let on := if st.flag then !(decide (60 ≤ t1) && !mcb) else begin_
  (.timed on (if on then 1 else 0) 0 0 false, { st with flag := on, t1 := if on then t1 else 0 })

/-- A feeder type's answer and what it keeps. -/
def State.evalFeeder (s : State) (cx : FrameCx) (x : Nat) (st : InstSt) : ElemOut × InstSt :=
  match s.eiType x with
  | 0x01 => (s.evalPhoc cx x st, st)
  | 0x02 => (s.evalNoc cx x st, st)
  | 0x03 => (s.evalDpoc cx x st, st)
  | 0x04 => (s.evalDef cx x st, st)
  | 0x05 => (s.evalNpoc cx x st, st)
  | 0x06 => (s.evalVroc cx x st, st)
  | 0x07 => (s.evalPuv cx x st, st)
  | 0x08 => (s.evalPov cx x st, st)
  | 0x09 => (s.evalRov cx x st, st)
  | 0x0A => (s.evalNpov cx x st, st)
  | 0x0B => (s.evalFreq cx x st, st)
  | 0x0C => (s.evalRocof cx x st, st)
  | 0x0D => (s.evalBf cx x, st)
  | 0x0F => s.evalClp cx x st
  | 0x10 => (s.evalInr cx x st, st)
  | 0x11 => (s.evalTcs x, st)
  | 0x12 => (s.evalCts cx x st, st)
  | 0x13 => s.evalVtff cx x st
  | _ => (.direct false false 0 0, st)

end Sys2Proof.Machine
end

