-- ==== Sys2Proof/Machine/Motor.lean ====
section
/-! DEFINITION. The motor of a bay (R178–R180) and the motor and pump elements (R181–R193). -/

namespace Sys2Proof.Machine

/-! ### The motor (R178, R179) -/

/-- The bay's THM instance. -/
def State.thmOf (s : State) (b : Nat) : Option Nat := (s.bayInsts b).find? (fun x => s.eiType x == 0x14)

def State.motor (s : State) (b : Nat) : MotorSt := (s.bayProt b).motor

def State.setMotor (s : State) (b : Nat) (m : MotorSt) : State := s.setBayProt b { s.bayProt b with motor := m }

/-- Starts younger than 3,600 s of operating time. -/
def State.startsHour (s : State) (m : MotorSt) : Nat :=
  m.startList.countP (fun t => Nat.blt (s.reg A.ALM_OPSEC).toNat (t + 3600))

/-- The breaker input of THM reads open, and its speed switch rotating. -/
def State.cbOpen (s : State) (t : Nat) : Bool := s.exb t 11 2 && s.binOf t 11 F.EX_THM_CBBIN
/-- The speed input reads rotating, whether or not THM uses it. -/
def State.spdPin (s : State) (t : Nat) : Bool := s.binOf t 11 F.EX_THM_SPDBIN
def State.spdOn (s : State) (t : Nat) : Bool := s.exb t 11 8 && s.spdPin t

/-- The state after a frame with the given Imax (R179): 0 STOPPED, 1 STARTING, 2 RUNNING. -/
def State.motorNext (s : State) (t : Nat) (m : MotorSt) (imax : Rat) : Nat :=
  if m.state = 0 then (if s.exf t 8 ≤ imax then 1 else 0)
  else if s.cbOpen t || Nat.ble 12 m.low then 0
  else if m.state = 1 ∧ imax < 9 / 10 * s.exf t 8 then 2
  else m.state

/-- A start is counted and listed (R179). -/
def State.countStart (s : State) (b : Nat) : State :=
  let v := (s.reg (A.PRT_MOT_STARTS b)).toNat
  if v = 0xFFFFFFFF then s
  else
    let s1 := s.setReg (A.PRT_MOT_STARTS b) (BitVec.ofNat 32 (v + 1))
    if v + 1 = 0xFFFFFFFF then s1.raise Ev.PRT_CNT_SAT (1024 + b) else s1

/-- The motor's registers (R200, R201). -/
def State.motorSync (s : State) (b t : Nat) : State :=
  let m := s.motor b
  let stop := if m.state = 0 then min (ratFloorNat m.since) 0xFFFF else 0
  let w := m.state * 2 ^ 30 + (s.spdOn t).toNat * 2 ^ 29 + (s.cbOpen t).toNat * 2 ^ 28 + min (s.startsHour m) 16 * 2 ^ 16 + stop
  (((s.setReg (A.PRT_MOT_STAT b) (BitVec.ofNat 32 w)).setReg (A.PRT_MOT_THS b) (peWord m.thetaS)).setReg
    (A.PRT_MOT_THR b) (peWord m.thetaR)).setReg (A.PRT_MOT_DTH b) (peWord m.dth)

/-- The record of a start that ended in RUNNING. -/
def State.startRecord (s : State) (b : Nat) (m : MotorSt) : State :=
  ((s.setReg (A.PRT_MOT_LSTT b) (peWord m.dur)).setReg (A.PRT_MOT_LSI2T b) (peWord m.i2t)).setReg (A.PRT_MOT_LSIPK b) (peWord m.peak)

/-- The motor over a frame, before any instance is evaluated. -/
def State.motorStep (s : State) (cx : FrameCx) : State :=
  let b := cx.b
  match s.thmOf b with
  | none => s
  | some t =>
    let m0 := s.motor b
    if !s.allOk cx [0, 1, 2] then
      s.setMotor b { m0 with changed := false, curI := none, since := m0.since + cx.dt, dur := if m0.state = 1 then m0.dur + cx.dt else m0.dur }
    else
      let imax := s.imax cx
      let m1 := { m0 with curI := some imax, low := if imax < s.exf t 9 then min (m0.low + 1) 12 else 0 }
      let n := s.motorNext t m1 imax
      let m2 := { m1 with state := n, changed := n != m0.state, since := if n = m0.state then m0.since + cx.dt else 0 }
      let q := imax / s.exf t 0
      let add := q * q * cx.dt
      let m3 :=
        if n = 1 ∧ m0.state = 0 then
          { m2 with i2t := add, peak := imax, dur := cx.dt, atStart := m0.thetaR
                    startList := ((s.reg A.ALM_OPSEC).toNat :: m0.startList).take 16 }
        else if n = 1 then { m2 with i2t := m0.i2t + add, peak := ratMax m0.peak imax, dur := m0.dur + cx.dt }
        else if n = 2 ∧ m0.state = 1 then { m2 with dth := m0.thetaR - m0.atStart }
        else m2
      let s1 := s.setMotor b m3
      let s2 := if n = 1 ∧ m0.state = 0 then s1.countStart b else s1
      if n = 2 ∧ m0.state = 1 then s2.startRecord b m3 else s2

/-! ### Thermal model (R183, R184) -/

/-- θ over a frame: θ∞ + (θ − θ∞) e^(−Δt/τ). -/
def thetaStep (theta final dt tau : Rat) : Rat := final + (theta - final) * realExp (-(dt / tau))

/-- The thermal states over a frame; a frame whose I1 or I2 is not VALID holds them. -/
def State.thermalStep (s : State) (cx : FrameCx) (x : Nat) : State :=
  if !s.allOk cx [0, 1, 2] then s
  else
    let m := s.motor cx.b
    let i := s.iSeq cx
    let i1 := cxSq i.p
    let i2 := cxSq i.n
    let kib := s.exf x 1 * s.exf x 0
    let kr := if m.state = 1 then s.exf x 6 else s.exf x 7
    let off := m.state == 0
    let ts := if off then s.exf x 4 * s.exf x 2 else s.exf x 2
    let tr := if off then s.exf x 4 * s.exf x 3 else s.exf x 3
    let fs := if off then 0 else (i1 + i2) / (kib * kib)
    let fr := if off then 0 else kr * (i1 + s.exf x 5 * i2) / (kib * kib)
    s.setMotor cx.b { m with thetaS := thetaStep m.thetaS fs cx.dt ts, thetaR := thetaStep m.thetaR fr cx.dt tr }

/-- THM (R184). -/
def State.evalThm (s : State) (cx : FrameCx) (x : Nat) (wasOp : Bool) : ElemOut :=
  let m := s.motor cx.b
  let g := ratMax m.thetaS m.thetaR
  let gs := s.eiGs x
  .direct (decide (s.exf x 10 ≤ g)) (decide ((if wasOp then s.eiDr x * gs else gs) ≤ g)) 0 g

/-- DTH of RSI (R185). -/
def State.rsiDth (s : State) (x : Nat) (m : MotorSt) : Rat := ratMax (m.dth * s.exf x 0) (s.exf x 1)

/-- RSI (R185). -/
def State.evalRsi (s : State) (cx : FrameCx) (x : Nat) (wasOp : Bool) : ElemOut :=
  let m := s.motor cx.b
  let g := ratMax (m.thetaR + s.rsiDth x m) m.thetaS
  let gs := s.eiGs x
  let on := m.state == 0 && decide ((if wasOp then s.eiDr x * gs else gs) ≤ g)
  .direct on on 0 (if on then 1 else 0)

/-- One term of PRT_MOT_TRST: 0 where its logarithm is not positive. -/
def trstTerm (tau num den : Rat) : Rat := if 0 < den ∧ den < num then tau * realLog (num / den) else 0

/-- PRT_MOT_TRST (R185): while an RSI instance of the bay operates. -/
def State.trstSync (s : State) (b : Nat) : State :=
  match s.thmOf b, (s.bayInsts b).filter (fun x => s.eiType x == 0x15 && s.bit (A.PRT_EI_STATE x) 31) with
  | some t, x :: _ =>
    let m := s.motor b
    let lim := s.eiDr x * s.eiGs x
    let v := ratMax (trstTerm (s.exf t 4 * s.exf t 3) m.thetaR (lim - s.rsiDth x m)) (trstTerm (s.exf t 4 * s.exf t 2) m.thetaS lim)
    s.setReg (A.PRT_MOT_TRST b) (peWord v)
  | _, _ => s.setReg (A.PRT_MOT_TRST b) 0

/-! ### Starting, stalling, running light, restart blocks -/

/-- STS (R186). -/
def State.evalSts (s : State) (cx : FrameCx) (x : Nat) : ElemOut :=
  let m := s.motor cx.b
  let on := m.state == 1
  if s.exb x 0 0 then .direct on (on && decide (s.eiGs x ≤ m.i2t)) 0 (if on then magQuot m.i2t (s.eiGs x) else 0)
  else .fixed on (s.eiTms x) 0

/-- LRS's stall criterion (R187). -/
def State.evalStall (s : State) (cx : FrameCx) (x : Nat) (st : InstSt) : ElemOut :=
  let m := s.motor cx.b
  let g := m.curI.getD 0
  let gs := s.eiGs x
  let was := st.flag
  let on := m.state == 2 && decide ((if was then s.eiDr x * gs else gs) ≤ g)
  .timed on (magQuot g gs) 0 0 false

/-- LRS's locked-rotor criterion: started, and whether it operates. -/
def State.lockedRotor (s : State) (cx : FrameCx) (x : Nat) : Bool × Bool :=
  match s.thmOf cx.b with
  | none => (false, false)
  | some t =>
    let m := s.motor cx.b
    let on := s.exb x 0 0 && s.exb t 11 8 && m.state == 1 && !s.spdOn t
    (on, on && decide (s.exf x 1 ≤ m.dur))

/-- The motor has been RUNNING for a time (R188, R189). -/
def armedFor (m : MotorSt) (t : Rat) : Bool := m.state == 2 && decide (t ≤ m.since)

/-- JAM (R188). -/
def State.evalJam (s : State) (cx : FrameCx) (x : Nat) (st : InstSt) : ElemOut :=
  let m := s.motor cx.b
  let g := m.curI.getD 0
  if armedFor m (s.exf x 0) then s.overOne x st g (s.eiGs x) 0 else .timed false (magQuot g (s.eiGs x)) 0 0 false

/-- LOL (R189): an under element, whatever UNDER. -/
def State.evalLol (s : State) (cx : FrameCx) (x : Nat) (st : InstSt) : ElemOut :=
  let m := s.motor cx.b
  let g := if s.exb x 0 0 then (s.power cx).re else cxAbs (s.iSeq cx).p
  if armedFor m (s.exf x 1) then s.underOne x st g (s.eiGs x) 0 else .timed false (magQuot g (s.eiGs x)) 0 0 false

/-- SPH (R190). -/
def State.evalSph (s : State) (cx : FrameCx) (x : Nat) : ElemOut :=
  let m := s.motor cx.b
  let recent := match m.startList with
    | t :: _ => decide (((s.reg A.ALM_OPSEC).toNat : Rat) - (t : Rat) < s.exf x 0)
    | [] => false
  let on := m.state == 0 && (decide (s.eiGs x ≤ (s.startsHour m : Rat)) || recent)
  .direct on on 0 (if on then 1 else 0)

/-- The speed input of the bay's motor reads rotating. -/
def State.baySpd (s : State) (b : Nat) : Bool :=
  match s.thmOf b with
  | some t => s.spdPin t
  | none => false

/-- ABS (R191): `flag` active, `t1` seconds the speed switch has read stopped. -/
def State.evalAbs (s : State) (cx : FrameCx) (x : Nat) (st : InstSt) : ElemOut × InstSt :=
  let m := s.motor cx.b
  let enter := m.state == 0 && m.changed
  let t1 := if s.baySpd cx.b then 0 else st.t1 + cx.dt
  let done := decide (s.eiTms x ≤ m.since) && (!s.exb x 0 0 || decide (2 ≤ t1))
  let on := m.state == 0 && (enter || (st.flag && !done))
  (.direct on on 0 (if on then 1 else 0), { st with flag := on, t1 := t1 })

/-! ### Differential, reversal, unbalance -/

/-- Id of a phase (R192) with a filter. -/
def State.mdifId (s : State) (cx : FrameCx) (x p f : Nat) : Rat :=
  let k := cxScale (s.exf x 0) (s.ph cx (8 + p) f)
  cxAbs (if s.exb x 1 0 then cxAdd (s.ph cx p f) k else cxSub (s.ph cx p f) k)

/-- Th of a phase. -/
def State.mdifTh (s : State) (cx : FrameCx) (x p : Nat) : Rat :=
  let ir := (s.mag cx p 0 + s.exf x 0 * s.mag cx (8 + p) 0) / 2
  let hot := (s.thmOf cx.b).isNone || (s.motor cx.b).state == 1
  let k := if hot then ratMax (s.exf x 2) (s.exf x 6) else s.exf x 2
  let i2 := s.exf x 3
  ratMax (s.eiGs x) (if ir ≤ i2 then k * ir else k * i2 + s.exf x 4 * (ir - i2))

/-- MDIF (R192): biased, with the unrestrained stage. -/
def State.evalMdif (s : State) (cx : FrameCx) (x : Nat) (st : InstSt) : ElemOut :=
  let high := [0, 1, 2].map (fun p => decide (s.exf x 5 ≤ s.mdifId cx x p 1))
  match s.overPhases x st ([0, 1, 2].map (fun p => some (magQuot (s.mdifId cx x p 0) (s.mdifTh cx x p)))) with
  | .timed start m ph _ _ =>
    let hb := (List.range 3).foldl (fun a p => if high.getD p false && !ph.testBit p then a + 2 ^ p else a) ph
    .timed (start || high.any id) m hb 0 (high.any id)
  | o => o

/-- PREV (R193). -/
def State.evalPrev (s : State) (cx : FrameCx) (x : Nat) (st : InstSt) : ElemOut :=
  let q := if s.exb x 0 0 then s.vSeq cx else s.iSeq cx
  let may := if s.exb x 0 0 then decide (1 / 2 * s.vph cx.b ≤ cxAbs q.p) else decide (1 / 10 * s.inom cx.b ≤ cxAbs q.p)
  let g := magQuot (cxAbs q.n) (cxAbs q.p)
  if st.started || may then s.overOne x st g (s.eiGs x) 0 else .timed false (magQuot g (s.eiGs x)) 0 0 false

/-- UNB (R193). -/
def State.evalUnb (s : State) (cx : FrameCx) (x : Nat) (st : InstSt) : ElemOut :=
  let i := s.iSeq cx
  let on := (s.thmOf cx.b).isNone || ((s.motor cx.b).state == 2 && decide (s.exf x 0 ≤ cxAbs i.p))
  s.overOne x st (if on then magQuot (cxAbs i.n) (cxAbs i.p) else 0) (s.eiGs x) 0

/-- The windows a motor type uses are VALID (R107). -/
def State.motorOk (s : State) (cx : FrameCx) (x : Nat) : Bool :=
  match s.eiType x with
  | 0x14 => s.allOk cx [0, 1, 2]
  | 0x17 => s.allOk cx [0, 1, 2]
  | 0x18 => s.allOk cx [0, 1, 2]
  | 0x19 => s.allOk cx (if s.exb x 0 0 then (if s.vconn cx.b then [0, 2, 4, 5] else [0, 1, 2, 4, 5, 6]) else [0, 1, 2])
  | 0x1C => s.allOk cx [0, 1, 2, 8, 9, 10]
  | 0x1D => s.allOk cx (if s.exb x 0 0 then [4, 5, 6] else [0, 1, 2])
  | 0x1E => s.allOk cx [0, 1, 2]
  | _ => true

/-- LRS (R187): the stall criterion runs on the timer with `flag` for its own start; the other criterion joins start and operate. -/
def State.finishLrs (s : State) (cx : FrameCx) (x : Nat) (st : InstSt) : InstSt × Bool :=
  let (lock, trip) := s.lockedRotor cx x
  let (st1, op) := s.finish x cx.dt { st with started := st.flag } (s.evalStall cx x st)
  ({ st1 with flag := st1.started, started := st1.started || lock }, op || trip)

/-- A motor type's answer and what it keeps. `wasOp` is its operate of the last frame. -/
def State.evalMotor (s : State) (cx : FrameCx) (x : Nat) (st : InstSt) (wasOp : Bool) : ElemOut × InstSt :=
  match s.eiType x with
  | 0x14 => (s.evalThm cx x wasOp, st)
  | 0x15 => (s.evalRsi cx x wasOp, st)
  | 0x16 => (s.evalSts cx x, st)
  | 0x18 => (s.evalJam cx x st, st)
  | 0x19 => (s.evalLol cx x st, st)
  | 0x1A => (s.evalSph cx x, st)
  | 0x1B => s.evalAbs cx x st
  | 0x1C => (s.evalMdif cx x st, st)
  | 0x1D => (s.evalPrev cx x st, st)
  | 0x1E => (s.evalUnb cx x st, st)
  | _ => (.direct false false 0 0, st)

end Sys2Proof.Machine
end

