-- ==== Sys2Proof/Machine/FrameProcess.lean ====
section
/-! DEFINITION. The step FRAME_PROCESS: an engine takes a posted frame, measures, evaluates its bay's instances in ascending number and
publishes the results as one unit (R119, R127, R134–R137, R21, R442, R494). -/

namespace Sys2Proof.Machine

def State.waveInst (s : State) (x : Nat) : WaveInst := tabGet waveInstInit s.prot.wave x

def State.setWaveInst (s : State) (x : Nat) (w : WaveInst) : State :=
  { s with prot := { s.prot with wave := tabPut waveInstInit s.prot.wave x w } }

/-! ### One instance -/

/-- The KINDs an instance uses, for the path checks of R82 and R442. -/
def State.instKinds (s : State) (x : Nat) : List Nat :=
  let cur (sum : Bool) : List Nat := if sum then [0, 1, 2] else [3]
  let res (meas : Bool) : List Nat := if meas then [7] else [4, 5, 6]
  match s.eiType x with
  | 0x02 => cur (s.exb x 0 0)
  | 0x03 => [0, 1, 2, 4, 5, 6]
  | 0x04 => cur (s.exb x 2 2) ++ res (s.exb x 2 3)
  | 0x06 => [0, 1, 2, 4, 5, 6]
  | 0x07 => [4, 5, 6]
  | 0x08 => [4, 5, 6]
  | 0x09 => res (s.exb x 0 0)
  | 0x0A => [4, 5, 6]
  | 0x0B => [4, 5, 6]
  | 0x0C => [4, 5, 6]
  | 0x11 => []
  | 0x12 => [0, 1, 2] ++ (if s.exb x 0 0 then [4, 5, 6] else [3])
  | 0x13 => [0, 1, 2, 4, 5, 6]
  | 0x19 => if s.exb x 0 0 then [0, 1, 2, 4, 5, 6] else [0, 1, 2]
  | 0x1C => [0, 1, 2, 8, 9, 10]
  | 0x1D => if s.exb x 0 0 then [4, 5, 6] else [0, 1, 2]
  | 0x20 => []
  | _ => [0, 1, 2]

/-- Some signal the instance uses has failed a path check. -/
def State.instPathFailed (s : State) (x : Nat) : Bool :=
  (s.instKinds x).any (fun k =>
    match s.sigOf (s.eiBay x) k with
    | none => false
    | some g => !s.sigStream g && (match s.laneAin (s.sigA g) with
      | some pin => s.pathFailed pin
      | none => false))

/-- What a type keeps when it is blocked: CLP's operate, INR's extension, VTFF's release count and LRS's, ABS's own start go. -/
def State.blockKeep (s : State) (x : Nat) (st : InstSt) : InstSt :=
  match s.eiType x with
  | 0x0F => { st with t3 := 0 }
  | 0x10 => { st with t1 := 0, flag := false }
  | 0x13 => { st with t1 := 0 }
  | 0x17 => { st with flag := false }
  | _ => st

/-- The instance at the start of its evaluation: enabling starts it with H = 0, a change of CURVE or RESET sets H to 0 (R137). `flag` is set
before only by a cold start of a CLP (R169). -/
def State.instBegin (s : State) (x : Nat) : InstSt :=
  let st := s.inst x
  let c := s.eiCurve x
  let r := s.eiReset x
  if !st.en then { instInit with en := true, curve := c, reset := r, released := st.released, flag := st.flag }
  else if st.curve = c ∧ st.reset = r then st
  else { st with h := 0, curve := c, reset := r }

/-- What is watched in every enabled frame, before any blocking. -/
def State.observe (s : State) (cx : FrameCx) (x : Nat) (st : InstSt) : State × InstSt :=
  match s.eiType x with
  | 0x03 => (s, s.observeDpoc cx x st)
  | 0x0F => (s, s.observeClp cx x st)
  | 0x14 => (s.thermalStep cx x, st)
  | _ => (s, st)

/-- Answer of an engine-evaluated instance: its timer state and operate. -/
def State.evalType (s : State) (cx : FrameCx) (x : Nat) (st : InstSt) : InstSt × Bool :=
  let wasOp := s.bit (A.PRT_EI_STATE x) 31
  if s.eiType x = 0x17 then s.finishLrs cx x st
  else
    let (o, st1) := if s.eiType x < 0x14 then s.evalFeeder cx x st else s.evalMotor cx x st wasOp
    s.finish x cx.dt st1 o

/-- The windows the instance uses are VALID. -/
def State.instOk (s : State) (cx : FrameCx) (x : Nat) : Bool := if s.eiType x < 0x14 then s.feederOk cx x else s.motorOk cx x

/-- The result word of an instance (R152). -/
def eiWord (op start blk inv dis : Bool) (ph : Nat) : Word :=
  BitVec.ofNat 32 (op.toNat * 2 ^ 31 + start.toNat * 2 ^ 30 + blk.toNat * 2 ^ 29 + inv.toNat * 2 ^ 28 + dis.toNat * 2 ^ 27 +
    ph % 16 * 2 ^ 20)

/-- Operates not yet counted go into OPS (R152). -/
def State.countOps (s : State) (x : Nat) : State :=
  let n := tabGet 0 s.trip.opEdges x
  if n = 0 then s
  else
    let s1 := { s with trip := { s.trip with opEdges := tabPut 0 s.trip.opEdges x 0 } }
    s1.forEach (List.range n) (fun _ s => s.incSat (A.PRT_EI_CNT x) F.PRT_EI_CNT_OPS Ev.PRT_CNT_SAT x)

/-- Write an instance's results: its registers, its operate into the matrix at once, its count (R119 step 2). -/
def State.putResult (s : State) (x : Nat) (st : InstSt) (op blk inv : Bool) : State :=
  let h := if s.eiType x = 0x14 then ratMax (s.motor (s.eiBay x)).thetaS (s.motor (s.eiBay x)).thetaR else st.h
  let s1 := s.setInst x { st with released := st.released || !inv }
  let s2 := (s1.setReg (A.PRT_EI_STATE x) (eiWord op st.started blk inv false st.ph)).setReg (A.PRT_EI_H x) (peWord h)
  let s3 := if tabGet false s2.trip.liveOp x = op then s2 else if s.eiType x = 0x0F then (s2.setLiveOp x op).arcEval else (s2.setLiveOp x op).tripEval
  let s4 := s3.countOps x
  if inv then s4.raiseLim Ev.PRT_ELEM_INV (s4.eiBay x) (s4.eiBay x) else s4

/-- ARC's results of a frame (R168): start is the extended current check, 0 while it is blocked or unavailable (R134), operate as the
keep-alive domain has it. -/
def State.putArc (s : State) (x : Nat) : State :=
  let blk := s.blocked x
  let inv := !s.arcAvail (s.eiBay x)
  let s1 := s.setInst x { s.inst x with en := true, released := (s.inst x).released || !inv }
  let s2 := s1.setReg (A.PRT_EI_STATE x) (eiWord (tabGet false s.trip.liveOp x) (s.arcCurrent x && !blk && !inv) blk inv false 0)
  let s3 := s2.countOps x
  if inv then s3.raiseLim Ev.PRT_ELEM_INV (s3.eiBay x) (s3.eiBay x) else s3

/-- WFD's and CFL's results of a frame: what their own steps have set; CFL operates for one frame (R195, R197). -/
def State.putWave (s : State) (x : Nat) : State :=
  let op := tabGet false s.trip.liveOp x
  let start := match (s.waveInst x).startEnd with
    | some t => Nat.blt s.tim.up t
    | none => false
  let s1 := s.setInst x { s.inst x with en := true, released := true }
  let s2 := (s1.setReg (A.PRT_EI_STATE x) (eiWord op start (s.blocked x) false false 0)).countOps x
  if s2.eiType x = 0x20 then s2.setLiveOp x false else s2

/-- A disabled instance: H, start and operate are cleared (R137). -/
def State.putDisabled (s : State) (x : Nat) : State :=
  let s1 := (s.setInst x { instInit with released := (s.inst x).released }).setReg (A.PRT_EI_STATE x) 0x08000000
  let s2 := s1.setReg (A.PRT_EI_H x) 0
  if tabGet false s2.trip.liveOp x then (s2.setLiveOp x false).tripEval else s2

/-- Evaluate one instance of the frame's bay. -/
def State.evalInst (s : State) (cx : FrameCx) (x : Nat) : State :=
  if !s.eiOn x then s.putDisabled x
  else if s.isArc x then s.putArc x
  else if Nat.ble 0x1F (s.eiType x) then s.putWave x
  else
    let (s1, st) := s.observe cx x (s.instBegin x)
    let blk := s1.blocked x
    let inv := !s1.instOk cx x
    if blk || inv then s1.putResult x (s1.blockKeep x st).zero false blk inv
    else
      let (st1, op) := s1.evalType cx x st
      s1.putResult x st1 op false false

/-! ### Around the instances -/

/-- Overlay values that apply from this frame on (R137, R435). -/
def State.prtBoundary (s : State) (b n : Nat) : State :=
  let due := (tabGet [] s.cfg.prtDue b).filter (fun d => Nat.ble d.n n)
  let rest := (tabGet [] s.cfg.prtDue b).filter (fun d => !Nat.ble d.n n)
  let s1 := { s with cfg := { s.cfg with prtDue := tabPut [] s.cfg.prtDue b rest } }
  s1.forEach due (fun d s =>
    if d.prot.isEmpty then s else (s.forEach d.prot (fun e s => s.setReg e.1 e.2)).raise Ev.PRT_SETTING d.k)

/-- A bay is armed while some instance of it is enabled (R127). -/
def State.armSync (s : State) (b : Nat) : State :=
  let on := (s.bayInsts b).any s.eiOn
  if on = s.bit A.PRT_STAT (24 + b) then s
  else (s.setBit A.PRT_STAT (24 + b) on).raise (if on then Ev.PRT_ARMED else Ev.PRT_DISARMED) b

/-- Published start and operate bits of a bay's instances. -/
def State.bayBits (s : State) (b : Nat) : List (Nat × (Bool × Bool)) :=
  (s.bayInsts b).map (fun x => (x, (s.bit (A.PRT_EI_STATE x) 30, s.bit (A.PRT_EI_STATE x) 31)))

/-- The element outputs go to the Heddle input image as one unit (R21, R224). -/
def State.imageBits (s : State) (bits : List (Nat × (Bool × Bool))) : State :=
  s.forEach bits (fun e s =>
    let o := iBase + 0x10 + e.1 / 4
    let sh := e.1 % 4 * 2
    let w := s.octet o
    let m : Byte := BitVec.ofNat 8 (3 * 2 ^ sh)
    s.setOctet o (maskByte m (BitVec.ofNat 8 ((e.2.1.toNat + 2 * e.2.2.toNat) * 2 ^ sh)) w))

/-- Results for CK on the bay's ring Q60–Q63, 16 records deep; a full ring is a gap (R18, R205). -/
def State.postResults (s : State) (cx : FrameCx) (bits : List (Nat × (Bool × Bool))) : State :=
  let ring := cx.b % 4
  if 16 ≤ (s.cap.posted.filter (fun p => p.bay % 4 == ring)).length then
    { s with cap := { s.cap with gap := (cx.b, s.devTime (frameEnd cx.fr)) :: s.cap.gap.filter (fun g => Nat.ble s.tim.now (g.2 + 12000000000)) } }
  else
    let el := bits.flatMap (fun e => [(0x2000 + 2 * e.1, e.2.1), (0x2000 + 2 * e.1 + 1, e.2.2)])
    let ch := (List.range 32).map (fun c => (0x7000 + c, s.bit A.PRT_TCH_STATE c))
    let post : CapPost := { bay := cx.b, n := cx.fr.n, t := s.devTime (frameEnd cx.fr), bits := el ++ ch }
    { s with cap := { s.cap with posted := s.cap.posted ++ [post] } }.wakeFor 3

/-- PROT_UP (R442): every enabled instance of every armed bay has been released once, or its signal has failed a path check. Before
a bay is armed that is so only where no instance is enabled. -/
def State.protUp (s : State) : State :=
  let all := (List.range 512).filter (fun x => s.declaredInst x && s.eiOn x)
  let xs := all.filter (fun x => s.bit A.PRT_STAT (24 + s.eiBay x))
  let out := xs.filter (fun x => !(s.inst x).released && s.instPathFailed x)
  if s.bit A.SUP_STAT 27 || (xs.isEmpty && !all.isEmpty) || xs.any (fun x => !(s.inst x).released && !s.instPathFailed x) then s
  else
    let s1 := (s.setBit A.SUP_STAT 27 true).setBit A.SUP_STAT 26 (!out.isEmpty)
    (s1.setFld A.SUP_TSTART F.SUP_TSTART_TPROT (min ((s1.tim.up - s1.pwr.goodAt) / 1000000) 0xFFFE)).raise Ev.SUP_POWER 2

/-- The time from frame close to results (R152, R457, R494). -/
def State.resultTime (s : State) (b e ns : Nat) : State :=
  let l := (s.tim.up, ns) :: (tabGet [] s.pwr.worst e).filter (fun p => Nat.blt s.tim.up (p.1 + 1000000000))
  let worst := l.foldl (fun a p => max a p.2) 0
  let s1 := { s with pwr := { s.pwr with worst := tabPut [] s.pwr.worst e l } }
  let s2 := (s1.setReg (A.PRT_RESTIME b) (BitVec.ofNat 32 ns)).setFld (A.SUP_PE e) F.SUP_PE_WORST (min (worst / 16) 0xFFFF)
  if ns ≤ 60000 then s2
  else { s2 with pwr := { s2.pwr with late := tabMod [] s2.pwr.late b (fun l => s2.tim.up :: l) } }.raise Ev.PRT_LATE b

/-- PRT_ELEM_START and PRT_ELEM_OP, at most once per frame per bay (R153). -/
def State.riseEvents (s : State) (b : Nat) (old new : List (Nat × (Bool × Bool))) : State :=
  let s1 := if (new.zip old).any (fun p => p.1.2.1 && !p.2.2.1) then s.raise Ev.PRT_ELEM_START b else s
  if (new.zip old).any (fun p => p.1.2.2 && !p.2.2.2) then s1.raise Ev.PRT_ELEM_OP b else s1

/-- Primary units per secondary unit of a bay's KIND (R428). -/
def State.primaryRatio (s : State) (b kind : Nat) : Rat :=
  (((s.sigOf b kind).bind (fun x => s.cfg.image.bind (fun i => i.signals[x]?))).map (fun e => fpVal e.primary)).getD 0

/-- The largest full-cycle phase current of a bay's last frame, in primary A, where VALID. -/
def State.phasePeak (s : State) (b : Nat) : Option Rat :=
  (s.bayProt b).mags.head?.map (fun m =>
    ratMax (m.1 * s.primaryRatio b 0) (ratMax (m.2.1 * s.primaryRatio b 1) (m.2.2 * s.primaryRatio b 2)))

/-- Open interruption measurements of the bay's channels take the frame (R394). -/
def State.interruptFrame (s : State) (b : Nat) (per : Rat) : State :=
  match s.phasePeak b with
  | none => s
  | some i =>
    s.forEach (List.range 32) (fun c s =>
      match tabGet none s.alm.interrupt c with
      | some m =>
        if s.fld (A.PRT_TCH_CFG c) F.PRT_TCH_CFG_BFBAY ≠ b then s
        else
          let m1 : Interruption := { m with peak := ratMax m.peak i, i2t := m.i2t + i * i * (8 * per) / 1000000000000000 }
          { s with alm := { s.alm with interrupt := tabPut none s.alm.interrupt c (some m1) } }
      | none => s)

end Sys2Proof.Machine
end

