-- ==== Sys2Proof/Machine/QImage.lean ====
section
/-! DEFINITION. Writing the Q image from outside an instruction: forced bits keep their value, shadows take what was written, and
derived bits are marked (R254, R256, R258); and release instants (R13). -/

namespace Sys2Proof.Machine

/-- Shadows of the active Q entries take the bits `m` of octet `o` as written (R256). -/
def State.qShadow (s : State) (o : Nat) (m v : Byte) : State :=
  s.forEach (s.forces 2) (fun e s =>
    let b := forceBits (s.reg (A.HDL_FRC_CFG e))
    s.forEach (List.range b.2) (fun i s =>
      if (b.1 + i) / 8 = o ∧ m.getLsbD ((b.1 + i) % 8) = true then s.setBit (A.HDL_FRC_SHD e) i (v.getLsbD ((b.1 + i) % 8)) else s))

/-- Write bits `m` of Q octet `o`; `derived` tells that a forced item stands behind the value. -/
def State.qStore (s : State) (o : Nat) (m v : Byte) (derived : Bool) : State :=
  let s1 := s.qShadow o m v
  let s2 := s1.setOctet (qBase + o) (maskByte (m &&& ~~~(s1.forcedMask o)) v (s1.octet (qBase + o)))
  { s2 with hdl := { s2.hdl with derived := tabMod 0 s2.hdl.derived o (fun d => if derived then d ||| m else d &&& ~~~m) } }

/-- Write `n` octets of a value at Q octet `o`, little-endian. -/
def State.qStoreLE (s : State) (o : Nat) (derived : Bool) : Nat → Nat → State
  | 0, _ => s
  | n + 1, v => (s.qStore o 0xFF (BitVec.ofNat 8 v) derived).qStoreLE (o + 1) derived n (v / 256)

/-- Some bit of the `n` octets from Q octet `o` is forced or derived from a forced item (R258). -/
def State.qDerived (s : State) (o n : Nat) : Bool :=
  (List.range n).any (fun i => s.forcedMask (o + i) != 0 || tabGet 0 s.hdl.derived (o + i) != 0)

/-- The first instant at or after `t` that is `phase` past a whole multiple of `period` (R13), all in ns. -/
def gridFrom (t period phase : Nat) : Nat :=
  if t ≤ phase then phase else phase + (t - phase + period - 1) / period * period

end Sys2Proof.Machine
end

