-- ==== Sys2Proof/Machine/Wavefront.lean ====
section
/-! DEFINITION. The wavefront elements (R194–R198) and their steps WFD_RECORD_TAKE, WFD_SUPERVISION, WFD_HOLD_END and CFL_LOCATE. -/

namespace Sys2Proof.Machine

/-! ### The decision (R194) -/

/-- Enabled instances of a type on a bay. -/
def State.waveInsts (s : State) (b ty : Nat) : List Nat := (s.bayInsts b).filter (fun x => s.eiType x == ty && s.eiOn x)

/-- A setting in s as ns. -/
def nsOf (t : Rat) : Nat := (ratRound (t * 1000000000)).toNat

/-- WFD.QUIET of an instance in ns. -/
def State.quietNs (s : State) (x : Nat) : Nat := nsOf (s.exf x 4)

/-- Pre-fault voltage phasor of an aerial mode. -/
def modePhasor (vconn : Bool) (w : WavePre) (mode : Nat) : Cx :=
  if mode = 0 then
    (if vconn then cxScale (1 / 3) (cxSub w.va w.vc) else cxScale (1 / 3) (cxSub (cxScale 2 w.va) (cxAdd w.vb w.vc)))
  else if vconn then cxScale (1 / root3) w.vb
  else cxScale (1 / root3) (cxSub w.vb w.vc)

/-- v_m(t_a). -/
def State.preFault (s : State) (b : Nat) (w : WavePre) (mode t : Nat) : Rat :=
  let v := modePhasor (s.vconn b) w mode
  root2 * (cxMul v (cxTurn (w.ft * ((t : Rat) - w.tn) / 1000000000))).re

/-- The frame may be used for an arrival at `t`. -/
def WavePre.usable (w : WavePre) (t : Nat) : Bool := w.ok && decide ((t : Rat) - w.tn ≤ 20000000)

/-- What a burst gives: the decision 0 none, 1 forward, 2 reverse, 3 modes disagree, the modes used, and v_m of the deciding mode. -/
structure WfdDecision where
  dir : Nat
  modes : Nat
  v : Rat
  deriving DecidableEq, Repr

/-- Direction of one aerial arrival, where it qualifies. -/
def State.arrivalDir (s : State) (b x ta : Nat) (w : WavePre) (a : Arrival) : Option (Nat × Rat) :=
  let v := s.preFault b w a.mode ta
  if root2 * s.exf x 2 ≤ ratMax v (-v) then some (if a.neg = decide (v < 0) then 1 else 2, v) else none

/-- The decision of instance `x` on a burst. -/
def State.wfdDecide (s : State) (b x ta : Nat) (burst : List Arrival) : WfdDecision :=
  match (s.bayProt b).wave with
  | none => { dir := 0, modes := 0, v := 0 }
  | some w =>
    if !w.usable ta then { dir := 0, modes := 0, v := 0 }
    else
      let ds := (burst.filter (fun a => Nat.blt a.mode 2)).filterMap (fun a =>
        (s.arrivalDir b x ta w a).map (fun d => (a.mode, d)))
      let modes := (if ds.any (fun d => d.1 == 0) then 1 else 0) + (if ds.any (fun d => d.1 == 1) then 2 else 0)
      match ds with
      | [] => { dir := 0, modes := 0, v := 0 }
      | d :: _ => { dir := if ds.all (fun e => e.2.1 == d.2.1) then d.2.1 else 3, modes := modes, v := d.2.2 }

/-- The bay's direction registers take a decision (R200, R201); `add` 1 counts a burst. -/
def State.putDecision (s : State) (b add : Nat) (d : WfdDecision) : State :=
  let n := s.fld (A.PRT_WFD b) F.PRT_WFD_BURSTS
  (s.setReg (A.PRT_WFD b) (BitVec.ofNat 32 (d.dir * 2 ^ 30 + d.modes * 2 ^ 28 + (n + add) % 65536))).setReg
    (A.PRT_WFD_VPRE b) (peWord d.v)

/-! ### Taking records -/

/-- Order of two arrivals: by time, then mode. -/
def arrivalBefore (a c : Arrival) : Bool := Nat.blt a.t c.t || (a.t == c.t && Nat.ble a.mode c.mode)

/-- Insert an arrival in order. -/
def arrivalIns (a : Arrival) : List Arrival → List Arrival
  | [] => [a]
  | c :: l => if arrivalBefore a c then a :: c :: l else c :: arrivalIns a l

def arrivalSort : List Arrival → List Arrival
  | [] => []
  | a :: l => arrivalIns a (arrivalSort l)

/-- The arrival follows at least a time without one. -/
def quietBefore (last : Option Nat) (q t : Nat) : Bool :=
  match last with
  | none => true
  | some l => Nat.ble (l + q) t

/-- QUIET of the bay's bursts: that of its first WFD instance, else the proposed default of 20 ms. -/
def State.bayQuiet (s : State) (b : Nat) : Nat :=
  match s.waveInsts b 0x1F with
  | x :: _ => s.quietNs x
  | [] => 20000000

/-- The decision of the instances `xs` on a burst that begins at `ta`; each starts where it matches DIR. `add` 1 counts the burst. -/
def State.burstDecide (s : State) (b ta add : Nat) (xs : List Nat) (burst : List Arrival) : State :=
  let s1 := s.forEach xs (fun x s =>
    let d := s.wfdDecide b x ta burst
    let w := s.waveInst x
    let hit := d.dir == s.exn x 0 F.EX_WFD_DIR + 1
    s.setWaveInst x { w with ta := some ta, dec := d.dir
                             startEnd := if hit then some (s.tim.up + nsOf (s.exf x 3)) else w.startEnd })
  match xs with
  | x :: _ => s1.putDecision b add (s1.wfdDecide b x ta burst)
  | [] => s1

/-- CFL instances of the bay whose CHMASK holds a channel that asserted within the 200 ms from a burst's first arrival, before its record
was taken (R197). -/
def State.cflLate (s : State) (b ta : Nat) : State :=
  let hit (x : Nat) : Bool := (List.range 32).any (fun c =>
    bitGet (s.reg (A.PRT_EX x 5)) c && Nat.ble ta (tabGet 0 s.trip.assertAt c) && Nat.ble (tabGet 0 s.trip.assertAt c) (ta + 200000000))
  s.forEach ((s.waveInsts b 0x20).filter hit) (fun x s => s.setWaveInst x { s.waveInst x with locate := some ta, far := false })

/-- One arrival in order: it begins a burst after the quiet time, or joins the burst that began within 2 µs before it, whose decision is
formed again; else it is kept for the locator only. -/
def State.arrivalTake (s : State) (b : Nat) (a : Arrival) : State :=
  let p := s.bayProt b
  let wfd := s.waveInsts b 0x1F
  let s1 :=
    match p.burst with
    | f :: _ =>
      if f.t ≤ a.t ∧ a.t ≤ f.t + 2000 then
        let burst := p.burst ++ [a]
        ((s.setBayProt b { p with burst := burst })).burstDecide b f.t 0 (wfd.filter (fun x => (s.waveInst x).ta == some f.t)) burst
      else s
    | [] => s
  let s2 := s1.burstDecide b a.t 1 (wfd.filter (fun x => quietBefore p.lastArr (s.quietNs x) a.t)) [a]
  let s3 := if quietBefore p.lastArr (s.bayQuiet b) a.t then (s2.setBayProt b { s2.bayProt b with burst := [a] }).cflLate b a.t else s2
  s3.setBayProt b { s3.bayProt b with lastArr := some (max a.t (p.lastArr.getD 0)), arrLog := (a :: p.arrLog).take 256 }

/-- WFD_RECORD_TAKE: the engine takes the records of its arrival queue and frees them. -/
def doWfdRecordTake (bay : Fin 8) (s : State) : State :=
  let c := s.bayChain bay
  if c.arrivals.isEmpty || s.inWatchman then s
  else
    let all := arrivalSort c.arrivals
    let s1 := s.setBayChain bay { c with arrivals := [] }
    s1.forEach all (fun a s => s.arrivalTake bay a)

/-! ### Supervision (R195) -/

/-- Supervision of instance `x` on a burst at `ta`, from the branch's store: the largest |m(t) − m(t_a − 50 µs)| of an aerial mode over the
window reaches √2 × Gs, or a sample of the window is CLIPPED. -/
def State.supPass (s : State) (b x ta : Nat) : Bool :=
  let inst (w : WaveSmp) : Rat := s.waveInstant b w.k
  let t : Rat := (s.smpTime ta : Rat)
  let win := (s.bayChain b).wave.filter (fun w => decide (t ≤ inst w) && decide (inst w ≤ t + nsOf (s.exf x 1)))
  let ref := (s.bayChain b).wave.find? (fun w => decide (inst w ≤ t - 50000))
  let reach (m : Nat) : Bool := match ref with
    | some r => win.any (fun w => decide (root2 * s.eiGs x ≤ ((w.mode m - r.mode m).natAbs : Rat) * s.fpReg (A.PRT_ISCALE b)))
    | none => false
  win.any (·.clipped) || reach 0 || reach 1

/-- CFL instances that WFD instance `x` triggers take its burst. -/
def State.wfdTriggersCfl (s : State) (b x ta : Nat) : State :=
  s.forEach ((s.waveInsts b 0x20).filter (fun c => s.exb c 4 15 && s.exn c 4 F.EX_CFL_WFD == x)) (fun c s =>
    s.setWaveInst c { s.waveInst c with locate := some ta, far := false })

/-- WFD_SUPERVISION at t_a + TWIN. -/
def doWfdSupervision (inst : Fin 512) (s : State) : State :=
  let x := inst.val
  let b := s.eiBay x
  let w := s.waveInst x
  match w.ta with
  | none => s
  | some ta =>
    if s.eiType x ≠ 0x1F ∨ s.tim.now < ta + nsOf (s.exf x 1) ∨ s.inWatchman then s
    else
      let pass := s.supPass b x ta
      let s1 := (s.setWaveInst x { w with ta := none }).setBit (A.PRT_WFD b) 27 pass
      if pass && s1.eiOn x && w.dec == s1.exn x 0 F.EX_WFD_DIR + 1 && !s1.blocked x then
        let s2 := s1.setWaveInst x { s1.waveInst x with holdEnd := some (s1.tim.up + nsOf (s1.exf x 3)) }
        ((s2.setLiveOp x true).wfdTriggersCfl b x ta).tripEval
      else s1

/-- WFD_HOLD_END: the operate has lasted WFD.HOLD. -/
def doWfdHoldEnd (inst : Fin 512) (s : State) : State :=
  let w := s.waveInst inst
  match w.holdEnd with
  | none => s
  | some t => if s.tim.up < t then s else ((s.setWaveInst inst { w with holdEnd := none }).setLiveOp inst false).tripEval

/-! ### The cable fault locator (R197, R198) -/

/-- CFL.VEL in m/µs and LEN in m. -/
def State.cflVel (s : State) (x : Nat) : Rat := s.exf x 0
def State.cflLen (s : State) (x : Nat) : Rat := s.exf x 1

/-- The fault reflection: the first later arrival in the first's mode and polarity with a peak of at least RATIO times the first's. -/
def reflection (a : Arrival) (ratio win : Rat) (l : List Arrival) : Option Arrival :=
  l.find? (fun c => Nat.blt a.t c.t && decide (((c.t - a.t : Nat) : Rat) ≤ win) && c.mode == a.mode && c.neg == a.neg &&
    decide (ratio * (a.peak : Rat) ≤ (c.peak : Rat)))

/-- GOOSE input words n and n + 1 as a 64-bit time. -/
def State.gooseWord64 (s : State) (n : Nat) : Nat := s.octetsLE (iBase + 0x2000 + 4 * n) 8

/-- The double-ended distance, where the far end's time is accepted. -/
def State.doubleEnded (s : State) (x ta : Nat) : Option Rat :=
  if !s.exb x 3 0 then none
  else
    let tb := s.gooseWord64 (s.exn x 3 F.EX_CFL_PEERW)
    let us : Rat := ((ta : Rat) - (tb : Rat)) / 1000
    if ratMax us (-us) ≤ s.cflLen x / s.cflVel x + 2 / 10 ∧ s.tim.now ≤ ta + 200000000 then
      some ((s.cflLen x + s.cflVel x * us) / 2)
    else none

/-- The locator's status and distances. HOLDOVER belongs to a double-ended result: this end's, or the far end's, of which the spec names no
message, so that it is free (assumption 60). -/
def State.putLocation (s : State) (b : Nat) (se de : Option Rat) (clip : Bool) : State :=
  let (k, s0) := s.nextFree
  let hold := de.isSome && (s.unlocked || Config.freeBool k)
  let n := s.fld (A.PRT_CFL_STAT b) F.PRT_CFL_STAT_SEQ + (se.isSome || de.isSome).toNat
  let st := se.isSome.toNat * 2 ^ 31 + de.isSome.toNat * 2 ^ 30 + hold.toNat * 2 ^ 29 + clip.toNat * 2 ^ 28 + n % 65536
  ((s0.setReg (A.PRT_CFL_STAT b) (BitVec.ofNat 32 st)).setReg (A.PRT_CFL_DSE b) ((se.map peWord).getD 0)).setReg (A.PRT_CFL_DDE b)
    ((de.map peWord).getD 0)

/-- The far end's time has come after the single-ended result: the double-ended one joins it. -/
def State.putFar (s : State) (b : Nat) (d : Rat) : State :=
  let (k, s0) := s.nextFree
  let n := s.fld (A.PRT_CFL_STAT b) F.PRT_CFL_STAT_SEQ + 1
  let s1 := ((s0.setBit (A.PRT_CFL_STAT b) 30 true).setBit (A.PRT_CFL_STAT b) 29 (s.unlocked || Config.freeBool k)).setFld (A.PRT_CFL_STAT b)
    F.PRT_CFL_STAT_SEQ (n % 65536)
  s1.setReg (A.PRT_CFL_DDE b) (peWord d)

/-- CFL_LOCATE: locate the burst that a WFD operate or a trip channel has named; the far end's time is awaited for 200 ms. -/
def doCflLocate (inst : Fin 512) (s : State) : State :=
  let x := inst.val
  let b := s.eiBay x
  let w := s.waveInst x
  match w.locate with
  | none => s
  | some ta =>
    let win := 2 * s.cflLen x / s.cflVel x * 1000
    if s.eiType x ≠ 0x20 ∨ !s.eiOn x ∨ s.blocked x ∨ s.inWatchman ∨ (s.tim.now : Rat) < (ta : Rat) + win then s
    else
      let de := s.doubleEnded x ta
      let wait := s.exb x 3 0 && de.isNone && Nat.ble s.tim.now (ta + 200000000)
      if w.far then
        match de with
        | some d => ((s.putFar b d).setWaveInst x { w with locate := none, far := false }).setLiveOp x true
        | none => if wait then s else s.setWaveInst x { w with locate := none, far := false }
      else
        let l := arrivalSort ((s.bayProt b).arrLog ++ (s.bayChain b).arrivals)
        let first := l.find? (fun a => a.t == ta)
        let refl := first.bind (fun a => reflection a (s.exf x 2) win l)
        let se := refl.bind (fun c => if c.t < ta + 6000 then none else some (s.cflVel x * (((c.t - ta : Nat) : Rat) / 1000) / 2))
        let clip := (first.map (fun a => a.clipped)).getD false || (refl.map (fun a => a.clipped)).getD false
        let s1 := (s.putLocation b se de clip).setReg64 (A.PRT_CFL_TA_LO b) (A.PRT_CFL_TA_HI b) ta
        let s2 := s1.setWaveInst x { w with locate := if wait then some ta else none, ta := some ta, far := wait }
        if se.isSome || de.isSome then s2.setLiveOp x true else s2

/-! ### Steps as executed -/

def execWfdRecordTake (bay : Fin 8) (s : State) : Host.Outcome State Fault Refusal := .next (s.awake (doWfdRecordTake bay))
def execWfdSupervision (inst : Fin 512) (_ _ _ : Computed) (s : State) : Host.Outcome State Fault Refusal :=
  .next (s.awake (doWfdSupervision inst))
def execWfdHoldEnd (inst : Fin 512) (s : State) : Host.Outcome State Fault Refusal := .next (s.awake (doWfdHoldEnd inst))
def execCflLocate (inst : Fin 512) (s : State) : Host.Outcome State Fault Refusal := .next (s.awake (doCflLocate inst))

end Sys2Proof.Machine
end

