-- ==== Sys2Proof/Machine/Sources.lean ====
section
/-! DEFINITION. The sources that loops, closing times and the Almanac read (R275, R276): Hank inputs, GOOSE words, measurements and
block outputs, with their goodness and their source instants (R277). -/

namespace Sys2Proof.Machine

/-- A source as read: its exact value, whether that is a number, whether it is bad, and its source instant. -/
structure SrcVal where
  v : Rat
  num : Bool
  bad : Bool
  at_ : Option Nat
  deriving DecidableEq, Repr

/-- STATE of a Hank module (R359). -/
def State.modState (s : State) (m : Nat) : Nat := s.fld (A.HNK_MOD_ST m) F.HNK_MOD_ST_STATE

/-- A module beyond its registers. -/
def State.hnkMod (s : State) (m : Nat) : ModSt := tabGet modInit s.hnk.mods m

def State.setMod (s : State) (m : Nat) (x : ModSt) : State :=
  { s with hnk := { s.hnk with mods := tabPut modInit s.hnk.mods m x } }

/-- The 16-bit signed value at octet `o` of the Hank input images. -/
def State.hankSrc (s : State) (o : Nat) : SrcVal :=
  { v := signExt 16 (s.octetsLE (iBase + 0x1000 + o) 2), num := true, bad := s.modState (o / 64) != 2
    at_ := some (s.hnkMod (o / 64)).inTime }

/-- The subscription that maps a member to GOOSE input word `w` (R338). -/
def State.wordSub (s : State) (w : Nat) : Option Nat :=
  s.cfg.image.bind (fun i => (i.gooseSub.find? (fun x => x.maps.any (fun m =>
    (m.type != 0 && m.target == w) || (m.type == 4 && m.target + 1 == w)))).map (·.s))

/-- A subscription beyond its registers. -/
def State.gsSub (s : State) (n : Nat) : SubSt := tabGet subInit s.net.sub n

def State.setSub (s : State) (n : Nat) (x : SubSt) : State := { s with net := { s.net with sub := tabPut subInit s.net.sub n x } }

/-- The word of GOOSE input word `w`. -/
def State.gooseWord (s : State) (w : Nat) : Word := BitVec.ofNat 32 (s.octetsLE (iBase + 0x2000 + 4 * w) 4)

/-- GOOSE input word `w` as FP32. -/
def State.gooseSrc (s : State) (w : Nat) : SrcVal :=
  let x := s.gooseWord w
  match s.wordSub w with
  | some n => { v := fpVal x, num := fpIsFinite x, bad := !s.gooseValid n, at_ := some (s.gsSub n).arrived }
  | none => { v := fpVal x, num := fpIsFinite x, bad := true, at_ := none }

/-- Snapshot word `w` of a bay is marked invalid in PRT_MEAS_FLG (R151, R152): sequence components and powers by their inputs. -/
def State.measBad (s : State) (bay w : Nat) : Bool :=
  let flg := s.reg (A.PRT_MEAS_FLG bay)
  let si (k : Nat) : Bool := bitGet flg k
  if w = 1 then bitGet flg 30
  else if w = 2 then bitGet flg 23
  else if w < 4 then false
  else if w < 26 then si ((w - 4) / 2)
  else if w < 32 then si 0 || si 1 || si 2
  else if w < 38 then si 4 || si 5 || si 6
  else if w < 40 then si 0 || si 1 || si 2 || si 4 || si 5 || si 6
  else if w < 52 then bitGet flg (24 + (w - 40) / 2)
  else if w < 55 then si (w - 52)
  else if w < 58 then si (w - 51)
  else true

/-- Snapshot word `w` of a bay as FP32. -/
def State.measSrc (s : State) (bay w : Nat) : SrcVal :=
  let x := s.reg (A.PRT_MEAS_FRM bay + 4 * w)
  { v := fpVal x, num := fpIsFinite x, bad := s.measBad bay w
    at_ := (s.bayProt bay).hist.head?.map (·.stamp) }

/-- Mode of a loop block as it reads (R283). -/
def State.spnMode (s : State) (b : Nat) : Nat := s.fld (A.SPN_BSTAT b) F.SPN_BSTAT_MODE

/-- Output of a block. -/
def State.spnOut (s : State) (b : Nat) : Int := (s.reg (A.SPN_BOUT b)).toInt

/-- Output of a block as a source. -/
def State.blockSrcVal (s : State) (b : Nat) : SrcVal :=
  { v := s.spnOut b, num := true, bad := s.bit (A.SPN_BSTAT b) 27 || s.bit (A.SPN_BSTAT b) 26
    at_ := some (s.reg64 (A.SPN_TSMP_LO b) (A.SPN_TSMP_HI b)) }

end Sys2Proof.Machine
end

