-- ==== Sys2Proof/Machine/LoopMath.lean ====
section
/-! DEFINITION. The numbers, inputs and block computations of the Spindles (R272–R276, R280–R282, R288, R289). -/

namespace Sys2Proof.Machine

/-! ### Coefficients and products (R273, R274) -/

/-- Nearest integer, ties towards +∞. -/
def ratUp (x : Rat) : Int := (x + 1 / 2).floor

/-- A 64-bit accumulator, saturating at ±(2⁶³ − 1). -/
def satAcc (x : Int) : Int := clampInt (-(2 ^ 63 - 1)) (2 ^ 63 - 1) x

/-- The 32-bit range. -/
def sat32 (x : Int) : Int := clampInt (-2 ^ 31) (2 ^ 31 - 1) x

/-- A mantissa with its shift. -/
structure Coef where
  m : Int
  s : Int
  deriving DecidableEq, Repr

/-- Shift right by `n`, rounded to nearest, ties towards +∞. -/
def shiftRound (x : Int) (n : Nat) : Int := if n = 0 then x else (x + 2 ^ (n - 1)) / 2 ^ n

/-- c × x on the signal scale. -/
def mulC (c : Coef) (x : Int) : Int := shiftRound (c.m * x) (31 - c.s).toNat

/-- c × x with the integrator's 32 fraction bits. -/
def mulI (c : Coef) (x : Int) : Int := shiftRound (c.m * x) (-1 - c.s).toNat

/-- The exact value of a coefficient. -/
def Coef.val (c : Coef) : Rat := (c.m : Rat) * (2 : Rat) ^ (c.s - 31)

/-- Coefficient n from its mantissa word and the shift word. -/
def coefOf (m sh : Word) (n : Nat) : Coef := { m := m.toInt, s := signExt 6 (sh.toNat / 2 ^ (6 * n) % 64) }

/-- Coefficient cn of block b. -/
def State.loopC (s : State) (b n : Nat) : Coef := coefOf (s.reg (A.SPN_BC b n)) (s.reg (A.SPN_BSH b)) n

/-- One span. -/
def span : Int := 2 ^ 30

/-! ### Block settings -/

def State.spnType (s : State) (b : Nat) : Nat := s.fld (A.SPN_BCFG b) F.SPN_BCFG_TYPE
def State.spnOn (s : State) (b : Nat) : Bool := s.bit (A.SPN_BCFG b) 31
def State.spnOpt (s : State) (b : Nat) : Bool := s.bit (A.SPN_BCFG b) 26
def State.spnTripEn (s : State) (b : Nat) : Bool := s.bit (A.SPN_BCFG b) 23
/-- The source code of input i. -/
def State.spnSrc (s : State) (b i : Nat) : Nat :=
  (s.reg (if i < 2 then A.SPN_BIN01 b else A.SPN_BIN23 b)).toNat / (if i % 2 = 0 then 1 else 65536) % 65536
/-- Blocks declared. -/
def State.spnDecl (s : State) (b : Nat) : Bool := s.spnType b != 0
/-- A block beyond its registers. -/
def State.loopB (s : State) (b : Nat) : BlockSt := tabGet blockInit s.spn.blocks b
def State.setLoopB (s : State) (b : Nat) (x : BlockSt) : State := { s with spn := { s.spn with blocks := tabPut blockInit s.spn.blocks b x } }
/-- The Q interface of a block: word at octet offset k. -/
def State.loopQ (s : State) (b k : Nat) : Word := BitVec.ofNat 32 (s.octetsLE (qBase + 0x4000 + 16 * b + k) 4)

/-- Limit to 32 bits, then to [OLO, OHI]; the Bool tells that a limit acted (R274). -/
def State.loopLimit (s : State) (b : Nat) (x : Int) : Int × Bool :=
  let y := sat32 x
  let z := clampInt (s.reg (A.SPN_BOLO b)).toInt (s.reg (A.SPN_BOHI b)).toInt y
  (z, z != x)

/-! ### Inputs (R275, R276) -/

/-- An input on the signal scale. -/
structure InVal where
  v : Int
  bad : Bool
  at_ : Option Nat
  deriving DecidableEq, Repr

/-- A raw value on the signal scale of input slot `i` of the scaling set; not a number, or a span of 0, leaves it open. -/
def State.mapRaw (s : State) (b i : Nat) (x : SrcVal) : InVal :=
  let r0 := s.fpReg (A.SPN_SCALE b (2 * i))
  let r1 := s.fpReg (A.SPN_SCALE b (2 * i + 1))
  let v := if x.num ∧ r0 ≠ r1 then ratUp ((span : Rat) * (x.v - r0) / (r1 - r0)) else Config.freeInt (s.freeSeq + i)
  { v := sat32 v, bad := x.bad, at_ := x.at_ }

/-- Input `i` of block `b`. -/
def State.loopIn (s : State) (b i : Nat) : InVal :=
  let src := s.spnSrc b i
  let k := src % 4096
  match src / 4096 with
  | 1 => let x := s.blockSrcVal k; { v := s.spnOut k, bad := x.bad, at_ := x.at_ }
  | 2 => s.mapRaw b i (s.hankSrc k)
  | 3 => s.mapRaw b i (s.gooseSrc k)
  | 4 => s.mapRaw b i (s.measSrc (k / 64) (k % 64))
  | 5 => { v := (s.loopQ b (if k = 0 then 0 else if k = 1 then 4 else 12)).toInt, bad := false, at_ := some (tabGet 0 s.spn.qLatch b) }
  | _ => { v := 0, bad := false, at_ := none }

/-- A block output that is good (R283 rule 6). -/
def State.goodMaster (s : State) (b : Nat) : Bool := s.spnSrc b 1 / 4096 == 1 && !(s.loopIn b 1).bad

/-! ### Computations (R280) -/

/-- Characteriser point. -/
def State.chr (s : State) (u i : Nat) : Int × Int := ((s.reg (A.SPN_CHR_X u i)).toInt, (s.reg (A.SPN_CHR_Y u i)).toInt)

/-- Linear interpolation of a curve, held beyond its end points. -/
def chrEval : List (Int × Int) → Int → Int
  | [], _ => 0
  | [p], _ => p.2
  | p :: q :: l, x =>
    if x ≤ p.1 then p.2
    else if x < q.1 then ratUp ((p.2 : Rat) + (x - p.1) * (q.2 - p.2) / (q.1 - p.1))
    else chrEval (q :: l) x

/-- A split range (types 8 and 9); a range of no width leaves the result open. -/
def State.splitRange (s : State) (b : Nat) (x : Int) : Int :=
  let a := mulC (s.loopC b 0) span
  let e := mulC (s.loopC b 1) span
  clampInt 0 span (if e = a then Config.freeInt (s.freeSeq + 4) else ratUp ((span : Rat) * (x - a) / (e - a)))

/-- Types 2, 3, 5, 6, 7, 8 and 9: the output before limiting, from the input, the last output and the last input. -/
def State.simpleLoop (s : State) (b : Nat) (x y1 x1 : Int) : Int :=
  let c := s.loopC b
  match s.spnType b with
  | 2 => satAcc (mulC (c 0) y1 + mulC (c 1) x + mulC (c 2) x1)
  | 3 => satAcc (mulC (c 0) x + mulC (c 1) span)
  | 5 => y1 + clampInt (-(mulC (c 1) span)) (mulC (c 0) span) (x - y1)
  | 6 =>
    let w := mulC (c 0) span
    if x ≤ w ∧ -x ≤ w then 0 else if 0 < x then x - w else x + w
  | 7 => chrEval ((List.range 16).map (s.chr (s.fld (A.SPN_BCFG b) F.SPN_BCFG_CURVE))) x
  | _ => s.splitRange b x

/-- The selector's choice (R282): candidates as (number, value), the present choice. -/
def selectIn (maxi : Bool) (present : Nat) (cs : List (Nat × Int)) : Option (Nat × Int) :=
  let beats (a c : Nat × Int) : Bool := if maxi then decide (c.2 < a.2) else decide (a.2 < c.2)
  let best := cs.foldl (fun o c =>
    match o with
    | none => some c
    | some p => if beats c p then some c else some p) none
  match cs.find? (fun c => c.1 == present), best with
  | some p, some q => if beats q p then some q else some p
  | _, q => q

/-! ### The profile (R288, R289) -/

/-- Position, velocity and acceleration, in signal LSB and s. -/
structure Kin where
  p : Rat
  v : Rat
  a : Rat
  deriving DecidableEq, Repr

/-- Length in s of a segment's parts of 2⁻³² ns. -/
def segTime (u : Nat) : Rat := mkRat u (10 ^ 9 * 2 ^ 32)

/-- A length in s as parts of 2⁻³² ns. -/
def segParts (t : Rat) : Nat := (ratUp (t * (10 ^ 9 * 2 ^ 32))).toNat

/-- Constant jerk for `u` parts of 2⁻³² ns. -/
def Kin.move (k : Kin) (j : Rat) (u : Nat) : Kin :=
  let t := segTime u
  { p := k.p + k.v * t + k.a * t * t / 2 + j * t * t * t / 6, v := k.v + k.a * t + j * t * t / 2, a := k.a + j * t }

/-- The jerk of a segment. -/
def segJerk (jmax : Rat) (sg : Int) : Rat := (Int.sign sg : Rat) * jmax

/-- Evaluate a plan `u` parts of 2⁻³² ns after its origin; `none` once it has ended. -/
def planAt (jmax : Rat) : List (Int × Nat) → Kin → Nat → Option Kin
  | [], _, _ => none
  | g :: l, k, u => if u < g.2 then some (k.move (segJerk jmax g.1) u) else planAt jmax l (k.move (segJerk jmax g.1) g.2) (u - g.2)

/-- Where a plan ends. -/
def planEnd (jmax : Rat) (l : List (Int × Nat)) (k : Kin) : Kin := l.foldl (fun k g => k.move (segJerk jmax g.1) g.2) k

/-- Length of a plan in parts of 2⁻³² ns. -/
def planLen (l : List (Int × Nat)) : Nat := l.foldl (fun n g => n + g.2) 0

/-- The first `u` parts of a plan. -/
def planCut : List (Int × Nat) → Nat → List (Int × Nat)
  | [], _ => []
  | g :: l, u => if u ≤ g.2 then [(g.1, u)] else g :: planCut l (u - g.2)

/-- The fastest change from velocity and acceleration (v, a) to velocity `w` at acceleration 0 under JMAX: to the peak acceleration, which AMAX
limits, a hold there where the limit acts, and back to 0. An acceleration beyond AMAX comes within it first (R289). -/
def velChange (v a w amax jmax : Rat) : List (Int × Nat) :=
  let d : Int := if v + a * ratMax a (-a) / (2 * jmax) ≤ w then 1 else -1
  let u := d * (w - v)
  let b := d * a
  let pk := ratMin amax (realSqrt (jmax * u + b * b / 2))
  let rise := ratMax (pk - b) (b - pk) / jmax
  let hold := if pk = 0 then 0 else (u - (pk + b) / 2 * rise - pk * pk / (2 * jmax)) / pk
  [(if b ≤ pk then d else -d, segParts rise), (0, segParts hold), (-d, segParts (pk / jmax))].filter (fun g => g.2 != 0)

/-- The greatest number from `lo` up to `hi` at which a property holds that holds at `lo` and, once lost, stays lost. -/
def lastTrue (f : Nat → Bool) : Nat → Nat → Nat → Nat
  | 0, lo, _ => lo
  | n + 1, lo, hi => if f ((lo + hi) / 2) then lastTrue f n ((lo + hi) / 2) hi else lastTrue f n lo ((lo + hi) / 2)

/-- The fastest jerk-limited stop from (v, a); with a limit of 0 or below there is none. -/
def stopPlan (v a amax jmax : Rat) : List (Int × Nat) :=
  if amax ≤ 0 ∨ jmax ≤ 0 then Config.noPlan else velChange v a 0 amax jmax

/-- The fastest run from (v, a) to rest at distance `d` ahead, which is no nearer than the stop: towards VMAX for as long as a stop from there
still ends short of `d`, at VMAX for what then remains, and the stop: at most seven segments. With a limit of 0 or below there is none. -/
def profilePlan (d v a vmax amax jmax : Rat) : List (Int × Nat) :=
  if vmax ≤ 0 ∨ amax ≤ 0 ∨ jmax ≤ 0 then Config.noPlan
  else
    let sg : Rat := if d < 0 then -1 else 1
    let go := velChange v a (sg * vmax) amax jmax
    let fin (l : List (Int × Nat)) : List (Int × Nat) := let k := planEnd jmax l { p := 0, v := v, a := a }; velChange k.v k.a 0 amax jmax
    let left (l : List (Int × Nat)) : Rat := sg * (d - (planEnd jmax (l ++ fin l) { p := 0, v := v, a := a }).p)
    if 0 ≤ left go then go ++ (0, segParts (left go / vmax)) :: fin go
    else
      let l := planCut go (lastTrue (fun u => decide (0 ≤ left (planCut go u))) 128 0 (planLen go))
      l ++ fin l

/-- The held 64-bit form: 32 fraction bits. -/
def kinOf (st : BlockSt) : Kin := { p := (st.pos : Rat) / 2 ^ 32, v := (st.vel : Rat) / 2 ^ 32, a := (st.acc : Rat) / 2 ^ 32 }

def BlockSt.putKin (st : BlockSt) (k : Kin) (t : Nat) (plan : List (Int × Nat)) (stopping : Bool) : BlockSt :=
  { st with pos := satAcc (ratUp (k.p * 2 ^ 32)), vel := satAcc (ratUp (k.v * 2 ^ 32)), acc := satAcc (ratUp (k.a * 2 ^ 32))
            planT0 := t, plan := plan, stopping := stopping }

/-- A limit of the profile in LSB per unit time. -/
def State.profLimit (s : State) (b n : Nat) : Rat := (s.loopC b n).val * span

/-- JMAX as the plan took it: a plan made before an overlay changed the limits runs on under its own (R292). -/
def State.planJerk (s : State) (b : Nat) (st : BlockSt) : Rat :=
  match st.coefs with
  | [_, _, m, sh] => (coefOf m sh 2).val * span
  | _ => s.profLimit b 2

/-- The state of the profile at `t`: the plan's, else at rest where it stands. -/
def State.profAtTime (s : State) (b : Nat) (st : BlockSt) (t : Nat) : Kin :=
  let j := s.planJerk b st
  match planAt j st.plan (kinOf st) ((t - st.planT0) * 2 ^ 32) with
  | some k => k
  | none => if st.plan.isEmpty then kinOf st else { planEnd j st.plan (kinOf st) with v := 0, a := 0 }

/-- Plan from a state at `t` to the target: a stop first where the target cannot be reached at rest without passing it. -/
def State.replan (s : State) (b : Nat) (st : BlockSt) (k : Kin) (t : Nat) : BlockSt :=
  let v := s.profLimit b 0
  let a := s.profLimit b 1
  let j := s.profLimit b 2
  let need := (st.target : Rat) - k.p
  let stop := stopPlan k.v k.a a j
  let ds := (planEnd j stop { k with p := 0 }).p
  let atRest := decide (k.v = 0 ∧ k.a = 0)
  let ok := atRest || (decide (0 ≤ ds * need) && decide (ratMax ds (-ds) ≤ ratMax need (-need)))
  if ok then st.putKin k t (if atRest && decide (need = 0) then [] else profilePlan need k.v k.a v a j) false
  else st.putKin k t stop true

/-- Evaluate at `t`: an ended stop goes on to the plan from rest, an ended plan leaves p = g at rest. The Bool tells that the
profile came to rest on its target. -/
def State.profEval (s : State) (b : Nat) (st : BlockSt) (t : Nat) : BlockSt × Int × Bool :=
  let j := s.profLimit b 2
  let st1 := if st.stopping && (planAt j st.plan (kinOf st) ((t - st.planT0) * 2 ^ 32)).isNone then
      let k := planEnd j st.plan (kinOf st)
      s.replan b st { k with v := 0, a := 0 } (st.planT0 + planLen st.plan / 2 ^ 32)
    else st
  match planAt j st1.plan (kinOf st1) ((t - st1.planT0) * 2 ^ 32) with
  | some k => (st1, ratUp k.p, false)
  | none =>
    if st1.plan.isEmpty || st1.stopping then (st1, ratUp (kinOf st1).p, false)
    else (st1.putKin { p := st1.target, v := 0, a := 0 } t [] false, st1.target, true)

end Sys2Proof.Machine
end

