-- ==== Sys2Proof/Machine/Almanac.lean ====
section
/-! DEFINITION. The Almanac (R392–R413): plans, trackers, intervals, records, stores and the reading window, with the steps
ALMANAC_VALUE, INTERRUPTION_MEASURE_END, INTERVAL_BOUNDARY, ALMANAC_COMMIT, COMMIT_LATE, KEEP_SCAN_DONE, REMOTE_RECORD_RECEIVE,
ALM_CUR_WRITE and ALM_WIN_W63_READ. -/

namespace Sys2Proof.Machine

/-! ### Local time (R397) -/

/-- Days from 1970-01-01 to the first day of a civil month (`y` years, month `m` 1–12). -/
def daysFromCivil (y m : Nat) : Int :=
  let y1 : Int := if m ≤ 2 then (y : Int) - 1 else y
  let mp : Int := if m ≤ 2 then m + 9 else m - 3
  let era := y1 / 400
  let yoe := y1 - era * 400
  let doy := (153 * mp + 2) / 5
  era * 146097 + (yoe * 365 + yoe / 4 - yoe / 100 + doy) - 719468

/-- Civil year and month of a day number. -/
def civilFromDays (d : Int) : Nat × Nat :=
  let z := d + 719468
  let era := z / 146097
  let doe := z - era * 146097
  let yoe := (doe - doe / 1460 + doe / 36524 - doe / 146096) / 365
  let doy := doe - (365 * yoe + yoe / 4 - yoe / 100)
  let mp := (5 * doy + 2) / 153
  let m := if mp < 10 then mp + 3 else mp - 9
  let y := yoe + era * 400 + (if m ≤ 2 then 1 else 0)
  (y.toNat, m.toNat)

/-- Local time of a device time, ns. -/
def State.localNs (s : State) (t : Nat) : Int :=
  (t : Int) - signExt 16 (s.fld A.TIM_UTCOFS F.TIM_UTCOFS_OFFSET) * 1000000000 + signExt 8 (s.fld A.ALM_CFG F.ALM_CFG_TZ) * 900000000000

/-- The first boundary of interval kind `k` after a device time. -/
def State.nextBoundary (s : State) (k t : Nat) : Nat :=
  let l := s.localNs t
  let day : Int := 86400000000000
  let b : Int := match k with
    | 0 => (l / 900000000000 + 1) * 900000000000
    | 1 => (l / 3600000000000 + 1) * 3600000000000
    | 3 =>
      let (y, m) := civilFromDays (l / day)
      (if m = 12 then daysFromCivil (y + 1) 1 else daysFromCivil y (m + 1)) * day
    | _ => (l / day + 1) * day
  ((t : Int) + (b - l)).toNat

/-- Set the next boundaries from device time. -/
def State.almRearm (s : State) : State :=
  { s with alm := { s.alm with nextB := [0, 1, 2, 3, 4].foldl (fun t k => tabPut none t k (some (s.nextBoundary k s.tim.now))) s.alm.nextB } }

/-! ### Plans and trackers -/

def State.almPlan (s : State) (h : Nat) : AlmPlanSt := tabGet almPlanInit s.alm.plans h
def State.setAlmPlan (s : State) (h : Nat) (p : AlmPlanSt) : State := { s with alm := { s.alm with plans := tabPut almPlanInit s.alm.plans h p } }
def State.almTrk (s : State) (t : Nat) : AlmPlanSt := tabGet almPlanInit s.alm.trackers t
def State.setAlmTrk (s : State) (t : Nat) (p : AlmPlanSt) : State :=
  { s with alm := { s.alm with trackers := tabPut almPlanInit s.alm.trackers t p } }

/-- Bins of a plan: NB and three more (R393). -/
def State.almBins (s : State) (h : Nat) : List Nat :=
  (List.range (s.fld (A.ALM_PLAN_CFG h) F.ALM_PLAN_CFG_NB + 3)).map (fun i => s.fld (A.ALM_PLAN_SRC h) F.ALM_PLAN_SRC_BASE + i)

/-- Clear a plan's bins. -/
def State.clearBins (s : State) (h : Nat) : State := s.forEach (s.almBins h) (fun i s => s.setReg (A.ALM_BIN i) 0)

/-- Clear a tracker: EMPTY. -/
def State.clearTrk (s : State) (t : Nat) : State :=
  (s.forEach [A.ALM_XL_MIN t, A.ALM_XL_MAX t, A.ALM_XL_TMIN_LO t, A.ALM_XL_TMIN_HI t, A.ALM_XL_TMAX_LO t, A.ALM_XL_TMAX_HI t]
    (fun a s => s.setReg a 0)).setReg (A.ALM_XL_FLG t) 1

/-- An interval's state at its start now. -/
def State.almFresh (s : State) (partial_ : Bool) (lo hi : Word) (old : AlmPlanSt) : AlmPlanSt :=
  { old with opStart := (s.reg A.ALM_OPSEC).toNat, partial_ := partial_, step := false, sat := false, running := true, lo := lo, hi := hi }

/-- A plan's interval starts with cleared bins. -/
def State.almOpenPlan (s : State) (h : Nat) (partial_ : Bool) : State :=
  (s.clearBins h).setAlmPlan h (s.almFresh partial_ (s.reg (A.ALM_PLAN_LO h)) (s.reg (A.ALM_PLAN_HI h)) (s.almPlan h))

/-- A tracker's interval starts. -/
def State.almOpenTrk (s : State) (t : Nat) (partial_ : Bool) : State :=
  (s.clearTrk t).setAlmTrk t (s.almFresh partial_ 0 0 (s.almTrk t))

/-- Interval kinds. -/
def State.planInt (s : State) (h : Nat) : Nat := s.fld (A.ALM_PLAN_CFG h) F.ALM_PLAN_CFG_INT
def State.trkInt (s : State) (t : Nat) : Nat := s.fld (A.ALM_XT_CFG t) F.ALM_XT_CFG_INT

/-! ### Records (R398–R401) -/

/-- A record of an interval that ends now: `op` operating seconds at its end, `extra` further flags. -/
def State.almRecord (s : State) (kind sev subject seg segs : Nat) (p : AlmPlanSt) (op : Word) (extra : Nat) (payload : List Word) : AlmRecord :=
  let locked := decide (s.fld A.TIM_STAT F.TIM_STAT_STATE = 2)
  { kind := kind, severity := sev, flags := p.partial_.toNat + p.sat.toNat * 4 + p.step.toNat * 8 + (!locked).toNat * 16 + extra, number := 0
    subject := subject, segment := seg, segments := segs, opStart := BitVec.ofNat 32 p.opStart, opEnd := op, pwrCyc := s.reg A.ALM_PWRCYC
    time := s.almTime, payload := payload, refSince := 0 }

/-- Severity of a plan's or tracker's records: 6 for a lifetime interval. -/
def almSev (int sev : Nat) : Nat := if int = 4 then 6 else sev

/-- The segments of a plan, 55 bins each. -/
def State.planRecords (s : State) (h : Nat) (op : Word) (extra : Nat) : List AlmRecord :=
  let bins := (s.almBins h).map (fun i => s.reg (A.ALM_BIN i))
  let n := (bins.length + 54) / 55
  let sev := almSev (s.planInt h) (s.fld (A.ALM_PLAN_CFG h) F.ALM_PLAN_CFG_SEV)
  (List.range n).map (fun k => s.almRecord 1 sev h k n (s.almPlan h) op extra ((bins.drop (55 * k)).take 55))

/-- Runs of consecutive trackers with one interval and severity, at most nine each. -/
def State.trkRuns (s : State) : List Nat → List (List Nat)
  | [] => []
  | t :: l =>
    match s.trkRuns l with
    | [] => [[t]]
    | r :: rs =>
      match r with
      | [] => [t] :: rs
      | u :: _ =>
        let same := s.trkInt t == s.trkInt u && s.fld (A.ALM_XT_CFG t) F.ALM_XT_CFG_SEV == s.fld (A.ALM_XT_CFG u) F.ALM_XT_CFG_SEV
        if same && Nat.blt r.length 9 then (t :: r) :: rs else [t] :: r :: rs

/-- An extreme set. -/
def State.trkRecord (s : State) (ts : List Nat) (op : Word) (extra : Nat) : AlmRecord :=
  let t := ts.headD 0
  let words := ts.flatMap (fun u => [A.ALM_XL_MIN u, A.ALM_XL_MAX u, A.ALM_XL_TMIN_LO u, A.ALM_XL_TMIN_HI u, A.ALM_XL_TMAX_LO u,
    A.ALM_XL_TMAX_HI u].map s.reg)
  let empty := (ts.zip (List.range 9)).foldl (fun a e => a + (if s.bit (A.ALM_XL_FLG e.1) 0 then 2 ^ e.2 else 0)) 0
  let p := s.almTrk t
  let q := { p with partial_ := ts.any (fun u => (s.almTrk u).partial_), step := ts.any (fun u => (s.almTrk u).step) }
  s.almRecord 2 (almSev (s.trkInt t) (s.fld (A.ALM_XT_CFG t) F.ALM_XT_CFG_SEV)) t 0 1 q op extra
    (words ++ List.replicate (54 - words.length) 0 ++ [BitVec.ofNat 32 empty])

/-- Put records into the staging buffer, in order. -/
def State.almStage (s : State) (l : List AlmRecord) (at_ : Nat) : State :=
  { s with alm := { s.alm with staged := s.alm.staged ++ l.map (fun r => { body := r, at_ := at_, remote := false }) } }

/-- Running plans and trackers of an interval kind. -/
def State.plansOf (s : State) (k : Nat) : List Nat := (List.range 256).filter (fun h => (s.almPlan h).running && s.planInt h == k)
def State.trksOf (s : State) (k : Nat) : List Nat := (List.range 1024).filter (fun t => (s.almTrk t).running && s.trkInt t == k)

/-- Runs of the enabled trackers that belong to an interval kind. -/
def State.trkSets (s : State) (k : Nat) : List (List Nat) :=
  (s.trkRuns ((List.range 1024).filter (fun t => (s.almTrk t).running))).filter (fun r => s.trkInt (r.headD 0) == k)

/-- An interval kind ends: the closing bins and trackers are staged and cleared; a lifetime interval goes on (R397, R398). -/
def State.almEnd (s : State) (k at_ : Nat) (op : Word) (extra : Nat) (partial_ : Bool) : State :=
  let recs := (s.plansOf k).flatMap (fun h => s.planRecords h op extra) ++ (s.trkSets k).map (fun r => s.trkRecord r op extra)
  let s1 := s.almStage recs at_
  if k = 4 then s1 else (s1.forEach (s1.plansOf k) (fun h s => s.almOpenPlan h partial_)).forEach (s1.trksOf k) (fun t s => s.almOpenTrk t partial_)

/-- INTERVAL_BOUNDARY. -/
def doIntervalBoundary (k : Fin 5) (s : State) : State :=
  match tabGet none s.alm.nextB k with
  | none => s
  | some t =>
    if s.tim.now < t then s
    else
      let s1 := s.almEnd k t (s.reg A.ALM_OPSEC) 0 false
      { s1 with alm := { s1.alm with nextB := tabPut none s1.alm.nextB k (some (s1.nextBoundary k s1.tim.now)) } }

/-- Mark the intervals of a kind as stepped. -/
def State.markStep (s : State) (k : Nat) : State :=
  (s.forEach (s.plansOf k) (fun h s => s.setAlmPlan h { s.almPlan h with step := true })).forEach (s.trksOf k)
    (fun t s => s.setAlmTrk t { s.almTrk t with step := true })

/-- A step of device time (R397): a boundary passed forward ends its interval at the step; backward, the intervals go on longer. -/
def State.almStep (s : State) (forward : Bool) : State :=
  s.forEach [0, 1, 2, 3, 4] (fun k s =>
    match tabGet none s.alm.nextB k with
    | none => s
    | some t =>
      if !forward then s.markStep k
      else if s.tim.now < t then s
      else
        let s1 := (s.markStep k).almEnd k s.tim.now (s.reg A.ALM_OPSEC) 0 true
        { s1 with alm := { s1.alm with nextB := tabPut none s1.alm.nextB k (some (s1.nextBoundary k s1.tim.now)) } })

/-! ### Changes of plans and trackers (R410) -/

/-- The intervals running before a change of registers, against the registers now: EN cleared or INT changed closes with TRUNC, EN set or
INT changed starts a PARTIAL interval. `old` is the state before the change. -/
def State.almChange (s old : State) : State :=
  let s1 := s.forEach (List.range 256) (fun h s =>
    let en := s.bit (A.ALM_PLAN_CFG h) 31
    let run := (s.almPlan h).running
    if (run == en) && (!run || s.planInt h == old.planInt h) then s
    else
      let s1 := if run then
          let recs := (old.planRecords h (s.reg A.ALM_OPSEC) 2)
          (s.almStage recs s.tim.now).setAlmPlan h { s.almPlan h with running := false }
        else s
      if en then s1.almOpenPlan h true else s1)
  s1.forEach (List.range 1024) (fun t s =>
    let en := s.bit (A.ALM_XT_CFG t) 31
    let run := (s.almTrk t).running
    if (run == en) && (!run || s.trkInt t == old.trkInt t) then s
    else
      let s1 := if run then
          (s.almStage [old.trkRecord [t] (s.reg A.ALM_OPSEC) 2] s.tim.now).setAlmTrk t { s.almTrk t with running := false }
        else s
      if en then s1.almOpenTrk t true else s1)

/-! ### Values (R393–R396) -/

/-- Add to a bin, saturating; SAT marks the interval, ALM_CNT_SAT is raised when the bin first saturates. -/
def State.binAdd (s : State) (h i : Nat) (n : Nat) : State :=
  let a := A.ALM_BIN (s.fld (A.ALM_PLAN_SRC h) F.ALM_PLAN_SRC_BASE + i)
  let v := (s.reg a).toNat
  let w := min (v + n) 0xFFFFFFFF
  let s1 := s.setReg a (BitVec.ofNat 32 w)
  if w < 0xFFFFFFFF then s1
  else
    let s2 := s1.setAlmPlan h { s1.almPlan h with sat := true }
    if v < 0xFFFFFFFF then s2.raise Ev.ALM_CNT_SAT noIndex else s2

/-- The value bin of a finite value in modes 0 and 1. -/
def State.almBinOf (s : State) (h : Nat) (v : Rat) : Nat :=
  let p := s.almPlan h
  let nb := s.fld (A.ALM_PLAN_CFG h) F.ALM_PLAN_CFG_NB
  let log := s.bit (A.ALM_PLAN_CFG h) 24
  let lo := fpVal p.lo
  let hi := fpVal p.hi
  if (log && decide (v ≤ 0)) || decide (v < lo) then 0
  else if hi ≤ v then nb + 1
  else
    let f (x : Rat) : Rat := if log then realLog x else x
    1 + min ((((nb : Rat) * (f v - f lo) / (f hi - f lo)).floor).toNat) (nb - 1)

/-- Round(1,000 × |x|). -/
def milli (x : Rat) : Nat := (ratRound (1000 * (if x < 0 then -x else x))).toNat

/-- A value into a plan. A NaN has no bin stated: a free one (assumption 4). -/
def State.planValue (s : State) (h : Nat) (v : Word) (invalid : Bool) : State :=
  let p := s.almPlan h
  let nb := s.fld (A.ALM_PLAN_CFG h) F.ALM_PLAN_CFG_NB
  let mode := s.fld (A.ALM_PLAN_CFG h) F.ALM_PLAN_CFG_MODE
  let per := match s.fld (A.ALM_PLAN_CFG h) F.ALM_PLAN_CFG_PERIOD with
    | 1 => 1000000000
    | 2 => 10000000000
    | 3 => 60000000000
    | _ => 0
  let kind := s.fld (A.ALM_PLAN_SRC h) F.ALM_PLAN_SRC_SRC / 4096
  let timed := (mode == 0 || (mode == 2 && kind != 8 && kind != 9 && kind != 11)) && per != 0
  if timed && Nat.blt s.tim.up p.nextAt then s
  else
    let s1 := if timed then s.setAlmPlan h { p with nextAt := (s.tim.up / per + 1) * per } else s
    if invalid then s1.binAdd h (nb + 2) 1
    else if fpIsNan v ∨ (fpIsInf v ∧ 2 ≤ mode) then
      let (k, s2) := s1.nextFree
      if mode ≤ 1 then s2.binAdd h (Config.freeNat k % (nb + 3)) 1 else s2.binAdd h 1 (Config.freeNat k % 2 ^ 32)
    else if mode ≤ 1 then s1.binAdd h (if fpIsInf v then (if bitGet v 31 then 0 else nb + 1) else s1.almBinOf h (fpVal v)) 1
    else if mode = 2 then s1.binAdd h 1 (milli (fpVal v))
    else
      let s2 := match p.prev with
        | some q => s1.binAdd h 1 (milli (fpVal v - q))
        | none => s1
      s2.setAlmPlan h { s2.almPlan h with prev := some (fpVal v) }

/-- A value into a tracker. -/
def State.almTrkValue (s : State) (t : Nat) (v : Word) (invalid : Bool) : State :=
  if invalid || fpIsNan v then s
  else
    let val (w : Word) : Rat := if fpIsInf w then (if bitGet w 31 then -(2 ^ 200) else 2 ^ 200) else fpVal w
    let empty := s.bit (A.ALM_XL_FLG t) 0
    let ho := decide (s.fld A.TIM_STAT F.TIM_STAT_STATE ≠ 2)
    let s1 := if empty || decide (val v < val (s.reg (A.ALM_XL_MIN t))) then
        ((s.setReg (A.ALM_XL_MIN t) v).setReg64 (A.ALM_XL_TMIN_LO t) (A.ALM_XL_TMIN_HI t) s.tim.now).setBit (A.ALM_XL_FLG t) 1 ho
      else s
    let s2 := if empty || decide (val (s.reg (A.ALM_XL_MAX t)) < val v) then
        ((s1.setReg (A.ALM_XL_MAX t) v).setReg64 (A.ALM_XL_TMAX_LO t) (A.ALM_XL_TMAX_HI t) s.tim.now).setBit (A.ALM_XL_FLG t) 2 ho
      else s1
    s2.setBit (A.ALM_XL_FLG t) 0 false

/-- A value of a source into every running plan and tracker that takes it. -/
def State.almValue (s : State) (src : Nat) (v : Word) (invalid : Bool) : State :=
  let hs := (List.range 256).filter (fun h => (s.almPlan h).running && s.fld (A.ALM_PLAN_SRC h) F.ALM_PLAN_SRC_SRC == src)
  let ts := (List.range 1024).filter (fun t => (s.almTrk t).running && s.fld (A.ALM_XT_CFG t) F.ALM_XT_CFG_SRC == src)
  (s.forEach hs (fun h s => s.planValue h v invalid)).forEach ts (fun t s => s.almTrkValue t v invalid)

/-- The value of a source, FP32, and whether the source marks it invalid (R394). An interruption's values come at its end
(INTERRUPTION_MEASURE_END), and telemetry has none before the first second. -/
def State.almSource (s : State) (src : Nat) : Option (Word × Bool) :=
  let k := src % 4096
  let pct (x : Int) : Word := peWord (100 * (x : Rat) / span)
  match src / 4096 with
  | 1 => some (pct (s.spnOut k), (s.blockSrcVal k).bad)
  | 2 => some (peWord (s.hankSrc k).v, (s.hankSrc k).bad)
  | 3 => some (s.gooseWord k, (s.gooseSrc k).bad)
  | 4 => some (s.reg (A.PRT_MEAS_FRM (k / 64) + 4 * (k % 64)), s.measBad (k / 64) (k % 64))
  | 5 => some (pct (s.loopB k).err, (s.blockSrcVal k).bad)
  | 8 =>
    let b := k / 4
    match k % 4 with
    | 0 => some (peWord (s.motor b).dur, false)
    | 1 => some (peWord ((s.motor b).peak * s.primaryRatio b 0), false)
    | _ => some (peWord (s.motor b).i2t, false)
  | 11 => some (peWord 1, false)
  | 12 => some (peWord (if k % 2 = 0 then (s.motor (k / 2)).thetaS else (s.motor (k / 2)).thetaR), false)
  | 14 => (s.pwr.telem[k]?).map (fun v => (v, false))
  | _ => none

/-- ALMANAC_VALUE: the source's value is processed. -/
def doAlmanacValue (src : BitVec 16) (s : State) : State :=
  match s.almSource src.toNat with
  | some (v, bad) => s.almValue src.toNat v bad
  | none => s

/-- Every phase current of a bay is below 0.05 In. -/
def State.phasesBelow (s : State) (b : Nat) : Bool :=
  match (s.bayProt b).mags with
  | m :: _ =>
    let l := 5 / 100 * s.inom b
    decide (m.1 < l) && decide (m.2.1 < l) && decide (m.2.2 < l)
  | [] => false

/-- INTERRUPTION_MEASURE_END. -/
def doInterruptionMeasureEnd (c : Fin 32) (s : State) : State :=
  match tabGet none s.alm.interrupt c with
  | none => s
  | some m =>
    if !s.phasesBelow (s.fld (A.PRT_TCH_CFG c) F.PRT_TCH_CFG_BFBAY) && Nat.blt s.tim.up (m.since + 2000000000) then s
    else
      let s1 : State := { s with alm := { s.alm with interrupt := tabPut none s.alm.interrupt c none } }
      (s1.almValue (0x9000 + 2 * c.val) (peWord m.peak) false).almValue (0x9000 + 2 * c.val + 1) (peWord m.i2t) false

/-! ### Stores (R402–R405, R408) -/

/-- Records of an area. -/
def State.areaCount (s : State) (a : Nat) : Nat := (s.alm.store.filter (fun e => e.area == a)).length

/-- The record removed to make room in area `a` for severity `sev` (R402), if any may be. -/
def almVictim (l : List Stored) (a sev : Nat) : Option Stored :=
  let held := l.filter (fun e => e.area == a)
  let low := held.foldl (fun m e => min m e.body.severity) 8
  if low < sev then held.find? (fun e => e.body.severity == low)
  else if sev ≤ 3 then held.find? (fun e => e.body.severity == sev)
  else none

/-- The same segment or set in a lifetime area. -/
def sameSet (x y : AlmRecord) : Bool := x.kind == y.kind && x.subject == y.subject && x.segment == y.segment

/-- Where a record goes: its area and the record it removes; none where it is refused. -/
def State.almRoom (s : State) (r : AlmRecord) : Option (Nat × Option Stored) :=
  let deg := s.fld A.ALM_STAT F.ALM_STAT_STATE == 2
  if r.severity = 6 then
    let a := if deg then 3 else 1
    match s.alm.store.find? (fun e => e.area == a && e.body.severity == 6 && sameSet e.body r) with
    | some e => some (a, some e)
    | none => if !deg || Nat.blt (s.areaCount 3) 3072 then some (a, none) else (almVictim s.alm.store 3 6).map (fun e => (3, some e))
  else if !deg && r.severity == 7 then (if s.areaCount 2 < 75 then some (2, none) else none)
  else
    let a := if deg then 3 else 0
    let cap := if deg then 3072 else (s.reg A.ALM_CAP).toNat
    if s.areaCount a < cap then some (a, none) else (almVictim s.alm.store a r.severity).map (fun e => (a, some e))

/-- A record leaves a store; the window keeps its copy and shows OVERTAKEN (R406). -/
def State.almRemove (s : State) (e : Stored) : State :=
  let s1 : State := { s with alm := { s.alm with store := s.alm.store.filter (fun x => x.seq != e.seq) } }
  if s1.alm.cursor = e.seq + 1 ∧ !s1.bit A.ALM_STAT 29 then s1.setBit A.ALM_STAT 28 true else s1

/-- Q04 takes the record's number, kind, severity and area (R403). -/
def State.almNotify (s : State) (r : AlmRecord) (area : Nat) : State :=
  if s.qFull 4 then
    { s with alm := { s.alm with lost := s.alm.lost + 1 } }.incSat A.ALM_CNT F.ALM_CNT_NOTIFLOST Ev.ALM_CNT_SAT noIndex
  else
    let e : RingEntry := { tag := 0, status := 0, typ := 4, len := 0, p0 := r.number
                           p1 := BitVec.ofNat 32 (r.kind + r.severity * 256 + area * 65536), p2 := BitVec.ofNat 32 s.alm.lost, p3 := 0, body := [] }
    let s1 := s.qPost 4 e
    { s1 with alm := { s1.alm with lost := 0 } }.raiseLim Ev.ALM_RECORD 0 noIndex

/-- Commit one record under R402: refused and counted, or numbered, kept and notified. -/
def State.almCommit (s : State) (r : AlmRecord) (remote : Bool) : State :=
  match s.almRoom r with
  | none =>
    ({ s with alm := { s.alm with refSince := s.alm.refSince + 1 } }.incSat A.ALM_CNT F.ALM_CNT_REFUSED Ev.ALM_CNT_SAT noIndex).raise
      Ev.ALM_REFUSED noIndex
  | some (area, old) =>
    let s1 := match old with
      | some e => s.almRemove e
      | none => s
    let n := s1.reg A.ALM_NEXTREC
    let extra := (if area = 3 then 32 else 0) + (if remote then 64 else 0)
    let r1 := { r with number := n, refSince := BitVec.ofNat 16 (min s1.alm.refSince 0xFFFF), flags := r.flags + extra }
    let s2 : State := { s1 with alm := { s1.alm with
      store := s1.alm.store ++ [{ seq := s1.alm.seq, area := area, body := r1 }], seq := s1.alm.seq + 1, refSince := 0 } }
    let s3 := ((s2.setReg A.ALM_NEXTREC (n + 1)).setReg A.ALM_USED (BitVec.ofNat 32 (s2.areaCount 0))).almNotify r1 area
    let s4 := if area = 3 ∧ !remote then s3.plySend (.almanac r1) else s3
    if remote then s4.raise Ev.ALM_REMOTE n.toNat else s4

/-- A Tally note (R409): at most one per cause and power cycle, 128 in all. Its CRC is left free (the spec names no start value). -/
def State.tallyNote (s : State) (cause : Nat) (atStart : Bool) (addr : Word) : State :=
  if s.alm.tallied.contains cause ∨ 128 ≤ s.alm.tally.length then s
  else
    let (k, s0) := s.nextFree
    let flags := 0xFC + (if atStart then 2 else 0) + s.fld A.PLY_STAT F.PLY_STAT_SIDE
    let t := s.almTime.toNat
    let note : List Word := [BitVec.ofNat 32 (0x5441 + cause * 65536 + flags * 2 ^ 24), s.reg A.ALM_OPSEC, s.reg A.ALM_PWRCYC, lo32 t, hi32 t, addr,
      s.reg A.ALM_NEXTREC, BitVec.ofNat 32 (0xFFFF + Config.freeNat k % 65536 * 65536)]
    let s1 : State := { s0 with alm := { s0.alm with tally := s0.alm.tally ++ [note], tallied := cause :: s0.alm.tallied } }
    (s1.setFld A.ALM_TALLY F.ALM_TALLY_USED s1.alm.tally.length).setBit A.ALM_TALLY 8 (s1.alm.tally.length == 128)

/-- The store fails (R408): DEGRADED, the note at severity 7, the Tally note and the event, in this order. -/
def State.almFail (s : State) (cause : Nat) (atStart : Bool) (addr : Word) : State :=
  if s.fld A.ALM_STAT F.ALM_STAT_STATE = 2 then s
  else
    let s1 := s.setFld A.ALM_STAT F.ALM_STAT_STATE 2
    let s2 := s1.almCommit (s1.noteRecord 7 [BitVec.ofNat 32 cause, addr]) false
    (s2.tallyNote cause atStart addr).raise Ev.ALM_STORE_FAIL cause

/-- Wear of a NOR device by one slot written (R405): whether a sector is erased with it is free. -/
def State.norWear (s : State) : State :=
  if s.fld A.ALM_STAT F.ALM_STAT_MEDIA ≠ 3 then s
  else
    let (k, s1) := s.nextFree
    if Config.freeBool k then s1.incSat A.ALM_WEAR F.ALM_WEAR_ERASE Ev.ALM_CNT_SAT noIndex else s1

/-- A slot written fails its verification: on NOR it is marked bad; the second such slot in a row fails the store (R405, R408). -/
def State.slotFails (s : State) (addr : Word) : State :=
  let s1 := if s.fld A.ALM_STAT F.ALM_STAT_MEDIA = 3 then s.incSat A.ALM_WEAR F.ALM_WEAR_BAD Ev.ALM_CNT_SAT noIndex else s
  if s1.alm.unverified then s1.almFail 1 false addr else { s1 with alm := { s1.alm with unverified := true } }

/-- ALMANAC_COMMIT: the oldest staged record is written and read back. `verified` is false where that fails: with cause 0 the slot fails
its verification, with causes 1–5 the store fails by that cause at a Keep address. From a failure on the degraded store takes the records. -/
def doAlmanacCommit (verified : Bool) (cause : Fin 6) (addr : Word) (s : State) : State :=
  let st := s.fld A.ALM_STAT F.ALM_STAT_STATE
  match s.alm.staged with
  | [] => s
  | g :: rest =>
    if !s.alm.scanned || st = 0 then s
    else if st ≠ 2 ∧ !verified then (if cause.val = 0 then s.slotFails addr else s.almFail cause false addr)
    else
      let done := match rest with
        | n :: _ => n.at_ != g.at_
        | [] => true
      let s1 : State := { s with alm := { s.alm with staged := rest, late := s.alm.late && !done, unverified := s.alm.unverified && st == 2 } }
      (if st = 2 then s1 else s1.norWear).almCommit g.body g.remote

/-- COMMIT_LATE: 5 s after the boundary of the oldest staged record. -/
def doCommitLate (s : State) : State :=
  match s.alm.staged with
  | [] => s
  | g :: _ =>
    if s.alm.late ∨ s.tim.now < g.at_ + 5000000000 then s
    else { s with alm := { s.alm with late := true } }.raise Ev.ALM_LATE noIndex

/-- Restore the keep-alive counters from the newest record where VBAT was lost (R407). -/
def State.almCounters (s : State) : State :=
  match s.alm.store.reverse.find? (fun e => e.area != 3) with
  | none => s
  | some e =>
    if !s.alm.counterLost then s
    else
      let op := min (e.body.opEnd.toNat + 1 + (s.reg A.ALM_OPSEC).toNat) 0xFFFFFFFF
      let pc := min (e.body.pwrCyc.toNat + (s.reg A.ALM_PWRCYC).toNat) 0xFFFFFFFF
      let s1 : State := { s with alm := { s.alm with counterLost := false } }
      ((s1.setReg A.ALM_OPSEC (BitVec.ofNat 32 op)).setReg A.ALM_PWRCYC (BitVec.ofNat 32 pc)).setBit A.ALM_STAT 27 true

/-- KEEP_SCAN_DONE: the index is rebuilt, so numbers continue; commits may proceed. A store that works again is noted (R408). -/
def doKeepScanDone (s : State) : State :=
  let st := s.fld A.ALM_STAT F.ALM_STAT_STATE
  if s.alm.scanned || s.cfg.image.isNone then s
  else
    let s1 : State := { s with alm := { s.alm with scanned := true } }
    if st = 2 then s1
    else
      let s2 := s1.almCounters
      let s3 := match s2.alm.store.reverse.head? with
        | some e => s2.setReg A.ALM_NEXTREC (e.body.number + 1)
        | none => s2
      let plans := (List.range 256).any (fun h => (s3.almPlan h).running || s3.fld (A.ALM_PLAN_CFG h) F.ALM_PLAN_CFG_NB != 0) ||
        (List.range 1024).any (fun t => (s3.almTrk t).running || s3.fld (A.ALM_XT_CFG t) F.ALM_XT_CFG_SRC != 0)
      let s4 := (s3.setReg A.ALM_USED (BitVec.ofNat 32 (s3.areaCount 0))).setFld A.ALM_STAT F.ALM_STAT_STATE (if plans then 1 else 3)
      match s4.alm.held with
      | some n => { s4 with alm := { s4.alm with held := none } }.note 8 [BitVec.ofNat 32 n, BitVec.ofNat 32 s4.alm.tally.length]
      | none => s4

/-- REMOTE_RECORD_RECEIVE: committed with REMOTE set, unless this ply's own store has failed (R408, R411). -/
def doRemoteRecordReceive (r : AlmRecord) (s : State) : State :=
  if s.fld A.ALM_STAT F.ALM_STAT_STATE = 2 then s
  else { s with alm := { s.alm with staged := s.alm.staged ++ [{ body := { r with flags := r.flags % 32 + r.flags / 128 * 128 }, at_ := s.tim.now,
                                                                  remote := true }] } }

/-! ### The reading window (R406) -/

/-- A record's 64 words. -/
def recordWords (r : AlmRecord) : List Word :=
  let pay := r.payload.take 55
  [BitVec.ofNat 32 (r.kind + r.severity * 256 + r.flags * 65536), r.number,
   BitVec.ofNat 32 (r.subject + r.segment * 65536 + r.segments * 2 ^ 24), r.opStart, r.opEnd, r.pwrCyc, lo32 r.time.toNat, hi32 r.time.toNat] ++
    pay ++ List.replicate (55 - pay.length) 0 ++ [BitVec.ofNat 32 r.refSince.toNat]

/-- Fill the window. -/
def State.almWindow (s : State) (ws : List Word) : State :=
  s.forEach (List.range 64) (fun i s => s.setReg (A.ALM_WIN i) (ws.getD i 0))

/-- Load a record, or show END. -/
def State.almLoad (s : State) (e : Option Stored) : State :=
  match e with
  | some x => (({ s with alm := { s.alm with cursor := x.seq + 1 } }.almWindow (recordWords x.body)).setBit A.ALM_STAT 29 false).setBit A.ALM_STAT 28 false
  | none => ((s.almWindow []).setBit A.ALM_STAT 29 true).setBit A.ALM_STAT 28 false

/-- ALM_CUR_WRITE: the cursor is placed and the window loaded. -/
def doAlmCurWrite (v : Word) (s : State) : State :=
  let s1 := s.setReg A.ALM_CUR (v &&& 0xE0000000)
  let n := s1.reg A.ALM_CURREC
  if bitGet v 29 then
    let page := n.toNat % 16
    let notes := (List.range 8).flatMap (fun i => s1.alm.tally.getD (8 * page + i) (List.replicate 8 0xFFFFFFFF))
    s1.almWindow notes
  else
    let e := match v.toNat / 2 ^ 30 with
      | 0 => s1.alm.store.getLast?
      | 1 => s1.alm.store.head?
      | _ => s1.alm.store.reverse.find? (fun e => e.body.number == n)
    { s1 with alm := { s1.alm with cursor := if e.isSome then s1.alm.cursor else 0 } }.almLoad e

/-- ALM_WIN_W63_READ: the word is read, then the cursor moves one record in its direction. -/
def doAlmWinW63Read (s : State) : State :=
  let s1 : State := { s with host := { s.host with rdata := s.reg (A.ALM_WIN 63) } }
  let newest := s1.fld A.ALM_CUR F.ALM_CUR_MODE % 2 == 0
  let stop := s1.bit A.ALM_STAT 29
  if s1.bit A.ALM_CUR 29 then s1
  else if newest then
    if stop then s1 else s1.almLoad (s1.alm.store.reverse.find? (fun e => Nat.blt (e.seq + 1) s1.alm.cursor))
  else s1.almLoad (s1.alm.store.find? (fun e => Nat.blt s1.alm.cursor (e.seq + 1)))

def execAlmanacValue (src : BitVec 16) (_v _invalid : Computed) (s : State) : Host.Outcome State Fault Refusal :=
  .next (s.awake (doAlmanacValue src))
def execInterruptionMeasureEnd (ch : Fin 32) (s : State) : Host.Outcome State Fault Refusal := .next (s.awake (doInterruptionMeasureEnd ch))
def execIntervalBoundary (k : Fin 5) (s : State) : Host.Outcome State Fault Refusal := .next (s.awake (doIntervalBoundary k))
def execAlmanacCommit (verified : Bool) (cause : Fin 6) (addr : Word) (s : State) : Host.Outcome State Fault Refusal :=
  .next (s.awake (doAlmanacCommit verified cause addr))
def execCommitLate (s : State) : Host.Outcome State Fault Refusal := .next (s.awake doCommitLate)
def execKeepScanDone (s : State) : Host.Outcome State Fault Refusal := .next (s.awake doKeepScanDone)
def execRemoteRecordReceive (r : AlmRecord) (s : State) : Host.Outcome State Fault Refusal := .next (s.awake (doRemoteRecordReceive r))
def execAlmCurWrite (v : Word) (s : State) : Host.Outcome State Fault Refusal := .next (s.awake (doAlmCurWrite v))
def execAlmWinW63Read (s : State) : Host.Outcome State Fault Refusal := .next (s.awake doAlmWinW63Read)

end Sys2Proof.Machine
end

