-- ==== Sys2Proof/Machine/Capture.lean ====
section
/-! DEFINITION. Fault capture (R203–R217): samples, digital channels, records and snapshots, with the steps CAPTURE_SAMPLE_WRITE,
CAPTURE_RESULTS_RECEIVE, RECORD_CLOSE, SNAPSHOT_COPY and PEER_CAPTURE_REQUEST. -/

namespace Sys2Proof.Machine

/-! ### Digital channels -/

/-- The digital channels as they stand: results as CK holds them. -/
def State.digitalNow (s : State) (p : Nat) : List Word :=
  packBits (fun i =>
    let src := s.planSrc p i
    if isResult src then tabGet false s.cap.held src else s.sourceVal src)

/-- The digital channels of a grid instant, from the bits taken at it. -/
def State.digitalAt (s : State) (p : Nat) (taken : List Word) : List Word :=
  packBits (fun i =>
    let src := s.planSrc p i
    if isResult src then tabGet false s.cap.held src else digBit taken i)

/-- Every plan that runs takes its digital bits at the grid instants that have come. -/
def State.capTick (s : State) : State :=
  s.forEach (List.range 16) (fun p s =>
    if !s.planRuns p then s
    else
      let x := s.capPlan p
      let k := gridIx (s.planRate p) s.tim.now
      let first := match x.pend.getLast?, x.next with
        | some e, _ => e.1 + 1
        | none, some n => n
        | none, none => k
      s.setCapPlan p { x with next := some (x.next.getD k)
                              pend := x.pend ++ (List.range (k + 1 - first)).map (fun i => (first + i, s.digitalNow p)) })

/-! ### Space (R212, R214) -/

/-- Length of a record in octets. -/
def State.recLen (s : State) (p : Nat) (r : CapRec) : Nat := 1536 + r.samples.length * s.capS p + r.snaps.length * 29520

/-- Close a record's directory entry: the header is written, the entry posted to Q05 (R209, R215). -/
def State.recPost (s : State) (p e : Nat) (r : CapRec) : State :=
  let num := s.reg (A.CAP_DIR_REC e)
  let len := s.recLen p r
  let need := (len + 65535) / 65536
  let keep := r.blocks.take need
  let s1 := ((s.capUnlink (r.blocks.drop need)).capLink keep).setReg (A.CAP_DIR_LEN e) (BitVec.ofNat 32 len)
  let s2 := (s1.setFld (A.CAP_DIR_INFO e) F.CAP_DIR_INFO_STATE 2).setFld (A.CAP_DIR_INFO e) F.CAP_DIR_INFO_FIRST (keep.headD 0)
  let s3 := (s2.setCapRec e (some { r with blocks := keep })).capSync
  if s3.qFull 5 then s3.ringDrop 5
  else
    let q : RingEntry := { tag := num.toNat % 65536, status := 0, typ := 5, len := 0, p0 := num
                           p1 := BitVec.ofNat 32 (e * 65536 + keep.headD 0), p2 := BitVec.ofNat 32 len
                           p3 := BitVec.ofNat 32 (p * 256 + s3.planBay p), body := [] }
    (s3.qPost 5 q).raise Ev.CAP_CLOSED num.toNat

/-- The 32-bit words of a hash, octet 0 its most significant octet. -/
def hashWord (h : BitVec 384) (w : Nat) : Word :=
  let o (i : Nat) : Nat := h.toNat / 2 ^ (8 * (47 - (4 * w + i))) % 256
  BitVec.ofNat 32 (o 0 + o 1 * 256 + o 2 * 65536 + o 3 * 2 ^ 24)

/-- A plan's channels take results of a bay's frames: element outputs of the bay, or trip channels. -/
def State.planTakes (s : State) (p b : Nat) : Bool :=
  (List.range 256).any (fun i =>
    let src := s.planSrc p i
    src / 4096 == 7 || (src / 4096 == 2 && s.fld (A.PRT_EI_CFG (src % 4096 / 2)) F.PRT_EI_CFG_BAY == b))

/-- Results of a frame within the record were not posted (R205). -/
def State.recGap (s : State) (p : Nat) (r : CapRec) (t0 : Nat) : Bool :=
  s.cap.gap.any (fun g => Nat.ble t0 g.2 && Nat.ble g.2 r.endT && s.planTakes p g.1)

/-- Header, signal table and digital table of a record (R212, R213). -/
def State.recHead (s : State) (p e : Nat) (r : CapRec) : List Word :=
  let bay := s.planBay p
  let sigs := s.planSigs p
  let t0 := match r.samples with
    | x :: _ => x.t
    | [] => r.trig
  let idx := (r.samples.filter (fun x => Nat.blt x.t r.trig)).length
  let ho := r.samples.any (fun x => x.words.any (fun w => bitGet w 1))
  let flags := r.flags.toNat + (if ho then 8 else 0) + (if s.recGap p r t0 then 16 else 0) + (if r.snapLost ≠ 0 then 32 else 0)
  let hash := (s.cfg.image.map (·.hash)).getD 0
  let head : List Word := [0x52435642, 0x01000001, s.reg (A.CAP_DIR_REC e), BitVec.ofNat 32 (p + bay * 256 + r.nsig * 65536 + flags * 2 ^ 24), lo32 r.trig,
    hi32 r.trig, lo32 t0, hi32 t0, BitVec.ofNat 32 r.samples.length, BitVec.ofNat 32 idx,
    BitVec.ofNat 32 (r.count % 65536 + (r.kind * 4096 + r.index % 4096) * 65536), BitVec.ofNat 32 (r.snaps.length + r.snapLost * 65536),
    BitVec.ofNat 32 (s.planRate p), r.pwrCyc, r.opsec, r.peerRec] ++ (List.range 12).map (hashWord hash) ++ [lo32 r.frame, hi32 r.frame]
  let sig (i : Nat) : List Word := match sigs[i]? with
    | some x =>
      let kind := s.fld (A.FLT_SIG x) F.FLT_SIG_KIND
      [BitVec.ofNat 32 (x + kind * 256), wordOfInt (ratRound (s.chainSkew x (s.smpTime t0 : Rat))),
        s.reg (if isCurrent kind then A.PRT_ISCALE bay else A.PRT_VSCALE bay), ((s.cfg.image.bind (fun i => i.signals[x]?)).map (·.primary)).getD 0]
    | none => [0, 0, 0, 0]
  head ++ List.replicate 34 0 ++ (List.range 16).flatMap sig ++ (List.range 256).map (fun i => BitVec.ofNat 32 (s.planSrc p i))

/-- Words of a snapshot: the arrival record, the device time of its first sample, α, β, γ. -/
def CapSnap.words (x : CapSnap) : List Word :=
  x.record ++ [lo32 x.t, hi32 x.t] ++ x.data.flatMap (fun d => [wordOfInt d.1, wordOfInt d.2.1, wordOfInt d.2.2])

/-- A record as the words of its octet stream (R212). -/
def CapRec.words (r : CapRec) : List Word := r.head ++ r.samples.flatMap (fun y => y.words ++ y.digital) ++ r.snaps.flatMap CapSnap.words

/-- What the host reads at an offset of the capture window: the word of the record that holds the block, in the order of its links; 0 in a
block of no closed record (R215, R474). -/
def State.captureWord (s : State) (off : Nat) : Word :=
  let b := off / 65536
  let hit (e : Nat) : Option Word :=
    match s.capRec e with
    | some r =>
      if Nat.ble 2 (s.capState e) && r.blocks.contains b then some (r.words.getD ((r.blocks.idxOf b * 65536 + off % 65536) / 4) 0) else none
    | none => none
  (s.cap.order.findSome? hit).getD 0

/-- A plan whose last open record closed after it was disabled gives its ring back (R216). -/
def State.capRelease (s : State) (p : Nat) : State :=
  let x := s.capPlan p
  let s1 := s.capUnlink x.blocks
  let s2 := s1.setCapPlan p { x with blocks := [], ring := [], closing := false, next := none, pend := [] }
  (s2.setFld (A.CAP_PLAN_STAT p) F.CAP_PLAN_STAT_RING 0).capSync

/-- A record of a plan closes, in time or early. -/
def State.recClose (s : State) (p e : Nat) (r : CapRec) : State :=
  let r1 : CapRec := { r with head := s.recHead p e r }
  let s1 := s.recPost p e r1
  let x := s1.capPlan p
  let left := x.open_.filter (· != e)
  let s2 := (s1.setCapPlan p { x with open_ := left }).setBit (A.CAP_PLAN_STAT p) 31 (!left.isEmpty)
  if left.isEmpty && x.closing then s2.capRelease p else s2

/-- An open record closes early with TRUNC (R214). -/
def State.recTrunc (s : State) (p e : Nat) (r : CapRec) : State :=
  ((s.recClose p e { r with flags := r.flags ||| 1 }).raise Ev.CAP_TRUNC (s.reg (A.CAP_DIR_REC e)).toNat)

/-- Put a changed record back with the blocks it needs; where none can be freed it closes early as it was. -/
def State.recGrow (s : State) (p e : Nat) (old r : CapRec) : State :=
  let need := (s.recLen p r + 65535) / 65536
  if need ≤ r.blocks.length then s.setCapRec e (some r)
  else
    let (ok, s1) := s.capMakeRoom (need - r.blocks.length) false 64
    if !ok then s1.recTrunc p e old
    else
      let bs := r.blocks ++ s1.capFree.take (need - r.blocks.length)
      ((s1.capLink bs).setCapRec e (some { r with blocks := bs })).capSync

/-! ### Samples (R204) -/

/-- The chain's delay before the resampler, from a bay's sample instant to its chain-rate sample. -/
def State.chainDelay (s : State) (b : Nat) : Rat := ratMax 0 (s.bayDelay b - samplesNs 8 (s.chainRate b))

/-- The chain-rate word of a signal at an instant of the sample clock: value [31:8], flags [7:0] (R90). -/
def State.chainWord (s : State) (x : Nat) (t : Rat) : Word :=
  let y := s.chainAt x t
  BitVec.ofNat 32 ((wordOfInt y.v).toNat % 2 ^ 24 * 256 + y.f.toNat)

/-- Instant of a record's last sample + 1; 0 without one. -/
def CapRec.upTo (r : CapRec) : Nat := ((r.samples.getLast?).map (fun y => y.t + 1)).getD 0

/-- An open record takes from the ring what lies between its last sample and its END, also where a trigger set that END later (R208). -/
def State.recFill (s : State) (p e : Nat) : State :=
  match s.capRec e with
  | none => s
  | some r =>
    let pre := s.fld (A.CAP_PLAN_WIN p) F.CAP_PLAN_WIN_PRE * 1000000
    let l := (s.capPlan p).ring.filter (fun y => Nat.ble (max r.upTo (r.trig - pre)) y.t && Nat.ble y.t r.endT)
    if l.isEmpty then s else s.recGrow p e r { r with samples := r.samples ++ l }

/-! ### Snapshots (R211) -/

/-- The 16-octet arrival record of R113. -/
def arrivalWords (a : Arrival) : List Word :=
  [lo32 a.t, hi32 a.t, BitVec.ofNat 32 (a.mode % 4 + a.neg.toNat * 4 + a.clipped.toNat * 8 + a.peak % 2 ^ 24 * 256), lo32 a.frame]

/-- One record takes a burst's snapshot (R211). -/
def State.recSnap (s : State) (p e : Nat) (a : Nat) (snap : CapSnap) : State :=
  match s.capRec e with
  | none => s
  | some r =>
    let first := match r.samples with
      | y :: _ => y.t
      | [] => r.trig
    if a < first ∨ r.endT < a ∨ (match r.lastBurst with
      | some u => decide (a ≤ u)
      | none => false) = true then s
    else if 16 ≤ r.snaps.length then s.setCapRec e (some { r with lastBurst := some a, snapLost := min (r.snapLost + 1) 0xFFFF })
    else s.recGrow p e r { r with lastBurst := some a, snaps := r.snaps ++ [snap] }

/-- Device time of a snapshot's arrival. -/
def CapSnap.at_ (x : CapSnap) : Nat := (x.record.getD 0 0).toNat + (x.record.getD 1 0).toNat * 2 ^ 32

/-- A record takes the snapshots of its bay within its span, oldest first: also those copied before it started, or before a trigger set its
END later. -/
def State.recSnaps (s : State) (p e : Nat) : State :=
  s.forEach (tabGet [] s.cap.snaps (s.planBay p)).reverse (fun x s => s.recSnap p e x.at_ x)

/-- The α, β, γ of the bay's store around an arrival: 2,458 samples from 1,229 before its own; where the store holds none the value is free. -/
def State.snapOf (s : State) (b : Nat) (a : Arrival) : CapSnap :=
  let c := s.bayChain b
  let t : Rat := (s.smpTime a.t : Rat)
  let k := ((t - s.waveInstant b 0 - 25) * 1228800 / 1000000000).ceil - 1229
  let get (i : Int) : Int × Int × Int :=
    match c.wave.find? (fun w => (w.k : Int) == i) with
    | some w => (w.mode 0, w.mode 1, w.mode 2)
    | none => (Config.missingSample (512 + 3 * b) i, Config.missingSample (513 + 3 * b) i, Config.missingSample (514 + 3 * b) i)
  { t := s.devTime (s.waveInstant b 0 + samplesNs k 1228800), record := arrivalWords a, data := (List.range 2458).map (fun i => get (k + i)) }

/-! ### Samples written -/

/-- CAPTURE_SAMPLE_WRITE: the plan's next grid instant, once the chain has delivered it. -/
def doCaptureSampleWrite (plan : Fin 16) (s : State) : State :=
  let p := plan.val
  let x := s.capPlan p
  match x.next with
  | none => s
  | some k =>
    let t := gridNs (s.planRate p) k
    if !s.planRuns p || s.inWatchman || decide ((s.tim.now : Rat) < (t : Rat) + s.chainDelay (s.planBay p)) then s
    else
      let taken := match x.pend.find? (fun e => e.1 == k) with
        | some e => e.2
        | none => s.digitalNow p
      let dig := s.digitalAt p taken
      let smp : CapSample := { t := t, words := (s.planSigs p).map (fun g => s.chainWord g (s.smpTime t : Rat)), digital := dig }
      let s1 := s.setCapPlan p { x with ring := (x.ring.drop (x.ring.length + 1 - s.ringSamples p)) ++ [smp], digital := dig, next := some (k + 1)
                                        pend := x.pend.filter (fun e => Nat.blt k e.1) }
      (s1.forEach x.open_ (fun e s => (s.recFill p e).recSnaps p e)).capEdges p t x.digital dig (fun i => !isResult (s.planSrc p i))

/-! ### Frame results (R205, R206) -/

/-- CAPTURE_RESULTS_RECEIVE: the bay's oldest results on its ring Q60–Q63. -/
def doCaptureResultsReceive (bay : Fin 8) (s : State) : State :=
  match s.cap.posted with
  | [] => s
  | q :: _ =>
    match s.cap.posted.find? (fun x => x.bay == bay.val) with
    | none => s
    | some x =>
      let older := s.cap.posted.any (fun y => y.bay % 4 == x.bay % 4 && y.bay != x.bay && Nat.blt y.t x.t)
      if older && q.bay != x.bay then s
      else
        let rest := s.cap.posted.filter (fun y => !(y.bay == x.bay && y.n == x.n))
        let s1 : State := { s with cap := { s.cap with
          posted := rest, held := x.bits.foldl (fun t e => tabPut false t e.1 e.2) s.cap.held, lastPost := tabPut 0 s.cap.lastPost x.bay x.t } }
        s1.forEach (List.range 16) (fun p s =>
          s.planPatch p (gridAfter (s.planRate p) x.t) (fun i => isResult (s.planSrc p i)) (fun i => tabGet false s.cap.held (s.planSrc p i)))

/-! ### The end of a record (R209) -/

/-- RECORD_CLOSE: the plan's oldest open record, once the sample at END and the digital values of its frame are written. -/
def doRecordClose (plan : Fin 16) (s : State) : State :=
  let p := plan.val
  match (s.capPlan p).open_.getLast? with
  | none => s
  | some e =>
    let s := (s.recFill p e).recSnaps p e
    match s.capRec e with
    | none => s
    | some r =>
      let written := match r.samples.getLast? with
        | some y => Nat.blt r.endT (y.t + 1000000000 / s.planRate p + 1)
        | none => false
      let results := Nat.ble r.endT (tabGet 0 s.cap.lastPost (s.planBay p)) || Nat.ble (r.endT + 6190000) s.tim.now
      if written && results then s.recClose p e r else s

/-! ### Snapshots and the peer (R210, R211) -/

/-- SNAPSHOT_COPY: 1.25 ms after the first arrival of the bay's burst. -/
def doSnapshotCopy (bay : Fin 8) (s : State) : State :=
  let b := bay.val
  match (s.bayProt b).burst with
  | [] => s
  | a :: _ =>
    let held := tabGet [] s.cap.snaps b
    if s.tim.now < a.t + 1250000 ∨ (s.waveLanes b).length ≠ 3 ∨ held.any (fun x => x.at_ == a.t) = true then s
    else
      let l := s.snapOf b a :: held.filter (fun x => Nat.ble s.tim.now (x.at_ + 12000000000))
      let s1 : State := { s with cap := { s.cap with snaps := tabPut [] s.cap.snaps b l } }
      s1.forEach ((List.range 16).filter (fun p => s1.planBay p == b)) (fun p s =>
        s.forEach (s.capPlan p).open_ (fun e s => s.recSnaps p e))

/-- PEER_CAPTURE_REQUEST (R210): the peer's trigger, or only the number of its record, which the plan's record then carries. -/
def doPeerCaptureRequest (plan : Fin 16) (m : PeerCapture) (s : State) : State :=
  if !s.bit A.PLY_STAT 24 then s
  else
    let s1 := if m.ask && s.bit (A.CAP_PLAN_CFG plan) 29 then s.captureTrigger plan m.t { kind := 4, index := 0 } else s
    match (s1.capPlan plan).open_.head? with
    | none => s1
    | some e =>
      match s1.capRec e with
      | none => s1
      | some r => s1.setCapRec e (some { r with peerRec := m.num })

/-! ### Changes by an overlay (R216, R219) -/

/-- A plan is enabled: an empty ring. Disabled: the open record completes, else the ring is freed. PRE changed: the ring is resized. -/
def State.capPlanChange (s : State) (p : Nat) (wasOn : Bool) (wasPre : Nat) : State :=
  let on := s.bit (A.CAP_PLAN_CFG p) 31
  let x := s.capPlan p
  let goes := !x.open_.isEmpty
  if on && !wasOn then
    -- a record still open after the disabling goes on with the same samples
    ((s.capUnlink x.blocks).setCapPlan p { x with ring := [], digital := if goes then x.digital else [0, 0, 0, 0, 0, 0, 0, 0], closing := false
                                                  next := if goes then x.next else none, pend := if goes then x.pend else [] }).capNewRing p
  else if wasOn && !on then
    if x.open_.isEmpty then
      (((s.capUnlink x.blocks).setCapPlan p { x with blocks := [], ring := [], next := none, pend := [] }).setFld (A.CAP_PLAN_STAT p)
        F.CAP_PLAN_STAT_RING 0).capSync
    else
      (s.forEach x.open_ (fun e s => match s.capRec e with
        | some r => s.setCapRec e (some { r with shut := true })
        | none => s)).setCapPlan p { x with closing := true }
  else if on && wasPre != s.fld (A.CAP_PLAN_WIN p) F.CAP_PLAN_WIN_PRE then
    (s.capUnlink x.blocks).capNewRing p
  else s

def execCaptureSampleWrite (plan : Fin 16) (s : State) : Host.Outcome State Fault Refusal := .next (s.awake (doCaptureSampleWrite plan))
def execCaptureResultsReceive (bay : Fin 8) (s : State) : Host.Outcome State Fault Refusal := .next (s.awake (doCaptureResultsReceive bay))
def execRecordClose (plan : Fin 16) (s : State) : Host.Outcome State Fault Refusal := .next (s.awake (doRecordClose plan))
def execSnapshotCopy (bay : Fin 8) (s : State) : Host.Outcome State Fault Refusal := .next (s.awake (doSnapshotCopy bay))
def execPeerCaptureRequest (plan : Fin 16) (m : PeerCapture) (s : State) : Host.Outcome State Fault Refusal :=
  .next (s.awake (doPeerCaptureRequest plan m))

end Sys2Proof.Machine
end

