-- ==== Sys2Proof/Machine/HeddleBits.lean ====
section
/-! DEFINITION. Bit logic and group instructions (R231). -/

namespace Sys2Proof.Machine

/-- LDB, ANDB, ORB, XORB and their N forms: the bit operand joins LB under COMB and NEG. -/
def semBit (w : BitVec 64) (c : Ctx) (s : State) : HRes :=
  withBit w c (fun i => .ok (joinLb w c (readBit c s (insArea w) i)) s)

/-- Write a bit operand. -/
def semBitWrite (b : Bool) (w : BitVec 64) (c : Ctx) (s : State) : HRes :=
  withBit w c (fun i => let r := writeBit c s (insArea w) i b; .ok r.1 r.2)

/-- STB: bit ← LB. -/
def semStb (w : BitVec 64) (c : Ctx) (s : State) : HRes := semBitWrite (xor c.lb (insNeg w)) w c s

/-- SETB: bit ← 1 when LB = 1. The operand is checked whatever LB is. -/
def semSetb (w : BitVec 64) (c : Ctx) (s : State) : HRes :=
  if c.lb then semBitWrite true w c s else withBit w c (fun _ => .ok c s)

/-- CLRB: bit ← 0 when LB = 1. -/
def semClrb (w : BitVec 64) (c : Ctx) (s : State) : HRes :=
  if c.lb then semBitWrite false w c s else withBit w c (fun _ => .ok c s)

/-- NOT. -/
def semNot (_ : BitVec 64) (c : Ctx) (s : State) : HRes := .ok { c with lb := !c.lb } s

/-- LBSET: 1, or 0 with NEG = 1. -/
def semLbset (w : BitVec 64) (c : Ctx) (s : State) : HRes := .ok { c with lb := !insNeg w } s

/-- RISE: r = LB ∧ ¬m, then m ← LB and LB ← r. -/
def semRise (w : BitVec 64) (c : Ctx) (s : State) : HRes :=
  withBit w c (fun i =>
    let m := readBit c s (insArea w) i
    let r := writeBit c s (insArea w) i c.lb
    .ok { r.1 with lb := c.lb && !m } r.2)

/-- FALL: r = ¬LB ∧ m, then m ← LB and LB ← r. -/
def semFall (w : BitVec 64) (c : Ctx) (s : State) : HRes :=
  withBit w c (fun i =>
    let m := readBit c s (insArea w) i
    let r := writeBit c s (insArea w) i c.lb
    .ok { r.1 with lb := !c.lb && m } r.2)

/-- GRP: push LB with the combination that joins the group's result. -/
def semGrp (w : BitVec 64) (c : Ctx) (s : State) : HRes := .ok { c with groups := (c.lb, insComb w) :: c.groups } s

/-- GEND: pop (v, op); LB ← v op (LB ⊕ NEG). -/
def semGend (w : BitVec 64) (c : Ctx) (s : State) : HRes :=
  match c.groups with
  | [] => .ok c s
  | g :: l => .ok { c with lb := combine g.2 g.1 (xor c.lb (insNeg w)), groups := l } s

/-- CLSAT: SATS ← 0. -/
def semClsat (_ : BitVec 64) (c : Ctx) (s : State) : HRes := .ok { c with sats := false } s

/-- The form of OPC 0x01 with a combination. -/
def combForm (k : Nat) (w : BitVec 64) : Bool := insComb w == k

def execLdb (h : Fin 4) (s : State) : Host.Outcome State Fault Refusal := .next (s.heddleStep h 0x01 (combForm 0) semBit)
def execAndb (h : Fin 4) (s : State) : Host.Outcome State Fault Refusal := .next (s.heddleStep h 0x01 (combForm 1) semBit)
def execOrb (h : Fin 4) (s : State) : Host.Outcome State Fault Refusal := .next (s.heddleStep h 0x01 (combForm 2) semBit)
def execXorb (h : Fin 4) (s : State) : Host.Outcome State Fault Refusal := .next (s.heddleStep h 0x01 (combForm 3) semBit)
def execStb (h : Fin 4) (s : State) : Host.Outcome State Fault Refusal := .next (s.heddleStep h 0x09 anyForm semStb)
def execSetb (h : Fin 4) (s : State) : Host.Outcome State Fault Refusal := .next (s.heddleStep h 0x0A anyForm semSetb)
def execClrb (h : Fin 4) (s : State) : Host.Outcome State Fault Refusal := .next (s.heddleStep h 0x0B anyForm semClrb)
def execNotLb (h : Fin 4) (s : State) : Host.Outcome State Fault Refusal := .next (s.heddleStep h 0x0C anyForm semNot)
def execLbset (h : Fin 4) (s : State) : Host.Outcome State Fault Refusal := .next (s.heddleStep h 0x0D anyForm semLbset)
def execRise (h : Fin 4) (s : State) : Host.Outcome State Fault Refusal := .next (s.heddleStep h 0x0E anyForm semRise)
def execFall (h : Fin 4) (s : State) : Host.Outcome State Fault Refusal := .next (s.heddleStep h 0x0F anyForm semFall)
def execGrp (h : Fin 4) (s : State) : Host.Outcome State Fault Refusal := .next (s.heddleStep h 0x18 anyForm semGrp)
def execGend (h : Fin 4) (s : State) : Host.Outcome State Fault Refusal := .next (s.heddleStep h 0x1B anyForm semGend)
def execClsat (h : Fin 4) (s : State) : Host.Outcome State Fault Refusal := .next (s.heddleStep h 0x1C anyForm semClsat)

end Sys2Proof.Machine
end

