-- ==== Sys2Proof/Machine/HeddleControl.lean ====
section
/-! DEFINITION. Control instructions (R235; END is with the output write) and device instructions (R239). -/

namespace Sys2Proof.Machine

/-! ### Jumps and calls -/

/-- Jump to ADDR[15:0] when the condition holds. -/
def jumpIf (b : Bool) (w : BitVec 64) (c : Ctx) : Ctx := if b then { c with pc := insAddr w % 65536 } else c

def semJmp (w : BitVec 64) (c : Ctx) (s : State) : HRes := .ok (jumpIf true w c) s
def semJmpt (w : BitVec 64) (c : Ctx) (s : State) : HRes := .ok (jumpIf c.lb w c) s
def semJmpf (w : BitVec 64) (c : Ctx) (s : State) : HRes := .ok (jumpIf (!c.lb) w c) s
def semJsat (w : BitVec 64) (c : Ctx) (s : State) : HRes := .ok (jumpIf c.sat w c) s

/-- LOOP: X ← X − 1; jump if X ≠ 0. No flags. -/
def semLoop (w : BitVec 64) (c : Ctx) (s : State) : HRes :=
  let x := c.x - 1
  .ok (jumpIf (x != 0) w { c with x := x }) s

/-- Push the next index and go to ADDR[15:0]. -/
def callTo (w : BitVec 64) (c : Ctx) : Ctx := { c with calls := c.pc :: c.calls, pc := insAddr w % 65536 }

def semCall (w : BitVec 64) (c : Ctx) (s : State) : HRes := .ok (callTo w c) s
def semCallt (w : BitVec 64) (c : Ctx) (s : State) : HRes := .ok (if c.lb then callTo w c else c) s

/-- RET: pop and resume. -/
def semRet (_ : BitVec 64) (c : Ctx) (s : State) : HRes :=
  match c.calls with
  | [] => .ok c s
  | p :: l => .ok { c with pc := p, calls := l } s

def semNop (_ : BitVec 64) (c : Ctx) (s : State) : HRes := .ok c s

/-! ### Device instructions: each acts only when LB = 1 -/

/-- Act on the device when LB = 1. -/
def semDevice (f : Nat → State → State) (w : BitVec 64) (c : Ctx) (s : State) : HRes :=
  .ok c (if c.lb then f (insAddr w) s else s)

/-- URGC: an urgent conversion of slice ADDR[20:16], position [14:8], gain [1:0]. -/
def actUrgc (a : Nat) (s : State) : State :=
  (s.urgentRequest { src := 1, pos := a / 256 % 128, gain := a % 4, came := 0, slot := 0, tag := 0, heddle := 0 } (a / 65536 % 32)).2

/-- TRKRST: reset the tracker of lane ADDR[6:0]. -/
def actTrkrst (a : Nat) (s : State) : State := s.trackerReset (a % 128)

/-- TRPRST: a reset of channel ADDR[4:0]; ignored when RST_LOGIC = 0. -/
def actTrprst (a : Nat) (s : State) : State :=
  if s.bit (A.PRT_TCH_CFG (a % 32)) 28 then (s.channelReset (a % 32)).2 else s

/-- CAPT: a capture trigger of plan ADDR[3:0] at the device time of execution. -/
def actCapt (a : Nat) (s : State) : State := s.captureTrigger (a % 16) s.tim.now { kind := 1, index := 0 }

/-- OVLY: an overlay request. -/
def actOvly (a : Nat) (s : State) : State := (s.ovlRequest (a % 16) 1 0).2

/-- EVTT: a release of event task [3:0] of Heddle [5:4]. -/
def actEvtt (a : Nat) (s : State) : State := s.releaseEvent (a / 16 % 4) (16 + a % 16)

def execJmp (h : Fin 4) (s : State) : Host.Outcome State Fault Refusal := .next (s.heddleStep h 0x50 anyForm semJmp)
def execJmpt (h : Fin 4) (s : State) : Host.Outcome State Fault Refusal := .next (s.heddleStep h 0x51 anyForm semJmpt)
def execJmpf (h : Fin 4) (s : State) : Host.Outcome State Fault Refusal := .next (s.heddleStep h 0x52 anyForm semJmpf)
def execJsat (h : Fin 4) (s : State) : Host.Outcome State Fault Refusal := .next (s.heddleStep h 0x53 anyForm semJsat)
def execLoop (h : Fin 4) (s : State) : Host.Outcome State Fault Refusal := .next (s.heddleStep h 0x54 anyForm semLoop)
def execCall (h : Fin 4) (s : State) : Host.Outcome State Fault Refusal := .next (s.heddleStep h 0x58 anyForm semCall)
def execCallt (h : Fin 4) (s : State) : Host.Outcome State Fault Refusal := .next (s.heddleStep h 0x59 anyForm semCallt)
def execRet (h : Fin 4) (s : State) : Host.Outcome State Fault Refusal := .next (s.heddleStep h 0x5A anyForm semRet)
def execNop (h : Fin 4) (s : State) : Host.Outcome State Fault Refusal := .next (s.heddleStep h 0x7F anyForm semNop)
def execUrgc (h : Fin 4) (s : State) : Host.Outcome State Fault Refusal :=
  .next (s.heddleStep h 0x70 anyForm (semDevice actUrgc))
def execTrkrst (h : Fin 4) (s : State) : Host.Outcome State Fault Refusal :=
  .next (s.heddleStep h 0x71 anyForm (semDevice actTrkrst))
def execTrprst (h : Fin 4) (s : State) : Host.Outcome State Fault Refusal :=
  .next (s.heddleStep h 0x72 anyForm (semDevice actTrprst))
def execCapt (h : Fin 4) (s : State) : Host.Outcome State Fault Refusal :=
  .next (s.heddleStep h 0x73 anyForm (semDevice actCapt))
def execOvly (h : Fin 4) (s : State) : Host.Outcome State Fault Refusal :=
  .next (s.heddleStep h 0x74 anyForm (semDevice actOvly))
def execEvtt (h : Fin 4) (s : State) : Host.Outcome State Fault Refusal :=
  .next (s.heddleStep h 0x75 anyForm (semDevice actEvtt))

end Sys2Proof.Machine
end

