-- ==== Sys2Proof/Machine/HeddleTimers.lean ====
section
/-! DEFINITION. Timer and counter instructions (R236–R238) and the timer sweep. -/

namespace Sys2Proof.Machine

/-! ### Timers -/

/-- A timer element's content. -/
structure Timer where
  stamp : Nat
  q : Bool
  run : Bool
  inp : Bool
  acc : Nat
  deriving DecidableEq, Repr

/-- Read timer `n` (R236). -/
def State.timer (s : State) (n : Nat) : Timer :=
  let w := s.timerWord n
  { stamp := s.timerStamp n, q := w.testBit 31, run := w.testBit 30, inp := w.testBit 29, acc := w % 2 ^ 29 }

/-- Write timer `n`. -/
def State.setTimer (s : State) (n : Nat) (t : Timer) : State :=
  (s.setOctetsLE (tBase + 8 * n) 4 t.stamp).setOctetsLE (tBase + 8 * n + 4) 4
    (t.q.toNat * 2 ^ 31 + t.run.toNat * 2 ^ 30 + t.inp.toNat * 2 ^ 29 + t.acc % 2 ^ 29)

/-- ET of a timer at clock `t`. -/
def Timer.et (x : Timer) (t : Nat) : Nat :=
  min (x.acc + (if x.run then (t % 2 ^ 32 + 2 ^ 32 - x.stamp) % 2 ^ 32 else 0)) (2 ^ 29 - 1)

/-- Frozen with an ET. -/
def Timer.freeze (x : Timer) (et : Nat) : Timer := { x with run := false, acc := et }

/-- Running from an ET at clock `t`. -/
def Timer.start (x : Timer) (et t : Nat) : Timer := { x with run := true, acc := et, stamp := t % 2 ^ 32 }

/-- Mode 0, pulse. -/
def Timer.tp (x : Timer) (inp : Bool) (pt t : Nat) : Timer :=
  let y := if inp && !x.inp && !x.run then { x.start 0 t with q := true } else x
  let z := if y.run && Nat.ble pt (y.et t) then { y.freeze (y.et t) with q := false } else y
  if !inp && !z.run then z.freeze 0 else z

/-- Mode 1, on-delay. -/
def Timer.ton (x : Timer) (inp : Bool) (pt t : Nat) : Timer :=
  if inp then
    let y := if x.run || x.q then x else x.start x.acc t
    if y.run && Nat.ble pt (y.et t) then { y.freeze (y.et t) with q := true } else y
  else { x.freeze 0 with q := false }

/-- Mode 2, off-delay. -/
def Timer.tof (x : Timer) (inp : Bool) (pt t : Nat) : Timer :=
  if inp then { x.freeze 0 with q := true }
  else
    let y := if x.inp then x.start 0 t else x
    if y.run && Nat.ble pt (y.et t) then { y.freeze (y.et t) with q := false } else y

/-- Mode 3, retentive on-delay. -/
def Timer.tonr (x : Timer) (inp : Bool) (pt t : Nat) : Timer :=
  let y := if inp then (if x.run then x else x.start x.acc t) else if x.run then x.freeze (x.et t) else x
  if Nat.ble pt (y.et t) then { y with q := true } else y

/-- TMR in one mode: IN is LB, PT is X limited to 2²⁹ − 1 ms; then INP ← IN and LB ← Q (R237). -/
def semTmr (f : Timer → Bool → Nat → Nat → Timer) (w : BitVec 64) (c : Ctx) (s : State) : HRes :=
  withBit w c (fun i =>
    let y := f (s.timer i) c.lb (min c.x.toNat (2 ^ 29 - 1)) c.clk
    .ok { c with lb := y.q } (s.setTimer i { y with inp := c.lb }))

/-- TRST: when LB = 1, ET ← 0, Q ← 0 and RUN ← 0. -/
def semTrst (w : BitVec 64) (c : Ctx) (s : State) : HRes :=
  withBit w c (fun i =>
    if c.lb then .ok c (s.setTimer i { (s.timer i).freeze 0 with q := false }) else .ok c s)

/-- The mode AUX[1:0] of TMR. -/
def modeForm (k : Nat) (w : BitVec 64) : Bool := insAux w % 4 == k

/-- TIMER_SWEEP: each running timer is folded: ACC ← ET and STAMP ← the present clock (R236). Due every 2²⁰ ms of the logic clock. -/
def doTimerSweep (s : State) : State :=
  let ms := s.tim.logic / 1000000
  if ms % 2 ^ 20 ≠ 0 ∨ ms = 0 then s
  else s.forEach (List.range tCount) (fun n s =>
    let t := s.timer n
    if t.run then s.setTimer n { t.start (t.et ms) ms with run := true } else s)

/-! ### Counters (R238) -/

/-- Counter `n`'s index for a counter instruction. -/
def withCounter (w : BitVec 64) (c : Ctx) (k : Nat → HRes) : HRes :=
  let i := insIndex w c.y
  if cCount ≤ i then .fault 1 else k i

/-- Write counter `n`: CV, OVF, previous up and down inputs. -/
def State.setCounter (s : State) (n cv : Nat) (ovf up down : Bool) : State :=
  (s.setOctetsLE (cBase + 16 * n) 4 cv).setOctetsLE (cBase + 16 * n + 4) 4
    (ovf.toNat * 2 ^ 31 + up.toNat * 2 ^ 30 + down.toNat * 2 ^ 29)

/-- CTU: on a rising LB, CV + 1, or OVF with CV held at its greatest value. -/
def semCtu (w : BitVec 64) (c : Ctx) (s : State) : HRes :=
  withCounter w c (fun n =>
    let cv := s.counterCv n
    let x := s.counterWord n
    let rise := c.lb && !x.testBit 30
    let full := cv == 2 ^ 32 - 1
    .ok c (s.setCounter n (if rise && !full then cv + 1 else cv) (x.testBit 31 || (rise && full)) c.lb (x.testBit 29)))

/-- CTD: on a rising LB, CV − 1, or OVF with CV held at 0. -/
def semCtd (w : BitVec 64) (c : Ctx) (s : State) : HRes :=
  withCounter w c (fun n =>
    let cv := s.counterCv n
    let x := s.counterWord n
    let rise := c.lb && !x.testBit 29
    .ok c (s.setCounter n (if rise then cv - 1 else cv) (x.testBit 31 || (rise && cv == 0)) (x.testBit 30) c.lb))

/-- CLD: if LB = 1, CV ← X and OVF ← 0. -/
def semCld (w : BitVec 64) (c : Ctx) (s : State) : HRes :=
  withCounter w c (fun n =>
    let x := s.counterWord n
    if c.lb then .ok c (s.setCounter n c.x.toNat false (x.testBit 30) (x.testBit 29)) else .ok c s)

/-- CRST: if LB = 1, CV ← 0 and OVF ← 0. -/
def semCrst (w : BitVec 64) (c : Ctx) (s : State) : HRes :=
  withCounter w c (fun n =>
    let x := s.counterWord n
    if c.lb then .ok c (s.setCounter n 0 false (x.testBit 30) (x.testBit 29)) else .ok c s)

def execTimerSweep (s : State) : Host.Outcome State Fault Refusal := .next (s.awake doTimerSweep)
def execTmrTp (h : Fin 4) (s : State) : Host.Outcome State Fault Refusal :=
  .next (s.heddleStep h 0x60 (modeForm 0) (semTmr Timer.tp))
def execTmrTon (h : Fin 4) (s : State) : Host.Outcome State Fault Refusal :=
  .next (s.heddleStep h 0x60 (modeForm 1) (semTmr Timer.ton))
def execTmrTof (h : Fin 4) (s : State) : Host.Outcome State Fault Refusal :=
  .next (s.heddleStep h 0x60 (modeForm 2) (semTmr Timer.tof))
def execTmrTonr (h : Fin 4) (s : State) : Host.Outcome State Fault Refusal :=
  .next (s.heddleStep h 0x60 (modeForm 3) (semTmr Timer.tonr))
def execTrst (h : Fin 4) (s : State) : Host.Outcome State Fault Refusal := .next (s.heddleStep h 0x61 anyForm semTrst)
def execCtu (h : Fin 4) (s : State) : Host.Outcome State Fault Refusal := .next (s.heddleStep h 0x64 anyForm semCtu)
def execCtd (h : Fin 4) (s : State) : Host.Outcome State Fault Refusal := .next (s.heddleStep h 0x65 anyForm semCtd)
def execCld (h : Fin 4) (s : State) : Host.Outcome State Fault Refusal := .next (s.heddleStep h 0x66 anyForm semCld)
def execCrst (h : Fin 4) (s : State) : Host.Outcome State Fault Refusal := .next (s.heddleStep h 0x67 anyForm semCrst)

end Sys2Proof.Machine
end

