-- ==== Sys2Proof/Machine/HeddleWords.lean ====
section
/-! DEFINITION. Register, integer, floating-point and compare instructions (R222, R232–R234). -/

namespace Sys2Proof.Machine

/-! ### Registers and moves -/

/-- The register AUX[0] selects: 0 X, 1 Y. -/
def setXY (w : BitVec 64) (c : Ctx) (v : Word) : Ctx := if (insAux w).testBit 0 then { c with y := v } else { c with x := v }

/-- LDA: the register takes the operand, or ADDR when AREA = 0. -/
def semLda (w : BitVec 64) (c : Ctx) (s : State) : HRes :=
  if insArea w = 0 then .ok (setXY w c (BitVec.ofNat 32 (insAddr w))) s
  else withIndex w c (fun i => .ok (setXY w c (readWord c s (insArea w) (insSize w) i)) s)

/-- STA: the operand takes the register. -/
def semSta (w : BitVec 64) (c : Ctx) (s : State) : HRes :=
  withIndex w c (fun i =>
    let r := writeWord c s (insArea w) (insSize w) i (if (insAux w).testBit 0 then c.y else c.x)
    .ok r.1 r.2)

def semSwap (_ : BitVec 64) (c : Ctx) (s : State) : HRes := .ok { c with x := c.y, y := c.x } s
def semLdcw (_ : BitVec 64) (c : Ctx) (s : State) : HRes := .ok { c with x := condWord c } s

/-! ### Integer arithmetic: exact, then limited (R232) -/

/-- X ← X op S, limited. -/
def semInt (op : Int → Int → Int) (w : BitVec 64) (c : Ctx) (s : State) : HRes :=
  withS w c s (fun v => .ok (storeInt c (op c.x.toInt v.toInt)) s)

def semAdd : BitVec 64 → Ctx → State → HRes := semInt (· + ·)
def semSub : BitVec 64 → Ctx → State → HRes := semInt (· - ·)
def semMul : BitVec 64 → Ctx → State → HRes := semInt (· * ·)

/-- DIV: truncated; by 0 the bound of the dividend's sign, or 0 for 0, with SAT = 1. -/
def semDiv (w : BitVec 64) (c : Ctx) (s : State) : HRes :=
  withS w c s (fun v =>
    if v = 0 then
      let q : Int := if c.x = 0 then 0 else if c.x.toInt < 0 then -2 ^ 31 else 2 ^ 31 - 1
      .ok (storeX c (wordOfInt q) true (q = 0)) s
    else .ok (storeInt c (c.x.toInt.tdiv v.toInt)) s)

/-- MOD: remainder with the sign of X; 0 with SAT = 1 by 0. -/
def semMod (w : BitVec 64) (c : Ctx) (s : State) : HRes :=
  withS w c s (fun v =>
    if v = 0 then .ok (storeX c 0 true true) s else .ok (storeInt c (c.x.toInt.tmod v.toInt)) s)

def semNeg (_ : BitVec 64) (c : Ctx) (s : State) : HRes := .ok (storeInt c (-c.x.toInt)) s
def semAbs (_ : BitVec 64) (c : Ctx) (s : State) : HRes := .ok (storeInt c c.x.toInt.natAbs) s

/-- ADDI: X + ADDR signed, whatever AUX[7]. -/
def semAddi (w : BitVec 64) (c : Ctx) (s : State) : HRes :=
  .ok (storeInt c (c.x.toInt + (BitVec.ofNat 32 (insAddr w)).toInt)) s

/-! ### Bitwise and shifts: no flags -/

def semLogic (op : Word → Word → Word) (w : BitVec 64) (c : Ctx) (s : State) : HRes :=
  withS w c s (fun v => .ok { c with x := op c.x v } s)

def semAnd : BitVec 64 → Ctx → State → HRes := semLogic (· &&& ·)
def semOr : BitVec 64 → Ctx → State → HRes := semLogic (· ||| ·)
def semXor : BitVec 64 → Ctx → State → HRes := semLogic (· ^^^ ·)
def semInv (_ : BitVec 64) (c : Ctx) (s : State) : HRes := .ok { c with x := ~~~c.x } s

/-- The shift count AUX[4:0]. -/
def insShift (w : BitVec 64) : Nat := insAux w % 32

def semShl (w : BitVec 64) (c : Ctx) (s : State) : HRes := .ok { c with x := c.x <<< insShift w } s
def semShr (w : BitVec 64) (c : Ctx) (s : State) : HRes := .ok { c with x := c.x >>> insShift w } s
def semSar (w : BitVec 64) (c : Ctx) (s : State) : HRes := .ok { c with x := c.x.sshiftRight (insShift w) } s
def semRol (w : BitVec 64) (c : Ctx) (s : State) : HRes := .ok { c with x := c.x.rotateLeft (insShift w) } s

/-! ### Floating point (R233) -/

/-- Store a floating-point result: SAT for a NaN, or for an infinity from finite operands. -/
def storeFp (c : Ctx) (s : State) (r : FpRes) (finite : Bool) : HRes :=
  match r with
  | .nan => let n := s.nextFree; .ok (storeX c (fpSomeNan (Config.freeWord n.1)) true false) n.2
  | .word x => .ok (storeX c x (finite && fpIsInf x) (isFpZero x)) s

/-- X op S in binary32. -/
def semFp (op : FpNum → FpNum → FpRes) (w : BitVec 64) (c : Ctx) (s : State) : HRes :=
  withS w c s (fun v => storeFp c s (op (fpDecode c.x) (fpDecode v)) (fpIsFinite c.x && fpIsFinite v))

def semFadd : BitVec 64 → Ctx → State → HRes := semFp fpAdd
def semFsub : BitVec 64 → Ctx → State → HRes := semFp (fun a b => fpAdd a (fpNegate b))
def semFmul : BitVec 64 → Ctx → State → HRes := semFp fpMul
def semFdiv : BitVec 64 → Ctx → State → HRes := semFp fpDiv

/-- A subnormal operand or result is zero of the same sign (R233). -/
def fpFlush (x : Word) : Word := if x.toNat / 2 ^ 23 % 256 = 0 then BitVec.ofNat 32 (x.toNat / 2 ^ 31 * 2 ^ 31) else x

/-- FABS, FNEG: SAT = 0. A NaN stays a NaN: it is stored with its sign changed. -/
def semFabs (_ : BitVec 64) (c : Ctx) (s : State) : HRes :=
  let x := fpFlush (c.x &&& 0x7FFFFFFF)
  .ok (storeX c x false (isFpZero x)) s

def semFneg (_ : BitVec 64) (c : Ctx) (s : State) : HRes :=
  let x := fpFlush (c.x ^^^ 0x80000000)
  .ok (storeX c x false (isFpZero x)) s

/-- ITOF: SAT = 0. -/
def semItof (_ : BitVec 64) (c : Ctx) (s : State) : HRes :=
  let x := fpOfInt c.x.toInt
  .ok (storeX c x false (isFpZero x)) s

/-- FTOI: to nearest even, limited to the integer range; a NaN gives 0. A limited result or a NaN sets SAT. -/
def semFtoi (_ : BitVec 64) (c : Ctx) (s : State) : HRes :=
  match fpDecode c.x with
  | .nan => .ok (storeX c 0 true true) s
  | .inf neg => .ok (storeX c (wordOfInt (if neg then -2 ^ 31 else 2 ^ 31 - 1)) true false) s
  | .zero _ => .ok (storeInt c 0) s
  | .fin neg m e => .ok (storeInt c (fpToInt neg m e)) s

/-! ### CMP (R234) -/

/-- The condition on an order: −1, 0 or 1 for X below, equal to or above S. -/
def condHolds (cond : Nat) (o : Int) : Bool :=
  match cond with
  | 0 => o == 0
  | 1 => o != 0
  | 2 => decide (0 < o)
  | 3 => decide (0 ≤ o)
  | 4 => decide (o < 0)
  | _ => decide (o ≤ 0)

/-- CMP: the condition joins LB. AUX[2:0] codes 6 and 7, to which the spec gives no condition, give a free bit. -/
def semCmp (w : BitVec 64) (c : Ctx) (s : State) : HRes :=
  withS w c s (fun v =>
    let cond := insAux w % 8
    if 6 ≤ cond then let n := s.nextFree; .ok (joinLb w c (Config.freeBool n.1)) n.2
    else if (insAux w).testBit 3 then
      if fpIsNan c.x || fpIsNan v then .ok (joinLb w c (cond == 1)) s
      else .ok (joinLb w c (condHolds cond (fpCompare (fpDecode c.x) (fpDecode v)))) s
    else .ok (joinLb w c (condHolds cond (c.x.toInt - v.toInt))) s)

def execLda (h : Fin 4) (s : State) : Host.Outcome State Fault Refusal := .next (s.heddleStep h 0x20 anyForm semLda)
def execSta (h : Fin 4) (s : State) : Host.Outcome State Fault Refusal := .next (s.heddleStep h 0x21 anyForm semSta)
def execSwap (h : Fin 4) (s : State) : Host.Outcome State Fault Refusal := .next (s.heddleStep h 0x22 anyForm semSwap)
def execLdcw (h : Fin 4) (s : State) : Host.Outcome State Fault Refusal := .next (s.heddleStep h 0x23 anyForm semLdcw)
def execAddW (h : Fin 4) (s : State) : Host.Outcome State Fault Refusal := .next (s.heddleStep h 0x28 anyForm semAdd)
def execSubW (h : Fin 4) (s : State) : Host.Outcome State Fault Refusal := .next (s.heddleStep h 0x29 anyForm semSub)
def execMulW (h : Fin 4) (s : State) : Host.Outcome State Fault Refusal := .next (s.heddleStep h 0x2A anyForm semMul)
def execDivW (h : Fin 4) (s : State) : Host.Outcome State Fault Refusal := .next (s.heddleStep h 0x2B anyForm semDiv)
def execModW (h : Fin 4) (s : State) : Host.Outcome State Fault Refusal := .next (s.heddleStep h 0x2C anyForm semMod)
def execNegW (h : Fin 4) (s : State) : Host.Outcome State Fault Refusal := .next (s.heddleStep h 0x2D anyForm semNeg)
def execAbsW (h : Fin 4) (s : State) : Host.Outcome State Fault Refusal := .next (s.heddleStep h 0x2E anyForm semAbs)
def execAddi (h : Fin 4) (s : State) : Host.Outcome State Fault Refusal := .next (s.heddleStep h 0x2F anyForm semAddi)
def execAndW (h : Fin 4) (s : State) : Host.Outcome State Fault Refusal := .next (s.heddleStep h 0x30 anyForm semAnd)
def execOrW (h : Fin 4) (s : State) : Host.Outcome State Fault Refusal := .next (s.heddleStep h 0x31 anyForm semOr)
def execXorW (h : Fin 4) (s : State) : Host.Outcome State Fault Refusal := .next (s.heddleStep h 0x32 anyForm semXor)
def execInv (h : Fin 4) (s : State) : Host.Outcome State Fault Refusal := .next (s.heddleStep h 0x33 anyForm semInv)
def execShl (h : Fin 4) (s : State) : Host.Outcome State Fault Refusal := .next (s.heddleStep h 0x34 anyForm semShl)
def execShr (h : Fin 4) (s : State) : Host.Outcome State Fault Refusal := .next (s.heddleStep h 0x35 anyForm semShr)
def execSar (h : Fin 4) (s : State) : Host.Outcome State Fault Refusal := .next (s.heddleStep h 0x36 anyForm semSar)
def execRol (h : Fin 4) (s : State) : Host.Outcome State Fault Refusal := .next (s.heddleStep h 0x37 anyForm semRol)
def execFadd (h : Fin 4) (s : State) : Host.Outcome State Fault Refusal := .next (s.heddleStep h 0x40 anyForm semFadd)
def execFsub (h : Fin 4) (s : State) : Host.Outcome State Fault Refusal := .next (s.heddleStep h 0x41 anyForm semFsub)
def execFmul (h : Fin 4) (s : State) : Host.Outcome State Fault Refusal := .next (s.heddleStep h 0x42 anyForm semFmul)
def execFdiv (h : Fin 4) (s : State) : Host.Outcome State Fault Refusal := .next (s.heddleStep h 0x43 anyForm semFdiv)
def execFabs (h : Fin 4) (s : State) : Host.Outcome State Fault Refusal := .next (s.heddleStep h 0x44 anyForm semFabs)
def execFneg (h : Fin 4) (s : State) : Host.Outcome State Fault Refusal := .next (s.heddleStep h 0x45 anyForm semFneg)
def execItof (h : Fin 4) (s : State) : Host.Outcome State Fault Refusal := .next (s.heddleStep h 0x46 anyForm semItof)
def execFtoi (h : Fin 4) (s : State) : Host.Outcome State Fault Refusal := .next (s.heddleStep h 0x47 anyForm semFtoi)
def execCmp (h : Fin 4) (s : State) : Host.Outcome State Fault Refusal := .next (s.heddleStep h 0x38 anyForm semCmp)

end Sys2Proof.Machine
end

