-- ==== Sys2Proof/Machine/Spindle.lean ====
section
/-! DEFINITION. The modes of the loop blocks, the PID, the issue of outputs, and the steps BLOCK_RELEASE and LOOP_VALUES_RECEIVE
(R270, R271, R277–R287, R290, R291). -/

namespace Sys2Proof.Machine

/-! ### Masters, selectors and modes (R282–R286) -/

/-- The PID whose in1 takes this PID's or profile generator's output (R285). -/
def State.slaveOf (s : State) (b : Nat) : Option Nat :=
  if s.spnType b = 1 ∨ s.spnType b = 10 then
    (List.range 512).find? (fun c => s.spnType c == 1 && s.spnSrc c 1 == 0x1000 + b)
  else none

/-- The selector that an ERS PID feeds, with the input number (R282). -/
def State.selectorOf (s : State) (b : Nat) : Option (Nat × Nat) :=
  if s.spnType b = 1 && s.bit (A.SPN_BCFG b) 25 then
    (List.range 512).findSome? (fun c =>
      if s.spnType c = 4 then
        ((List.range (if s.spnTripEn c then 3 else 4)).find? (fun i => s.spnSrc c i == 0x1000 + b)).map (fun i => (c, i))
      else none)
  else none

/-- The present set-point of a PID: in1 in CASCADE, else the local one. -/
def State.presentSp (s : State) (c : Nat) : Int := if s.spnMode c = 2 then (s.loopIn c 1).v else (s.loopB c).sp

/-- The slave's set-point that holds a master in TRACK (R285). -/
def State.heldBySlave (s : State) (b : Nat) : Option Int :=
  (s.slaveOf b).bind (fun c => if s.spnMode c = 2 then none else some (s.presentSp c))

/-- The trip channel that the block names is asserted. -/
def State.loopTripped (s : State) (b : Nat) : Bool :=
  s.spnTripEn b && s.bit A.PRT_TCH_STATE (s.fld (A.SPN_BCFG b) F.SPN_BCFG_TRIPCH)

/-- A mode decision: the mode (0 MAN, 1 AUTO, 2 CASCADE, 3 TRACK, 5 OFF), TRACK by trip, TRACK of a slave's set-point, and a refused
request for CASCADE. -/
structure ModeDec where
  mode : Nat
  trip : Bool
  slave : Option Int
  refused : Bool
  deriving DecidableEq, Repr

/-- The mode at a release (R283); TRACK of the actor's values is laid over the result. -/
def State.decideMode (s : State) (b : Nat) (st : BlockSt) : ModeDec :=
  let d (m : Nat) : ModeDec := { mode := m, trip := false, slave := none, refused := false }
  let req := (s.loopQ b 8).toNat % 8
  if !s.spnOn b then d 5
  else if s.loopTripped b then { d 3 with trip := true }
  else if s.bit (A.SPN_BSTAT b) 25 then d 0
  else match s.heldBySlave b with
    | some sp => { d 3 with slave := some sp }
    | none =>
      if req = 4 then d 3
      else if req = 1 then d 0
      else if req = 3 then (if s.goodMaster b then d 2 else { d 1 with refused := true })
      else if req = 2 then d 1
      else if st.mode = 5 then d 0
      else if st.mode = 2 && !s.goodMaster b then d 1
      else if st.mode = 3 && st.mastered then d 1
      else d st.mode

/-! ### The PID (R281, R284) -/

/-- What a PID starts a release with. -/
structure PidIn where
  pv : Int
  sp : Int
  ff : Int
  /-- The value an output is to continue from, where the release presets. -/
  preset : Option Int
  /-- The selector's output, while the PID is not selected. -/
  ysel : Option Int
  deriving DecidableEq, Repr

/-- P and D of a PID with given words of c0, c2, c3. -/
def pidPD (m0 m2 m3 sh : Word) (opt : Bool) (st : BlockSt) (x : PidIn) : Int × Int :=
  let e := if opt then x.pv - x.sp else x.sp - x.pv
  let q := if opt then x.pv else -x.pv
  (mulC (coefOf m0 sh 0) e, satAcc (mulC (coefOf m2 sh 2) st.d + mulC (coefOf m3 sh 3) (q - st.q)))

/-- One PID computation: the output limited, SAT, and the block. -/
def State.pid (s : State) (b : Nat) (st : BlockSt) (x : PidIn) : Int × Bool × BlockSt :=
  let opt := s.spnOpt b
  let sh := s.reg (A.SPN_BSH b)
  let m (n : Nat) : Word := s.reg (A.SPN_BC b n)
  let (p, dd) := pidPD (m 0) (m 2) (m 3) sh opt st x
  let keep : Int := match st.coefs with
    | [o0, o2, o3, osh] =>
      if o0 = m 0 ∧ o3 = m 3 ∧ osh = sh then 0
      else
        let (p0, d0) := pidPD o0 o2 o3 osh opt st x
        p0 - p + (d0 - dd)
    | _ => 0
  let i0 : Int := match x.preset with
    | some u => satAcc ((u - p - dd - x.ff) * 2 ^ 32)
    | none => satAcc (st.integ + keep * 2 ^ 32)
  let v := satAcc (p + shiftRound i0 32 + dd + x.ff)
  let (u, sat) := s.loopLimit b v
  let e := if opt then x.pv - x.sp else x.sp - x.pv
  let i1 := match x.ysel with
    | some y => satAcc ((y - x.ff) * 2 ^ 32)
    | none => satAcc (i0 + mulI (coefOf (m 1) sh 1) e + mulI (coefOf (m 4) sh 4) (u - v))
  (u, sat, { st with err := e, integ := i1, d := dd, q := if opt then x.pv else -x.pv, coefs := [m 0, m 2, m 3, sh] })

/-! ### One computation -/

/-- The outcome of one computation. -/
structure LoopRes where
  st : BlockSt
  out : Int
  sat : Bool
  bad : Bool
  sel : Nat
  pdone : Bool
  ended : Bool
  at_ : Option Nat
  ovr : Bool
  deriving DecidableEq, Repr

/-- Newest of source instants. -/
def newest (l : List (Option Nat)) : Option Nat :=
  l.foldl (fun a x => match a, x with
    | none, y => y
    | some n, none => some n
    | some n, some k => some (max n k)) none

/-- The value a block in TRACK takes: the slave's set-point, else in3, else its own last output (R283). -/
def State.trackVal (s : State) (b : Nat) (d : ModeDec) (last : Int) : InVal :=
  match d.slave with
  | some sp => { v := sp, bad := false, at_ := none }
  | none =>
    if s.spnSrc b 3 / 4096 = 0 || (s.spnType b == 4 && !s.spnTripEn b) then { v := last, bad := false, at_ := none } else s.loopIn b 3

/-- The candidates of a selector that are good (R282). -/
def State.candidates (s : State) (b : Nat) : List (Nat × Int) :=
  (List.range (if s.spnTripEn b then 3 else 4)).filterMap (fun i =>
    let x := s.loopIn b i
    if x.bad then none else some (i, x.v))

/-- A block that holds its output. -/
def holdRes (st : BlockSt) (last : Int) (bad : Bool) (sel : Nat) (pdone : Bool) (t : Option Nat) : LoopRes :=
  { st := st, out := last, sat := false, bad := bad, sel := sel, pdone := pdone, ended := false, at_ := t, ovr := false }

/-- A PID that runs in AUTO or CASCADE. -/
def State.runPid (s : State) (b : Nat) (st : BlockSt) (d : ModeDec) (fresh wasBad : Bool) (last : Int) : LoopRes :=
  let pv := s.loopIn b 0
  let sp1 := s.loopIn b 1
  let ff := s.loopIn b 2
  let used := if d.mode = 2 then [pv.at_, sp1.at_, ff.at_] else [pv.at_, ff.at_]
  if pv.bad || ff.bad || (d.mode == 2 && sp1.bad) then holdRes st last true 0 false (newest used)
  else
    let sp := if d.mode = 2 then sp1.v else st.sp
    let ysel := (s.selectorOf b).bind (fun c =>
      if s.fld (A.SPN_BSTAT c.1) F.SPN_BSTAT_SEL = c.2 then none else some (s.spnOut c.1))
    let preset := if fresh || wasBad then some last else none
    let (u, sat, st1) := s.pid b st { pv := pv.v, sp := sp, ff := ff.v, preset := preset, ysel := ysel }
    { st := { st1 with sp := if ysel.isSome then sp else st1.sp }, out := u, sat := sat, bad := false, sel := 0, pdone := false, ended := false
      at_ := newest used, ovr := ysel.isSome }

/-- A selector that runs. -/
def State.runSelector (s : State) (b : Nat) (st : BlockSt) (last : Int) : LoopRes :=
  let sel := s.fld (A.SPN_BSTAT b) F.SPN_BSTAT_SEL
  match selectIn (s.spnOpt b) sel (s.candidates b) with
  | none => holdRes st last true sel false none
  | some c =>
    let (y, sat) := s.loopLimit b c.2
    { holdRes st y false c.1 false (s.loopIn b c.1).at_ with sat := sat }

/-- A profile generator that runs: a new target or new limits replan it (R289). -/
def State.runProfile (s : State) (b : Nat) (st : BlockSt) : LoopRes :=
  let t := s.tim.now
  let words := [s.reg (A.SPN_BC b 0), s.reg (A.SPN_BC b 1), s.reg (A.SPN_BC b 2), s.reg (A.SPN_BSH b)]
  let seq := BitVec.ofNat 8 ((s.loopQ b 8).toNat / 256)
  let newT := decide (seq ≠ st.lseq)
  let st1 := if newT then { st with lseq := seq, target := (s.loopQ b 0).toInt } else st
  let go := newT || st.profAt.isSome || (st.coefs != [] && st.coefs != words)
  let t0 := st.profAt.getD t
  let st2 := { (if go then s.replan b st1 (s.profAtTime b st1 t0) t0 else st1) with profAt := none, coefs := words }
  let (st3, p, ended) := s.profEval b st2 t
  let (y, sat) := s.loopLimit b p
  { st := st3, out := y, sat := sat, bad := false, sel := 0, pdone := st3.plan.isEmpty && decide ((kinOf st3).p = st3.target)
    ended := ended, at_ := none, ovr := false }

/-- The in0 that a block's transfer function takes: type 9 uses that of the block before it (R280). -/
def State.mainIn (s : State) (b : Nat) : InVal := if s.spnType b = 9 then s.loopIn (b - 1) 0 else s.loopIn b 0

/-- Types 2, 3 and 5–9 while they run. -/
def State.runSimple (s : State) (b : Nat) (st : BlockSt) (last : Int) : LoopRes :=
  let x := s.mainIn b
  if x.bad then holdRes st last true 0 false x.at_
  else
    let (y, sat) := s.loopLimit b (s.simpleLoop b x.v last st.xPrev)
    { holdRes { st with xPrev := x.v } y false 0 false x.at_ with sat := sat }

/-- A block in TRACK: output and, for a PID, the preset to it; a profile stands at it (R284, R285). -/
def State.runTrack (s : State) (b : Nat) (st : BlockSt) (d : ModeDec) (last : Int) : LoopRes :=
  let x := s.trackVal b d last
  let sel := match selectIn (s.spnOpt b) (s.fld (A.SPN_BSTAT b) F.SPN_BSTAT_SEL) (s.candidates b) with
    | some c => c.1
    | none => s.fld (A.SPN_BSTAT b) F.SPN_BSTAT_SEL
  if x.bad then holdRes st last true sel false x.at_
  else
    let (y, sat) := s.loopLimit b x.v
    let pv := s.loopIn b 0
    let ff := s.loopIn b 2
    let st1 := if s.spnType b = 1 then
        let st0 := if s.bit (A.SPN_BCFG b) 24 && !pv.bad then { st with sp := pv.v } else st
        if pv.bad || ff.bad then st0
        else (s.pid b st0 { pv := pv.v, sp := st0.sp, ff := ff.v, preset := some y, ysel := none }).2.2
      else if s.spnType b = 10 then { st.putKin { p := y, v := 0, a := 0 } s.tim.now [] false with target := y, profAt := none }
      else { st with xPrev := (s.mainIn b).v }
    { holdRes st1 y false sel (s.spnType b == 10) x.at_ with sat := sat }

/-- A block in MAN: the internal manual value, which takes the last output on entry and MANV when MSEQ changes later (R279, R284). -/
def State.runMan (s : State) (b : Nat) (st : BlockSt) (entry : Bool) (last : Int) : LoopRes :=
  let seq := BitVec.ofNat 8 ((s.loopQ b 8).toNat / 65536)
  let st1 := if entry then { st with mv := last, mseq := seq }
    else if seq ≠ st.mseq then { st with mv := (s.loopQ b 4).toInt, mseq := seq } else st
  let (y, sat) := s.loopLimit b st1.mv
  let pv := s.loopIn b 0
  let st2 := if s.spnType b = 1 then
      (if pv.bad then st1
       else { st1 with d := satAcc (mulC (s.loopC b 2) st1.d + mulC (s.loopC b 3) ((if s.spnOpt b then pv.v else -pv.v) - st1.q))
                       q := if s.spnOpt b then pv.v else -pv.v
                       sp := if s.bit (A.SPN_BCFG b) 24 then pv.v else st1.sp })
    else if s.spnType b = 10 then { st1.putKin { p := y, v := 0, a := 0 } s.tim.now [] false with target := y, profAt := none }
    else { st1 with xPrev := (s.mainIn b).v }
  let sel := s.fld (A.SPN_BSTAT b) F.SPN_BSTAT_SEL
  { holdRes st2 y false sel (s.spnType b == 10) none with sat := sat }

/-- A new local set-point (R279). -/
def State.takeSp (s : State) (b : Nat) (st : BlockSt) : BlockSt :=
  let seq := BitVec.ofNat 8 ((s.loopQ b 8).toNat / 256)
  if s.spnType b ≠ 10 ∧ seq ≠ st.lseq then { st with lseq := seq, sp := (s.loopQ b 0).toInt } else st

/-- One computation of block `b` in a mode decided, from the mode of the last release. -/
def State.computeLoop (s : State) (b : Nat) (st0 : BlockSt) (d : ModeDec) (last : Int) : LoopRes :=
  let was := st0.mode
  let st1 := s.takeSp b st0
  let pv := s.loopIn b 0
  let fresh := (was == 0 || was == 3 || was == 5) && (d.mode == 1 || d.mode == 2)
  let st2 := if fresh && s.bit (A.SPN_BCFG b) 24 && s.spnType b == 1 && !pv.bad then { st1 with sp := pv.v }
    else if was = 2 ∧ d.mode = 1 then { st1 with sp := (s.loopIn b 1).v } else st1
  let r := match d.mode with
    | 0 => s.runMan b st2 (was != 0) last
    | 3 => s.runTrack b st2 d last
    | 5 => holdRes st2 last false (s.fld (A.SPN_BSTAT b) F.SPN_BSTAT_SEL) false none
    | _ =>
      match s.spnType b with
      | 1 => s.runPid b st2 d fresh (s.bit (A.SPN_BSTAT b) 27) last
      | 4 => s.runSelector b st2 last
      | 10 => s.runProfile b st2
      | _ => s.runSimple b st2 last
  { r with st := { r.st with mode := d.mode, refused := d.refused, mastered := d.slave.isSome } }

/-! ### Issue (R277–R279) -/

/-- The FP32 or 16-bit value of an output at its destination, by the inverse of the destination's scaling. -/
def State.unscale (s : State) (b : Nat) (x : Int) : Rat :=
  let r0 := s.fpReg (A.SPN_SCALE b 8)
  let r1 := s.fpReg (A.SPN_SCALE b 9)
  r0 + (x : Rat) * (r1 - r0) / span

/-- Send an output to its destination (R278); what comes from a forced interface is marked. -/
def State.issueTo (s : State) (b : Nat) (x : Int) : State :=
  let i := s.fld (A.SPN_BDST b) F.SPN_BDST_INDEX
  let drv := s.qDerived (0x4000 + 16 * b) 16
  match s.fld (A.SPN_BDST b) F.SPN_BDST_KIND with
  | 1 => s.setFld (A.LIO_AOUT (i % 4)) F.LIO_AOUT_CODE (clampInt 0 65535 (ratUp ((65535 : Rat) * x / span))).toNat
  | 2 => s.qStoreLE (0x3000 + i) drv 2 (clampInt (-32768) 32767 (ratUp (s.unscale b x)) % 65536).toNat
  | 3 => s.qStoreLE (0x1000 + 4 * i) drv 4 (peWord (s.unscale b x)).toNat
  | _ => s

/-- The word of I 0x6004 + 8 × b. -/
def loopStatus (ageNs mode sat bad stale trip pdone sel : Nat) : Nat :=
  min (ageNs / 1000) 0xFFFF * 2 ^ 16 + mode * 2 ^ 13 + sat * 2 ^ 12 + bad * 2 ^ 11 + stale * 2 ^ 10 + trip * 2 ^ 9 + pdone * 2 ^ 8 + sel * 2 ^ 6

/-- Store an output with its stamps and status, in the registers and in the I image. -/
def State.issueLoop (s : State) (b : Nat) (x : Int) (tsmp : Nat) (mode sat bad stale trip pdone sel : Nat) : State :=
  let now := s.tim.now
  let age := now - tsmp
  let w := mode * 2 ^ 29 + sat * 2 ^ 28 + bad * 2 ^ 27 + stale * 2 ^ 26 + trip * 2 ^ 25 + pdone * 2 ^ 24 + sel * 2 ^ 22 +
    s.fld (A.SPN_BSTAT b) F.SPN_BSTAT_SPINDLE * 2 ^ 20
  let s1 := ((s.setReg (A.SPN_BSTAT b) (BitVec.ofNat 32 w)).setReg (A.SPN_BOUT b) (wordOfInt x)).setReg (A.SPN_BAGE b)
    (BitVec.ofNat 32 (min age 0xFFFFFFFF))
  let s2 := (s1.setReg64 (A.SPN_TSMP_LO b) (A.SPN_TSMP_HI b) tsmp).setReg64 (A.SPN_TISS_LO b) (A.SPN_TISS_HI b) now
  let s3 := (s2.setOctetsLE (iBase + 0x6000 + 8 * b) 4 (wordOfInt x).toNat).setOctetsLE (iBase + 0x6004 + 8 * b) 4
    (loopStatus age mode sat bad stale trip pdone sel)
  s3.issueTo b x

/-! ### Releases (R270, R271, R290) -/

/-- Period and phase in ns. -/
def State.loopPeriod (s : State) (b : Nat) : Nat := s.fld (A.SPN_BPER b) F.SPN_BPER_K * 100000
def State.loopPhase (s : State) (b : Nat) : Nat := s.fld (A.SPN_BPER b) F.SPN_BPER_PHASE * 100000

/-- The Spindle of a block. -/
def State.spindleOf (s : State) (b : Nat) : Nat := s.fld (A.SPN_BSTAT b) F.SPN_BSTAT_SPINDLE

/-- The block's release is the one its Spindle serves next: earlier instants first, then lower numbers. -/
def State.loopTurn (s : State) (b t : Nat) : Bool :=
  (List.range 512).all (fun c => c == b || s.spindleOf c != s.spindleOf b ||
    (match (s.loopB c).next with
     | none => true
     | some u => Nat.blt t u || (u == t && Nat.blt b c)))

/-- Releases that fell due after `t` before now are skipped and counted (R271). -/
def State.skipLoops (s : State) (b n : Nat) : State :=
  let sp := s.spindleOf b
  s.forEach (List.range n) (fun _ s => (s.incSat (A.SPN_SSTAT sp) F.SPN_SSTAT_SKIPS Ev.SPN_CNT_SAT sp).raiseLim Ev.SPN_OVERRUN sp sp)

/-- The ply follows an actor it hears, or runs on its own inputs without the link (R287). -/
def State.loopFollow (s : State) : Bool := (s.role == 2 || s.role == 3) && s.bit A.PLY_STAT 24

/-- The twin bits of SPN_STAT. -/
def State.spnTwin (s : State) : State :=
  (s.setFld A.SPN_STAT F.SPN_STAT_FOLLOW s.loopFollow.toNat).setFld A.SPN_STAT F.SPN_STAT_LINKHOLD
    ((s.role == 2 || s.role == 3) && !s.bit A.PLY_STAT 24).toNat

/-- The actor's values replace a result (R287). -/
def BlockSt.take (st : BlockSt) (v : LoopValues) : BlockSt :=
  { st with mode := v.mode, sp := v.sp, lseq := v.lseq, mseq := v.mseq, integ := v.integ, d := v.d, q := v.q, xPrev := v.xPrev
            pos := v.pos, vel := v.vel, acc := v.acc, plan := v.plan, planT0 := v.planT0, target := v.target
            mv := if v.mode = 0 then v.out else st.mv }

/-- What the actor sends of a block for a release. -/
def BlockSt.values (st : BlockSt) (out : Int) : LoopValues :=
  { out := out, mode := st.mode, y := out, integ := st.integ, d := st.d, q := st.q, xPrev := st.xPrev, sp := st.sp, lseq := st.lseq
    mseq := st.mseq, pos := st.pos, vel := st.vel, acc := st.acc, plan := st.plan, planT0 := st.planT0, target := st.target }

/-- The first release begins in MAN with the value of in3 where it is declared and good, else with OLO (R290). -/
def State.loopStart (s : State) (b : Nat) (st : BlockSt) : BlockSt × Int :=
  let x := s.loopIn b 3
  let v := if s.spnSrc b 3 / 4096 ≠ 0 && !x.bad then x.v else (s.reg (A.SPN_BOLO b)).toInt
  let ctl := (s.loopQ b 8).toNat
  ({ st.putKin { p := v, v := 0, a := 0 } s.tim.now [] false with
      started := true, mode := 0, mv := v, target := v, mseq := BitVec.ofNat 8 (ctl / 65536) }, v)

/-- Events of a release: the mode's change, a refusal, TRACK by trip, entry into BAD, a selector's switch, a profile at rest. -/
def State.loopEvents (s : State) (b : Nat) (r : LoopRes) (d : ModeDec) (wasMode mode : Nat) (wasTrip wasBad : Bool) (wasSel : Nat)
    (wasRefused : Bool) : State :=
  let s1 := if mode ≠ wasMode then s.raiseLim Ev.SPN_MODE (s.spindleOf b) b else s
  let s2 := if d.refused && !wasRefused then s1.raise Ev.SPN_MODE_REFUSED b else s1
  let s3 := if d.trip && !wasTrip then s2.raise Ev.SPN_TRIP_TRACK (s2.fld (A.SPN_BCFG b) F.SPN_BCFG_TRIPCH) else s2
  let s4 := if r.bad && !wasBad then s3.raise Ev.SPN_BAD_INPUT b else s3
  let s5 := if s4.spnType b = 4 ∧ r.sel ≠ wasSel then s4.raiseLim Ev.SPN_OVR_SWITCH b b else s4
  if r.ended then s5.raise Ev.SPN_PROF_DONE b else s5

/-- The release of block `b`. -/
def State.releaseLoop (s : State) (b : Nat) : State :=
  let st := s.loopB b
  let (st0, last) := if st.started then (st, s.spnOut b) else s.loopStart b st
  let wasMode := s.spnMode b
  let wasTrip := s.bit (A.SPN_BSTAT b) 25
  let wasBad := s.bit (A.SPN_BSTAT b) 27
  let wasSel := s.fld (A.SPN_BSTAT b) F.SPN_BSTAT_SEL
  let d := s.decideMode b st0
  let r0 := s.computeLoop b st0 d last
  let follow := s.loopFollow && d.mode != 5
  let r := match follow, tabGet none s.spn.rx b with
    | true, some v => { r0 with st := r0.st.take v, out := v.out }
    | _, _ => r0
  let mode := if follow then 3 else if r.ovr then 4 else d.mode
  let stale := decide (d.mode = 5)
  let tsmp := if stale then s.reg64 (A.SPN_TSMP_LO b) (A.SPN_TSMP_HI b) else r.at_.getD s.tim.now
  let s1 := s.setLoopB b r.st
  let s2 := s1.issueLoop b r.out tsmp mode r.sat.toNat r.bad.toNat stale.toNat d.trip.toNat r.pdone.toNat r.sel
  let s3 := { s2 with freeSeq := s2.freeSeq + 8 }.loopEvents b r d wasMode mode wasTrip wasBad wasSel st.refused
  if s3.role = 1 then s3.plySend (.loop b (r.st.values r.out)) else s3

/-- BLOCK_RELEASE: the block's next release, once its instant has come and its Spindle serves it. -/
def doBlockRelease (b : Fin 512) (s : State) : State :=
  match (s.loopB b).next with
  | none => s
  | some t =>
    if s.tim.now < t || !s.loopTurn b t || s.loopPeriod b == 0 then s
    else
      let n := (s.tim.now - t) / s.loopPeriod b
      if s.gateHolds 2 then s.wakeFor 2
      else
      let s1 := s.setLoopB b { s.loopB b with next := some (t + (n + 1) * s.loopPeriod b) }
      ((s1.wakeFor 2).spnTwin.skipLoops b n).releaseLoop b

/-- LOOP_VALUES_RECEIVE: the actor's values of a block for its next release. -/
def doLoopValuesReceive (b : Fin 512) (v : LoopValues) (s : State) : State :=
  if s.loopFollow then { s with spn := { s.spn with rx := tabPut none s.spn.rx b (some v) } } else s

def execBlockRelease (b : Fin 512) (s : State) : Host.Outcome State Fault Refusal := .next (s.awake (doBlockRelease b))
def execLoopValuesReceive (b : Fin 512) (v : LoopValues) (s : State) : Host.Outcome State Fault Refusal :=
  .next (s.awake (doLoopValuesReceive b v))

end Sys2Proof.Machine
end

