-- ==== Sys2Proof/Machine/Peal.lean ====
section
/-! DEFINITION. Controlled closing (R314–R317) and the occurrences of the Peal table (R308–R311), with the steps WATCHMAN_FEED_SAMPLE,
CLOSE_COMMAND, CLOSE_WINDOW_END, CLOSE_PULSE_END and the Peal actions that need no frame. -/

namespace Sys2Proof.Machine

/-! ### Close requests (R314, R315) -/

/-- A bay's close in progress. -/
def State.close (s : State) (b : Nat) : Option CloseSt := tabGet none s.peal.close b

def State.setClose (s : State) (b : Nat) (c : Option CloseSt) : State :=
  { s with peal := { s.peal with close := tabPut none s.peal.close b c } }

def State.ccState (s : State) (b : Nat) : Nat := s.fld (A.PEL_CC_STAT b) F.PEL_CC_STAT_STATE
def State.ccGout (s : State) (b : Nat) : Nat := s.fld (A.PEL_CC_CFG b) F.PEL_CC_CFG_GOUT
/-- The pulse of a close in ns, as set at its request. -/
def CloseSt.pulse (c : CloseSt) : Nat := fldGet F.PEL_CC_CFG_PULSE c.cfg * 10000000

/-- Bit number of REJECTS, LEARNS and the rest is given by their fields; a PEL_CNT counter goes up (R323, R324). -/
def State.pelCount (s : State) (late : Bool) : State :=
  s.incSat A.PEL_CNT (if late then F.PEL_CNT_LATE else F.PEL_CNT_REFUSED) Ev.PEL_CNT_SAT noIndex

/-- The reference phasor and its instant in device time, where its full-cycle window is VALID (R315). -/
def State.closeRef (s : State) (b : Nat) : Option (Cx × (Rat × Rat)) :=
  let p := s.bayProt b
  match p.hist.head?, s.kindPhasor b (4 + s.fld (A.PEL_CC_CFG b) F.PEL_CC_CFG_REF) p.hist with
  | some fr, some v => some (v, ((s.devTime (frameEnd fr) : Rat), fr.ft))
  | _, _ => none

/-- The temperature of TSRC in °C, where it is good; kind 2 counts 0.1 °C (R315). -/
def State.closeTemp (s : State) (b : Nat) : Option Rat :=
  let src := s.fld (A.PEL_CC_TSRC b) F.PEL_CC_TSRC_SRC
  match src / 4096 with
  | 2 => let x := s.hankSrc (src % 4096); if x.bad then none else some (x.v / 10)
  | 3 => let x := s.gooseSrc (src % 4096); if x.bad || !x.num then none else some x.v
  | _ => none

/-- T_est in ms, and whether the temperature term is omitted. -/
def State.closeEst (s : State) (b : Nat) : Rat × Bool :=
  let temp := s.closeTemp b
  let idle : Rat := match tabGet none s.peal.cbLast b with
    | some t => (s.tim.now - t : Nat)
    | none => (Config.freeNat s.freeSeq : Nat)
  let k := ratMax 1 (idle / 3600000000000)
  let t := match temp with
    | some x => s.fpReg (A.PEL_CC_KT b) * (x - s.fpReg (A.PEL_CC_TREF b))
    | none => 0
  (s.fpReg (A.PEL_CC_TLRN b) + t + s.fpReg (A.PEL_CC_KIDLE b) * (realLog k / realLog 10), temp.isNone)

/-- Part of a turn from `x` forward to a whole number. -/
def turnLeft (x : Rat) : Rat := (x.ceil : Rat) - x

/-- t_tgt: the first instant at or after `t0` at which φ equals THETA (R315), ns. -/
def State.closeTarget (s : State) (b : Nat) (v : Cx) (tn ft : Rat) (t0 : Rat) : Nat :=
  let phi := cxArg v + ft * (t0 - tn) / 1000000000
  let theta : Rat := (s.fld (A.PEL_CC_CFG b) F.PEL_CC_CFG_THETA : Rat) / 360
  (ratRound (t0 + turnLeft (phi - theta) / ft * 1000000000)).toNat

/-- Drive the close output for a pulse of `ns`. -/
def State.closeDrive (s : State) (b : Nat) (c : CloseSt) (ns : Nat) : State :=
  (s.setGout (s.ccGout b) true).setClose b (some { c with driven := true, pulseEnd := s.tim.up + ns })

def closeInit (t : Nat) (cfg : Word) : CloseSt :=
  { cfg := cfg, tReq := t, tCmd := 0, tEst := 0, tTgt := 0, pulseEnd := 0, winEnd := 0, onset := none, fall := none, driven := false }

/-- A refused request: its cause, the event, and with FALLBACK the pin at once. -/
def State.closeRefuse (s : State) (b cause t : Nat) : State :=
  let s1 := (s.setFld (A.PEL_CC_STAT b) F.PEL_CC_STAT_CAUSE cause).raise Ev.PEL_REFUSED (0x2000 + b)
  if s1.bit (A.PEL_CC_CFG b) 7 then
    let s2 := if s1.ccState b = 0 then s1.setFld (A.PEL_CC_STAT b) F.PEL_CC_STAT_STATE 3 else s1
    let c := closeInit t (s2.reg (A.PEL_CC_CFG b))
    s2.closeDrive b ((s2.close b).getD c) c.pulse
  else s1

/-- A close request of bay `b` at time `t` (R314): refused with its cause, or t_tgt and t_cmd are computed (R315). The settings hold for the
close (R435). -/
def State.closeRequest (s : State) (b t : Nat) : State :=
  if !s.bit (A.PEL_CC_CFG b) 31 then s
  else if s.ccState b ≠ 0 then s.closeRefuse b 3 t
  else match s.closeRef b with
    | none => s.closeRefuse b 1 t
    | some (v, (tn, ft)) =>
      if cxAbs v < 1 / 2 * s.vph b then s.closeRefuse b 1 t
      else if (s.bayChain b).src ≠ 0 then s.closeRefuse b 2 t
      else
        let (est, notemp) := s.closeEst b
        let tgt := s.closeTarget b v tn ft ((t : Rat) + (est + 2) * 1000000)
        let cmd := (ratRound ((tgt : Rat) - est * 1000000)).toNat
        let s1 := ((s.setFld (A.PEL_CC_STAT b) F.PEL_CC_STAT_STATE 1).setFld (A.PEL_CC_STAT b) F.PEL_CC_STAT_NOTEMP notemp.toNat).setReg64
          (A.PEL_CC_TCMD_LO b) (A.PEL_CC_TCMD_HI b) cmd
        { s1 with freeSeq := s1.freeSeq + 1 }.setClose b (some { closeInit t (s1.reg (A.PEL_CC_CFG b)) with tCmd := cmd, tEst := est, tTgt := tgt })

/-- A step of device time cancels the pending closes (R317). -/
def State.closeCancel (s : State) : State :=
  s.forEach (List.range 8) (fun b s =>
    if s.ccState b = 1 then
      let s1 := (s.setFld (A.PEL_CC_STAT b) F.PEL_CC_STAT_STATE 0).setFld (A.PEL_CC_STAT b) F.PEL_CC_STAT_CAUSE 5
      match s1.close b with
      | some c => if c.driven then (s1.setFld (A.PEL_CC_STAT b) F.PEL_CC_STAT_STATE 3) else s1.setClose b none
      | none => s1
    else s)

/-! ### Steps of a close (R314, R316) -/

/-- CLOSE_COMMAND: at t_cmd the pin asserts and the window opens. -/
def doCloseCommand (bay : Fin 8) (s : State) : State :=
  match s.close bay with
  | none => s
  | some c =>
    if s.ccState bay ≠ 1 || s.tim.now < c.tCmd then s
    else
      let win := nsOf ((s.fpReg (A.PEL_CC_TNOM bay) + 10) / 1000)
      (s.setFld (A.PEL_CC_STAT bay) F.PEL_CC_STAT_STATE 2).closeDrive bay { c with winEnd := s.tim.up + win } c.pulse

/-- The current onset of a close: the first feed sample at or above 0.05 In on any phase (R316). -/
def State.closeOnset (s : State) (b phase x : Nat) : State :=
  match s.close b with
  | none => s
  | some c =>
    if s.ccState b = 2 ∧ c.onset = none ∧ s.tim.up ≤ c.winEnd ∧ 1 / 20 * s.inom b ≤ (x : Rat) * s.kindScale b phase then
      s.setClose b (some { c with onset := some s.tim.now })
    else s

/-- The newest available conversion of the default Reel on position `p`: slots 8 j + p (R36, R47). -/
def State.defaultNewest (s : State) (p : Nat) : Nat := (s.slotNow - 5 - p) / 8

/-- The ×1 sample of a code of the default Reel on position `p` of slice `k`. -/
def State.defaultSample (s : State) (k p : Nat) (code : Int) : Sample :=
  let c := calLimit (gainFull 0) (codeAtEnd code) (s.calRaw 1 (s.conv k) 0 code)
  let bad := match ainOf k p with
    | some i => s.pathFailed i
    | none => false
  { v := c.v, f := mkFlags (!bad) false c.clipped false false false s.unlocked (s.slicePlaus k) }

/-- Before ACQ_REEL_SWITCH the default Reel feeds the comparators: the codes of two conversions, once both are available. -/
def State.defaultFeed (s : State) (b p : Nat) (codes : List Int) : State :=
  let c := 3 * b + p
  let n := s.defaultNewest p
  if s.fld A.ACQ_STAT F.ACQ_STAT_REEL_SRC != 0 || !s.bit A.PWR_DOMAIN_STAT 1 || codes.length != 2 || Nat.blt n (tabGet 0 s.trip.wmAt c + 2) then s
  else
    { s with trip := { s.trip with wmAt := tabPut 0 s.trip.wmAt c n } }.forEach codes (fun code s => s.feedPush c (s.defaultSample (2 * b) p code))

/-- WATCHMAN_FEED_SAMPLE: a comparator's next sample at 614.4 kS/s, the half-band over its lane's samples (R114); `codes` are those of the
default Reel before the switch, and count for nothing after it. -/
def doWatchmanFeedSample (bay : Fin 8) (phase : Fin 3) (codes : List Int) (s : State) : State :=
  let c := 3 * bay.val + phase.val
  let s1 := s.defaultFeed bay phase codes
  let n := tabGet 0 s1.trip.wmNew c
  if n < 2 then s1
  else
    let y := s1.feedOut c
    let s2 : State := { s1 with trip := { s1.trip with wmNew := tabPut 0 s1.trip.wmNew c (n - 2) } }
    (State.feedSample bay phase y.1 y.2 (s2.arcTake bay)).closeOnset bay phase y.1

/-- T_meas in ms: the onset where the bay has a feed and one came, else the fall of CBBIN. -/
def CloseSt.tmeas (c : CloseSt) : Option Rat :=
  (match c.onset with
   | some t => some t
   | none => c.fall).map (fun t => ((t : Rat) - c.tCmd) / 1000000)

/-- The adaptation of TLRN by one measurement (R316). -/
def State.closeLearn (s : State) (b : Nat) (c : CloseSt) : State :=
  let reject (s : State) : State := s.incSat (A.PEL_CC_STAT b) F.PEL_CC_STAT_REJECTS Ev.PEL_CNT_SAT noIndex
  match c.tmeas with
  | none => reject s
  | some m =>
    let s0 := s.setReg (A.PEL_CC_LAST b) (peWord m)
    let lrn := s.fpReg (A.PEL_CC_TLRN b)
    let d := m - (c.tEst - lrn) - lrn
    if 3 < ratMax d (-d) then reject s0
    else if !bitGet c.cfg 30 then s0
    else
      let nom := s.fpReg (A.PEL_CC_TNOM b)
      let v := lrn + d / 2 ^ fldGet F.PEL_CC_CFG_W c.cfg
      let l := ratClamp (nom - 2) (nom + 2) v
      ((s0.setReg (A.PEL_CC_TLRN b) (peWord l)).setFld (A.PEL_CC_STAT b) F.PEL_CC_STAT_LIMIT (decide (l ≠ v)).toNat).incWrap
        (A.PEL_CC_STAT b) F.PEL_CC_STAT_LEARNS

/-- CLOSE_WINDOW_END: the measurement is taken, TLRN adapts. -/
def doCloseWindowEnd (bay : Fin 8) (s : State) : State :=
  match s.close bay with
  | none => s
  | some c =>
    if s.ccState bay ≠ 2 || s.tim.up < c.winEnd then s
    else
      let s1 := (s.closeLearn bay c).setFld (A.PEL_CC_STAT bay) F.PEL_CC_STAT_STATE (if c.driven then 3 else 0)
      (if c.driven then s1 else s1.setClose bay none).raise Ev.PEL_CC_DONE bay

/-- CLOSE_PULSE_END: the pin releases. -/
def doClosePulseEnd (bay : Fin 8) (s : State) : State :=
  match s.close bay with
  | none => s
  | some c =>
    if !c.driven || s.tim.up < c.pulseEnd then s
    else
      let s1 := (s.setGout (s.ccGout bay) false).setClose bay (some { c with driven := false })
      if s1.ccState bay = 3 then (s1.setFld (A.PEL_CC_STAT bay) F.PEL_CC_STAT_STATE 0).setClose bay none else s1

/-! ### Occurrences (R308, R309, R311) -/

def State.pealOn (s : State) (e : Nat) : Bool := s.fld (A.PEL_ST e) F.PEL_ST_STATE == 1
def State.pealT (s : State) (e : Nat) : Nat := s.reg64 (A.PEL_T_LO e) (A.PEL_T_HI e)
/-- PER in ns; 0 for a one-shot entry. -/
def State.pealPer (s : State) (e : Nat) : Nat :=
  (s.reg (A.PEL_PER e)).toNat * (if s.bit (A.PEL_CTL e) 29 then 1000000 else 1000)
/-- Occurrences of an entry; 0 for ever. -/
def State.pealRepeat (s : State) (e : Nat) : Nat := if s.pealPer e = 0 then 1 else s.fld (A.PEL_CTL e) F.PEL_CTL_REPEAT
def State.pealNext (s : State) (e : Nat) : Nat := tabGet 0 s.peal.next e
/-- Time of occurrence i. -/
def State.pealAt (s : State) (e i : Nat) : Nat := s.pealT e + i * s.pealPer e
def State.pealAction (s : State) (e : Nat) : Nat := s.fld (A.PEL_CTL e) F.PEL_CTL_ACTION

/-- Armed entries counted, and an entry's state with what remains (R323). -/
def State.pealPut (s : State) (e st i : Nat) : State :=
  let r := s.pealRepeat e
  let was := s.pealOn e
  let s1 := (s.setFld (A.PEL_ST e) F.PEL_ST_STATE st).setFld (A.PEL_ST e) F.PEL_ST_REMAIN (if s.fld (A.PEL_CTL e) F.PEL_CTL_REPEAT = 0 ∧
    s.pealPer e ≠ 0 then 0 else r - i)
  let s2 := { s1 with peal := { s1.peal with
    next := tabPut 0 s1.peal.next e i
    slots := if st = 1 then s1.peal.slots else s1.peal.slots.filter (fun x => x.1 != e) } }
  let n := s2.fld A.PEL_STAT F.PEL_STAT_ARMED
  if decide (st = 1) = was then s2 else s2.setFld A.PEL_STAT F.PEL_STAT_ARMED (if was then n - 1 else n + 1)

/-- Advance to occurrence `i`: done once all have come. -/
def State.pealGo (s : State) (e i : Nat) : State :=
  s.pealPut e (if s.pealRepeat e ≠ 0 ∧ s.pealRepeat e ≤ i then 2 else 1) i

/-- The first occurrence from `i` on that is not before `t`. -/
def State.pealFirst (s : State) (e i t : Nat) : Nat :=
  if s.pealPer e = 0 then (if s.pealT e < t then max i 1 else i)
  else max i ((t - s.pealT e + s.pealPer e - 1) / s.pealPer e)

/-- An entry arms at `now` (R309): a periodic one at its first occurrence not in the past; a one-shot that is past launches late or is
skipped. -/
def State.pealArm (s : State) (e : Nat) : State :=
  let now := s.tim.now
  if s.pealPer e = 0 then
    if s.pealT e < now ∧ s.bit (A.PEL_CTL e) 30 then s.pealGo e 1
    else { (s.pealGo e 0) with peal := { (s.pealGo e 0).peal with late := tabPut 0 (s.pealGo e 0).peal.late e now } }
  else s.pealGo e (s.pealFirst e 0 now)

/-- EN changes at an overlay boundary, or the table arms at ACQ_REEL_SWITCH. -/
def State.pealEnable (s : State) (e : Nat) : State :=
  if s.bit (A.PEL_CTL e) 31 then (if s.fld (A.PEL_ST e) F.PEL_ST_STATE = 0 then s.pealArm e else s)
  else if s.fld (A.PEL_ST e) F.PEL_ST_STATE = 0 then s
  else s.pealPut e 0 (s.pealNext e)

/-- A forward step passes occurrences over: they launch late, or are skipped (R309). -/
def State.pealStep (s : State) : State :=
  s.forEach (List.range 1024) (fun e s =>
    if !s.pealOn e then s
    else if s.bit (A.PEL_CTL e) 30 then s.pealGo e (s.pealFirst e (s.pealNext e) s.tim.now)
    else { s with peal := { s.peal with late := tabMod 0 s.peal.late e (max s.tim.now) } })

/-- Lead of the frame actions 6 and 7 in ns (R312). -/
def State.pealLead (s : State) (e : Nat) : Nat :=
  if s.pealAction e = 6 ∨ s.pealAction e = 7 then (s.reg (A.PEL_P1 e)).toNat % 65536 * 100000 else 0

/-- No armed entry of a lower number has its next occurrence at the same instant: launches of one instant go in ascending number (R318). -/
def State.pealTurn (s : State) (e : Nat) : Bool :=
  (List.range e).all (fun f => !(s.pealOn f && Nat.ble 1 (s.pealAction f) && Nat.ble (s.pealAction f) 8 &&
    s.pealAt f (s.pealNext f) == s.pealAt e (s.pealNext e)))

/-- The next occurrence of an entry is among the next 16 of the table (R311). -/
def State.pealSoon (s : State) (e : Nat) : Bool :=
  let t := s.pealAt e (s.pealNext e)
  Nat.blt ((List.range 1024).countP (fun f => s.pealOn f && f != e &&
    (let u := s.pealAt f (s.pealNext f); Nat.blt u t || (u == t && Nat.blt f e)))) 16

/-- The present occurrence of an entry with this action, once due and its turn: its T, and the state with the occurrence taken, counted and
marked, and the cluster woken (R15). -/
def State.pealTake (s : State) (e action : Nat) : Option (Nat × State) :=
  let i := s.pealNext e
  let t := s.pealAt e i
  if s.pealOn e && s.pealAction e == action && Nat.ble t (s.tim.now + s.pealLead e) && s.pealTurn e then
    let late := Nat.blt t (tabGet 0 s.peal.late e)
    let slot := s.peal.slots.any (fun x => x.1 == e && x.2.1 == i)
    let s1 := if slot then { s with peal := { s.peal with slots := s.peal.slots.filter (fun x => x.1 != e) } }
      else if late then s else s.incSat A.PEL_STAT F.PEL_STAT_CONGEST Ev.PEL_CNT_SAT noIndex
    let s2 := (s1.setBit (A.PEL_ST e) 29 late).incWrap (A.PEL_ECNT e) ⟨31, 0⟩
    let s3 := if late then (s2.pelCount true).raise Ev.PEL_LATE e else s2
    some (t, (s3.wakeFor 3).pealGo e (i + 1))
  else none

/-- PEAL_SLOT_LOAD: an entry's next occurrence, once it is among the next 16 of the table, enters the launch slots; one that is no longer
among them leaves its slot. -/
def doPealSlotLoad (e : Fin 1024) (s : State) : State :=
  let i := s.pealNext e
  let held := s.peal.slots.filter (fun x => s.pealSoon x.1)
  if !s.pealOn e || s.peal.slots.any (fun x => x.1 == e.val) || !s.pealSoon e || Nat.ble 16 held.length || Nat.ble (s.pealAt e i) s.tim.now then s
  else { s with peal := { s.peal with slots := held ++ [(e.val, i, s.pealAt e i)] } }

/-- An action at its occurrence. -/
def State.pealAct (s : State) (e action : Nat) (f : Nat → State → State) : State :=
  match s.pealTake e action with
  | some (t, s1) => f t s1
  | none => s

/-- PEAL_SET_GOUT: the pin takes the level. -/
def doPealSetGout (e : Fin 1024) (s : State) : State :=
  s.pealAct e 1 (fun _ s => s.setGout ((s.reg (A.PEL_P0 e)).toNat % 8) (s.bit (A.PEL_P0 e) 8))

/-- PEAL_OVERLAY: an activation at T, or at the launch when that is late (R433). -/
def doPealOverlay (e : Fin 1024) (s : State) : State :=
  s.pealAct e 2 (fun t s => (s.ovlRequest ((s.reg (A.PEL_P0 e)).toNat % 16) 3 (if s.bit (A.PEL_ST e) 29 then s.tim.now else t)).2)

/-- PEAL_CAPTURE: a capture trigger at T. -/
def doPealCapture (e : Fin 1024) (s : State) : State :=
  s.pealAct e 3 (fun t s => s.captureTrigger ((s.reg (A.PEL_P0 e)).toNat % 16) t { kind := 3, index := 0 })

/-- PEAL_PROFILE_START: a new target with its origin at T, refused in MAN, TRACK and OFF (R310). -/
def doPealProfileStart (e : Fin 1024) (s : State) : State :=
  s.pealAct e 4 (fun t s =>
    let b := (s.reg (A.PEL_P0 e)).toNat % 512
    let m := s.spnMode b
    if m = 0 ∨ m = 3 ∨ m = 5 then (s.pelCount false).raise Ev.PEL_REFUSED e
    else s.setLoopB b { s.loopB b with target := (s.reg (A.PEL_P1 e)).toInt, profAt := some t })

/-- PEAL_EVENT_TASK: a release of the task that declares this entry (R267, R310). -/
def doPealEventTask (e : Fin 1024) (s : State) : State :=
  s.pealAct e 5 (fun _ s => s.releaseEvent ((s.reg (A.PEL_P0 e)).toNat / 16 % 4) (16 + (s.reg (A.PEL_P0 e)).toNat % 16))

/-- PEAL_CONTROLLED_CLOSE: a close request at T. -/
def doPealControlledClose (e : Fin 1024) (s : State) : State :=
  s.pealAct e 8 (fun t s => s.closeRequest ((s.reg (A.PEL_P0 e)).toNat % 8) t)

def execWatchmanFeedSample (bay : Fin 8) (phase : Fin 3) (codes : List Int) (_ : Computed) (s : State) :
    Host.Outcome State Fault Refusal := .next (doWatchmanFeedSample bay phase codes s)
def execCloseCommand (bay : Fin 8) (s : State) : Host.Outcome State Fault Refusal := .next (s.awake (doCloseCommand bay))
def execCloseWindowEnd (bay : Fin 8) (s : State) : Host.Outcome State Fault Refusal := .next (doCloseWindowEnd bay s)
def execClosePulseEnd (bay : Fin 8) (s : State) : Host.Outcome State Fault Refusal := .next (doClosePulseEnd bay s)
def execPealSlotLoad (e : Fin 1024) (s : State) : Host.Outcome State Fault Refusal := .next (s.awake (doPealSlotLoad e))
def execPealSetGout (e : Fin 1024) (s : State) : Host.Outcome State Fault Refusal := .next (s.awake (doPealSetGout e))
def execPealOverlay (e : Fin 1024) (s : State) : Host.Outcome State Fault Refusal := .next (s.awake (doPealOverlay e))
def execPealCapture (e : Fin 1024) (s : State) : Host.Outcome State Fault Refusal := .next (s.awake (doPealCapture e))
def execPealProfileStart (e : Fin 1024) (s : State) : Host.Outcome State Fault Refusal := .next (s.awake (doPealProfileStart e))
def execPealEventTask (e : Fin 1024) (s : State) : Host.Outcome State Fault Refusal := .next (s.awake (doPealEventTask e))
def execPealControlledClose (e : Fin 1024) (s : State) : Host.Outcome State Fault Refusal := .next (s.awake (doPealControlledClose e))

end Sys2Proof.Machine
end

