-- ==== Sys2Proof/Machine/HeddleTasks.lean ====
section
/-! DEFINITION. Executions: releases (R247–R252), the input latch (R224, R253), END with the output write (R254, R314), the actions of
T_apply (R256–R264), and one instruction by its opcode, for LOGIC_STEP (R259). -/

namespace Sys2Proof.Machine

/-! ### The input latch (R224, R253, R256) -/

/-- Write `n` octets of a value into an image. -/
def imgPut (img : Tab Byte) (o : Nat) : Nat → Nat → Tab Byte
  | 0, _ => img
  | n + 1, v => imgPut (tabPut 0 img o (BitVec.ofNat 8 v)) (o + 1) n (v / 256)

/-- I octets 0x0090–0x0093. -/
def State.stateWord (s : State) : Nat :=
  s.fld A.PRT_STAT F.PRT_STAT_ARMED + s.fld A.CFG_OVL F.CFG_OVL_INFORCE % 16 * 2 ^ 8 + s.role % 8 * 2 ^ 12 +
    s.fld A.HDL_STAT F.HDL_STAT_FORCE * 2 ^ 15

/-- The input image as it stands, without forces. -/
def State.rawImage (s : State) : Tab Byte :=
  let live := (s.mem.filter (fun e => Nat.ble iBase e.1 && Nat.blt e.1 (iBase + iLen))).map (fun e => (e.1 - iBase, e.2))
  let i1 := imgPut (imgPut (imgPut live 0 4 (s.reg A.LIO_BIN_STATE).toNat) 4 4
    (s.fld A.LIO_TOUT ⟨31, 16⟩ + s.fld A.LIO_TOUT F.LIO_TOUT_OUT * 2 ^ 16)) 8 4 (s.reg A.PRT_TCH_STATE).toNat
  let i2 := imgPut i1 0x0C 1 ((s.reg A.PRT_WM_STATE).toNat / 2 ^ 24 % 16 + (s.reg A.PRT_LIGHT).toNat % 16 * 16)
  let i3 := imgPut (imgPut (imgPut i2 0x90 4 s.stateWord) 0xA0 8 (s.tim.logic / 1000000)) 0xA8 8 s.tim.now
  (List.range 64).foldl (fun img m =>
    if s.modState m = 0 then img
    else imgPut img (0x200 + 8 * m + 4) 4 (min ((s.tim.now - (s.hnkMod m).inTime) / 1000) 0xFFFFFFFF)) i3

/-- Bit `i` of an image. -/
def imgBit (img : Tab Byte) (i : Nat) : Bool := (tabGet 0 img (i / 8)).getLsbD (i % 8)

/-- Forced I elements replace the image; their shadows take the unforced input. -/
def State.forceImage (s : State) (img : Tab Byte) : Tab Byte × State :=
  (s.forces 1).foldl (fun p e =>
    let b := forceBits (s.reg (A.HDL_FRC_CFG e))
    let shd := (List.range b.2).foldl (fun a i => a + (if imgBit img (b.1 + i) then 2 ^ i else 0)) 0
    let img1 := (List.range b.2).foldl (fun m i =>
      let o := (b.1 + i) / 8
      tabPut 0 m o (maskByte (bitMask (b.1 + i)) (if bitGet (s.reg (A.HDL_FRC_VAL e)) i then 0xFF else 0) (tabGet 0 m o))) p.1
    (img1, p.2.setReg (A.HDL_FRC_SHD e) (BitVec.ofNat 32 shd))) (img, s)

/-! ### Starting an execution (R248, R251–R253) -/

/-- The next task of a free-run cycle as a release. -/
def State.cycleRel (s : State) (h : Nat) : Option Rel :=
  let x := s.heddle h
  if x.inCycle && x.run.isNone && x.stack.isEmpty then
    x.cycQ.head?.map (fun t => { task := t, at_ := x.cycStart.getD s.tim.now })
  else none

/-- What Heddle `h` would start next: the best release, or the next task of its free-run cycle. -/
def State.startNext (s : State) (h : Nat) : Option Rel :=
  match s.bestRel h, s.cycleRel h with
  | some r, some c =>
    if s.fld (A.HDL_TCFG h c.task) F.HDL_TCFG_PRIO < s.fld (A.HDL_TCFG h r.task) F.HDL_TCFG_PRIO then some c else some r
  | some r, none => some r
  | none, c => c

/-- A release may start: the Heddle is free, or runs a task of lower priority. -/
def State.mayStartRel (s : State) (h : Nat) (r : Rel) : Bool :=
  s.logicMode == 0 &&
    match (s.heddle h).run, (s.heddle h).stack with
    | none, [] => true
    | none, c :: _ => Nat.blt (s.fld (A.HDL_TCFG h r.task) F.HDL_TCFG_PRIO) c.prio
    | some c, _ => Nat.blt (s.fld (A.HDL_TCFG h r.task) F.HDL_TCFG_PRIO) c.prio

/-- EXECUTION_START: the first instruction is dispatched and the inputs are latched; a lower task is pre-empted. -/
def doExecutionStart (h : Fin 4) (s : State) : State :=
  match s.startNext h with
  | none => s
  | some r =>
    if !s.mayStartRel h r || s.gateHolds 2 then s
    else
      let (img, s1) := (s.wakeFor 2).forceImage s.rawImage
      let e := tabGet taskEntryInit s1.hdl.entries (32 * h.val + r.task)
      let c := ctxStart r.task (s1.fld (A.HDL_TCFG h r.task) F.HDL_TCFG_PRIO) e.start (s1.tim.logic / 1000000) r.at_ s1.tim.now e.limit img
      let x := s1.heddle h
      let stack := match x.run with
        | some p => p :: x.stack
        | none => x.stack
      let cyc := (s1.cycleRel h).any (fun q => q == r) && !x.rels.contains r
      let s2 := s1.setHeddle h { x with run := some c, stack := stack, rels := x.rels.filter (· != r),
                                        cycQ := if cyc then x.cycQ.drop 1 else x.cycQ }
      (s2.setFld (A.HDL_TEXE h r.task) F.HDL_TEXE_JITTER (min ((s2.tim.now - r.at_) / 1000) 0xFFFF)).breakCheck h

/-- A periodic task's period and phase in ns. -/
def State.taskPeriod (s : State) (h t : Nat) : Nat := s.fld (A.HDL_TCFG h t) F.HDL_TCFG_PERIOD * 1000000
def State.taskPhase (s : State) (h t : Nat) : Nat := s.fld (A.HDL_TPHS h t) ⟨15, 0⟩ * 1000000

/-- A task is released or running. -/
def State.taskBusy (s : State) (h t : Nat) : Bool :=
  let x := s.heddle h
  x.rels.any (fun r => r.task == t) || (x.run.map (fun c => c.task == t)).getD false || x.stack.any (fun c => c.task == t)

/-- A periodic release falls due (R249): skipped and counted while the task is busy or the logic is held, none outside RUN. -/
def State.periodicDue (s : State) (h t at_ : Nat) : State :=
  if s.logicMode = 2 || (s.logicMode == 0 && s.taskBusy h t) then (s.countSkip h t).raise Ev.HDL_OVERRUN (32 * h + t)
  else if s.logicMode ≠ 0 then s
  else s.postRelease h { task := t, at_ := at_ }

/-- PERIODIC_RELEASE: the next release of task `t` of Heddle `h` in the tasked model, with any that fell due since. -/
def doPeriodicRelease (h : Fin 4) (t : Fin 16) (s : State) : State :=
  let p := s.taskPeriod h t
  match tabGet none (s.heddle h).lastRel t with
  | none => s
  | some u =>
    if !s.bit (A.HDL_TCFG h t) 31 || s.bit A.HDL_STAT 29 || p == 0 || s.tim.now < u then s
    else
      let n := (s.tim.now - u) / p
      let s1 := s.setHeddle h { s.heddle h with lastRel := tabPut none (s.heddle h).lastRel t (some (u + (n + 1) * p)) }
      s1.forEach (List.range (n + 1)) (fun k s => s.periodicDue h t (u + k * p))

/-- EVENT_RELEASE: an event release raised by a trip channel's assertion is served. -/
def doEventRelease (h : Fin 4) (t : Fin 16) (s : State) : State :=
  let k := 32 * h.val + 16 + t.val
  if s.hdl.evReq.contains k then
    { s with hdl := { s.hdl with evReq := s.hdl.evReq.erase k } }.releaseEvent h (16 + t)
  else s

/-- Declared periodic tasks of a Heddle in ascending priority number, then task number. -/
def State.cycleTasks (s : State) (h : Nat) : List Nat :=
  (List.range 16).flatMap (fun p =>
    (List.range 16).filter (fun t => s.bit (A.HDL_TCFG h t) 31 && s.fld (A.HDL_TCFG h t) F.HDL_TCFG_PRIO == p))

/-- FREE_RUN_CYCLE_START: at the later of the last cycle's end and 250 µs after its start (R251); not while idling (R252). -/
def doFreeRunCycleStart (h : Fin 4) (s : State) : State :=
  let x := s.heddle h
  let early := (x.cycStart.map (fun t => decide (s.tim.now < t + 250000))).getD false
  if !s.bit A.HDL_STAT 29 || s.logicMode != 0 || x.inCycle || x.idleUntil.isSome || early then s
  else ((s.wakeFor 2).setHeddle h { x with cycStart := some s.tim.now, inCycle := true, cycQ := s.cycleTasks h }).cycleEnd h

/-- BUDGET_IDLE_END: the idle BUDGET has passed. -/
def doBudgetIdleEnd (h : Fin 4) (s : State) : State :=
  match (s.heddle h).idleUntil with
  | some t => if s.tim.now < t then s else s.setHeddle h { s.heddle h with idleUntil := none }
  | none => s

/-! ### END (R235, R254, R258, R314) -/

/-- Rising Q bits of controlled-closing outputs make close requests. -/
def State.closeEdges (s : State) (before : Byte) : State :=
  s.forEach (List.range 8) (fun b s =>
    let g := s.ccGout b
    if s.bit (A.PEL_CC_CFG b) 31 && !before.getLsbD g && s.qBit (8 * 0x204 + g) then s.closeRequest b s.tim.now else s)

/-- The output write: everything the execution wrote to Q, as one unit. -/
def State.outputWrite (s : State) (h : Nat) (c : Ctx) : State :=
  let drv := s.readsForced h c.task
  let before := s.octet (qBase + 0x204)
  let s1 := s.forEach c.out (fun e s => s.qStore e.1 e.2.1 e.2.2 drv)
  let blocks := c.out.filterMap (fun e => if 0x4000 ≤ e.1 ∧ e.1 < 0x6000 then some ((e.1 - 0x4000) / 16) else none)
  let lt := imgLE c.img 0xA8 8
  let s2 := { s1 with spn := { s1.spn with qLatch := blocks.foldl (fun t b => tabPut 0 t b lt) s1.spn.qLatch } }
  ((s2.ltrqFollow.goutFollow).closeEdges before).arcEval

/-- The counts of a completed execution. -/
def State.execDone (s : State) (h : Nat) (c : Ctx) : State :=
  let s1 := s.incWrap (A.HDL_TCNT h c.task) F.HDL_TCNT_RUNS
  let s2 := s1.setFld (A.HDL_TEXE h c.task) F.HDL_TEXE_EXEC (min ((s1.tim.now - c.release) / 1000) 0xFFFF)
  ((s2.setBit A.HDL_STAT h true).holdDefaults).finishExec h c

/-- END of Heddle `h`'s execution. -/
def State.endNow (s : State) (h : Nat) (c : Ctx) : State :=
  if c.limit < c.count + 1 then s.progFault h c 3 else (s.outputWrite h c).execDone h c

def doEndExec (h : Fin 4) (s : State) : State :=
  match s.nextIns h with
  | none => s
  | some (c, w) => if insOpc w == 0x5B && s.mayRun h c then s.endNow h c else s

/-! ### One instruction by its opcode (R231–R239), for LOGIC_STEP -/

/-- The meaning of an opcode. -/
def semOf (opc aux : Nat) : Option (BitVec 64 → Ctx → State → HRes) :=
  match opc with
  | 0x01 => some semBit
  | 0x09 => some semStb
  | 0x0A => some semSetb
  | 0x0B => some semClrb
  | 0x0C => some semNot
  | 0x0D => some semLbset
  | 0x0E => some semRise
  | 0x0F => some semFall
  | 0x18 => some semGrp
  | 0x1B => some semGend
  | 0x1C => some semClsat
  | 0x20 => some semLda
  | 0x21 => some semSta
  | 0x22 => some semSwap
  | 0x23 => some semLdcw
  | 0x28 => some semAdd
  | 0x29 => some semSub
  | 0x2A => some semMul
  | 0x2B => some semDiv
  | 0x2C => some semMod
  | 0x2D => some semNeg
  | 0x2E => some semAbs
  | 0x2F => some semAddi
  | 0x30 => some semAnd
  | 0x31 => some semOr
  | 0x32 => some semXor
  | 0x33 => some semInv
  | 0x34 => some semShl
  | 0x35 => some semShr
  | 0x36 => some semSar
  | 0x37 => some semRol
  | 0x38 => some semCmp
  | 0x40 => some semFadd
  | 0x41 => some semFsub
  | 0x42 => some semFmul
  | 0x43 => some semFdiv
  | 0x44 => some semFabs
  | 0x45 => some semFneg
  | 0x46 => some semItof
  | 0x47 => some semFtoi
  | 0x50 => some semJmp
  | 0x51 => some semJmpt
  | 0x52 => some semJmpf
  | 0x53 => some semJsat
  | 0x54 => some semLoop
  | 0x58 => some semCall
  | 0x59 => some semCallt
  | 0x5A => some semRet
  | 0x60 => some (semTmr (match aux % 4 with | 0 => Timer.tp | 1 => Timer.ton | 2 => Timer.tof | _ => Timer.tonr))
  | 0x61 => some semTrst
  | 0x64 => some semCtu
  | 0x65 => some semCtd
  | 0x66 => some semCld
  | 0x67 => some semCrst
  | 0x70 => some (semDevice actUrgc)
  | 0x71 => some (semDevice actTrkrst)
  | 0x72 => some (semDevice actTrprst)
  | 0x73 => some (semDevice actCapt)
  | 0x74 => some (semDevice actOvly)
  | 0x75 => some (semDevice actEvtt)
  | 0x7F => some semNop
  | _ => none

/-- Execute one instruction of the Heddle that holds the breakpoint, in HOLD; Q holds its values, so an END
writes no output (R259). -/
def State.logicStepOne (s : State) (h : Nat) : State :=
  match s.nextIns h with
  | none => s
  | some (c, w) =>
    if insOpc w = 0x5B then (if c.limit < c.count + 1 then s.progFault h c 3 else s.execDone h c)
    else match semOf (insOpc w) (insAux w) with
      | some sem => s.runIns h c w sem
      | none => s

/-! ### The actions of T_apply (R256–R264) -/

/-- HDL_STAT.FORCE and FCOUNT follow the table; the first entry and the empty table raise their events (R258). -/
def State.forceSync (s : State) : State :=
  let n := ((List.range 256).filter (fun e => s.bit (A.HDL_FRC_CFG e) 31)).length
  let was := s.fld A.HDL_STAT F.HDL_STAT_FCOUNT
  let s1 := (s.setFld A.HDL_STAT F.HDL_STAT_FCOUNT n).setBit A.HDL_STAT 28 (n != 0)
  if was = 0 ∧ n ≠ 0 then s1.raise Ev.HDL_FORCE_ON noIndex
  else if was ≠ 0 ∧ n = 0 then s1.raise Ev.HDL_FORCE_OFF noIndex else s1

/-- The Almanac note of a force entry (R401). -/
def State.forceNote (s : State) (e : Nat) (released : Bool) : State :=
  s.note 1 [BitVec.ofNat 32 e, BitVec.ofNat 32 (s.fld (A.HDL_FRC_CFG e) F.HDL_FRC_CFG_AREA),
    BitVec.ofNat 32 (s.fld (A.HDL_FRC_CFG e) F.HDL_FRC_CFG_ADDR), s.reg (A.HDL_FRC_VAL e), if released then 1 else 0]

/-- Executions in progress, which latched before T_apply, keep seeing `n` octets as they stand (R264). -/
def State.keepSeen (s : State) (a n : Nat) : State :=
  s.forEach (List.range 4) (fun h s =>
    let x := s.heddle h
    let keep (c : Ctx) : Ctx :=
      (List.range n).foldl (fun c i => { c with kept := tabPut none c.kept (a + i) (some (c.seen s (a + i))) }) c
    s.setHeddle h { x with run := x.run.map keep, stack := x.stack.map keep })

/-- The forced value enters the Q image at once; the shadow holds what stood there. -/
def State.forceQ (s : State) (e : Nat) : State :=
  let b := forceBits (s.reg (A.HDL_FRC_CFG e))
  let shd := (List.range b.2).foldl (fun a i => a + (if s.qBit (b.1 + i) then 2 ^ i else 0)) 0
  let s1 := (s.keepSeen (qBase + b.1 / 8) ((b.2 + 7) / 8)).setReg (A.HDL_FRC_SHD e) (BitVec.ofNat 32 shd)
  let s2 := s1.forEach (List.range b.2) (fun i s =>
    let o := qBase + (b.1 + i) / 8
    s.setOctet o (maskByte (bitMask (b.1 + i)) (if bitGet (s.reg (A.HDL_FRC_VAL e)) i then 0xFF else 0) (s.octet o)))
  s2.ltrqFollow.goutFollow.arcEval

/-- A force entry becomes active. -/
def State.forceOn (s : State) (e area size addr : Nat) (v : Word) : State :=
  let w := 0x80000000 + area % 8 * 2 ^ 28 + size % 4 * 2 ^ 26 + addr % 2 ^ 24
  let s1 := ((s.setReg (A.HDL_FRC_CFG e) (BitVec.ofNat 32 w)).setReg (A.HDL_FRC_VAL e) v).forceNote e false
  (if area = 2 then s1.forceQ e else s1).forceSync

/-- A force entry is released; the element keeps its value until it is next written. -/
def State.forceOff (s : State) (e : Nat) : State :=
  if s.bit (A.HDL_FRC_CFG e) 31 then
    (((s.forceNote e true).setReg (A.HDL_FRC_CFG e) 0).setReg (A.HDL_FRC_VAL e) 0 |>.setReg (A.HDL_FRC_SHD e) 0).forceSync
  else s

/-- Where a tunable lies, and its octets. -/
def tunableSpan (t : Tunable) : Nat × Nat :=
  if t.area = 7 then (kBase + 4 * t.index, 4) else (wBase + 2 * t.index, if t.w32 then 4 else 2)

/-- The memory of a tunable: K constants, W words of 16 or 32 bits. -/
def State.tunableGet (s : State) (t : Tunable) : Word := BitVec.ofNat 32 (s.octetsLE (tunableSpan t).1 (tunableSpan t).2)

def State.tunablePut (s : State) (t : Tunable) (v : Word) : State := s.setOctetsLE (tunableSpan t).1 (tunableSpan t).2 v.toNat

/-- An online change is applied. -/
def State.onlineApply (s : State) (i : Nat) (v : Word) : State :=
  match s.hdl.tunables[i]? with
  | none => s
  | some t =>
    let old := s.tunableGet t
    let s1 := (s.keepSeen (tunableSpan t).1 (tunableSpan t).2).tunablePut t v
    let s2 := { s1 with hdl := { s1.hdl with online := tabPut none s1.hdl.online i (some v) } }
    ((s2.incWrap A.HDL_OLC_CNT F.HDL_OLC_CNT_APPLIED).note 2 [BitVec.ofNat 32 i, old, v]).raise Ev.HDL_ONLINE i

/-- Periodic releases start from the first instant at or after now (R13, R306). -/
def State.heddleArm (s : State) : State :=
  s.forEach (List.range 4) (fun h s =>
    let rel := (List.range 16).foldl (fun t k =>
      if s.bit (A.HDL_TCFG h k) 31 && s.taskPeriod h k != 0 then
        tabPut none t k (some (gridFrom s.tim.now (s.taskPeriod h k) (s.taskPhase h k)))
      else tabPut none t k none) (s.heddle h).lastRel
    s.setHeddle h { s.heddle h with lastRel := rel })

/-- RUN: executions start at the next releases with fresh contexts; a task at a breakpoint is abandoned (R261). -/
def State.runLogic (s : State) : State :=
  if s.logicMode = 0 then s
  else
    let s1 := s.forEach (List.range 4) (fun h s =>
      s.setHeddle h { s.heddle h with run := none, stack := [], rels := [], cycQ := [], inCycle := false, idleUntil := none })
    let s2 := { s1 with hdl := { s1.hdl with brk := none } }
    (((s2.setReg A.HDL_BRK 0).setFld A.HDL_STAT F.HDL_STAT_FIRST 0).setMode 0).heddleArm

/-- One action takes effect. -/
def State.logicAct (s : State) : LogicAct → State
  | .force e area size addr v => s.forceOn e area size addr v
  | .unforce e => s.forceOff e
  | .unforceAll => s.forEach (List.range 256) (fun e s => s.forceOff e)
  | .online i v => s.onlineApply i v
  | .run => s.runLogic
  | .stop => s.stopLogic

/-- The actions whose T_apply has come, in order of acceptance. -/
def State.applyDue (s : State) : State :=
  let due := s.hdl.acts.filter (fun a => Nat.ble a.1 s.tim.now)
  { s with hdl := { s.hdl with acts := s.hdl.acts.filter (fun a => !Nat.ble a.1 s.tim.now) } }.forEach due (fun a s => s.logicAct a.2)

/-- ONLINE_APPLY. -/
def doOnlineApply (s : State) : State := s.applyDue

def execPeriodicRelease (h : Fin 4) (t : Fin 16) (s : State) : Host.Outcome State Fault Refusal := .next (s.awake (doPeriodicRelease h t))
def execEventRelease (h : Fin 4) (t : Fin 16) (s : State) : Host.Outcome State Fault Refusal := .next (s.awake (doEventRelease h t))
def execExecutionStart (h : Fin 4) (s : State) : Host.Outcome State Fault Refusal := .next (s.awake (doExecutionStart h))
def execFreeRunCycleStart (h : Fin 4) (s : State) : Host.Outcome State Fault Refusal := .next (s.awake (doFreeRunCycleStart h))
def execBudgetIdleEnd (h : Fin 4) (s : State) : Host.Outcome State Fault Refusal := .next (s.awake (doBudgetIdleEnd h))
def execOnlineApply (s : State) : Host.Outcome State Fault Refusal := .next (s.awake doOnlineApply)
def execEndExec (h : Fin 4) (s : State) : Host.Outcome State Fault Refusal := .next (s.awake (doEndExec h))

end Sys2Proof.Machine
end

