-- ==== Sys2Proof/Machine/Inputs.lean ====
section
/-! DEFINITION. Binary inputs (R486): BIN_CHANGE, with the channel resets, task releases, overlay requests and closing times that take
their edges (R140, R247, R315, R316, R433). -/

namespace Sys2Proof.Machine

/-- Overlay requests of an edge (R433): for each overlay whose source this is, a rising edge requests it, a falling one with BASEOFF the
base; only after ACQ_REEL_SWITCH (R436). -/
def State.ovlEdge (s : State) (isSrc : Word → Bool) (rise : Bool) (src t : Nat) : State :=
  if s.cfg.switched.isNone then s
  else s.forEach (List.range 8) (fun j s =>
    let w := s.reg (A.CFG_OVLSRC (j + 1))
    if !isSrc w then s
    else if rise then (s.ovlRequest (j + 1) src t).2
    else if bitGet w 30 then (s.ovlRequest 0 src t).2 else s)

/-- Channels that RSTBIN resets at a rising edge (R140). -/
def State.binResets (s : State) (i : Nat) : State :=
  s.forEach (List.range 32) (fun c s =>
    if s.bit (A.PRT_TCH_CFG c) 30 && s.fld (A.PRT_TCH_CFG c) F.PRT_TCH_CFG_RSTBIN == i then (s.channelReset c).2 else s)

/-- Bays whose CBBIN changed: the time of the last change, and the fall while a closing time is measured (R315, R316). -/
def State.binClose (s : State) (i ts : Nat) (rise : Bool) : State :=
  s.forEach (List.range 8) (fun b s =>
    if !s.bit (A.PEL_CC_CFG b) 31 || s.fld (A.PEL_CC_CFG b) F.PEL_CC_CFG_CBBIN != i then s
    else
      let s1 := { s with peal := { s.peal with cbLast := tabPut none s.peal.cbLast b (some ts) } }
      match s1.close b with
      | some c =>
        if !rise && s1.ccState b == 2 && c.fall.isNone && Nat.ble c.tCmd ts then s1.setClose b (some { c with fall := some ts }) else s1
      | none => s1)

/-- BIN_CHANGE: the pin has stood at `level` since the sample at `ts`, for its debounce time. -/
def doBinChange (i : Fin 32) (level : Bool) (ts : Nat) (s : State) : State :=
  let v := xor level (s.bit A.LIO_BIN_POL i)
  if s.bit A.LIO_BIN_STATE i = v ∨ s.tim.now < ts + s.fld (A.LIO_BIN_CFG i) F.LIO_BIN_CFG_DEB * 100000 then s
  else
    let s1 := (s.setBit A.LIO_BIN_STATE i v).setReg64 (A.LIO_BIN_TS_LO i) (A.LIO_BIN_TS_HI i) ts
    let s2 := (s1.binClose i ts v).releaseBySource (if v then 2 else 3) (some i)
    let s3 := s2.ovlEdge (fun w => bitGet w 31 && fldGet F.CFG_OVLSRC_BIN w == i.val) v 4 ts
    ((if v then s3.binResets i else s3).binCapture i v ts).arcEval

def execBinChange (i : Fin 32) (level : Bool) (ts : Nat) (s : State) : Host.Outcome State Fault Refusal := .next (s.awake (doBinChange i level ts))

end Sys2Proof.Machine
end

