-- ==== Sys2Proof/Machine/Net.lean ====
section
/-! DEFINITION. Ports, redundancy, transmission and reception (R325–R330, R378, R381, R382): transmit rings, PRP numbers and duplicates,
supervision frames, and the steps PORT_LINK_CHANGE, PRP_SUPERVISION_SEND, PRP_SUPERVISION_RECEIVE and LANOK_TIMEOUT. -/

namespace Sys2Proof.Machine

/-! ### Ports (R325, R327, R328) -/

/-- Redundancy mode of a pair: 0 PRP, 1 HSR, 2 single, 3 off. -/
def State.pairMode (s : State) (process : Bool) : Nat := s.fld A.NET_CFG (if process then F.NET_CFG_PMODE else F.NET_CFG_SMODE)

/-- First port of a pair. -/
def pairBase (process : Bool) : Nat := if process then 2 else 0

/-- The ply's side: 1 for Ply B. -/
def State.side (s : State) : Nat := s.fld A.PLY_STAT F.PLY_STAT_SIDE

/-- The port is powered in its pair's mode. -/
def State.portPowered (s : State) (p : Nat) : Bool :=
  let m := s.pairMode (p / 2 == 1)
  s.fld A.CFG_STAT F.CFG_STAT_STATE == 1 && (m == 0 || m == 1 || (m == 2 && p % 2 == 0))

/-- Ports the ply uses of a pair: both in SIMPLEX, its side's in a twin. -/
def State.pairPorts (s : State) (process : Bool) : List Nat :=
  [pairBase process, pairBase process + 1].filter (fun p => s.portPowered p && (s.role == 0 || p % 2 == s.side))

/-- The ply transmits: SIMPLEX, ACTOR, and a FOLLOWER that still hears the actor (R370, R384). -/
def State.mayTransmit (s : State) : Bool := s.role == 0 || s.role == 1 || (s.role == 2 && !s.bit A.PLY_STAT 23)

/-- NET_STAT.ACTIVE follows mode and role. -/
def State.netActive (s : State) : State :=
  let ps := s.pairPorts false ++ s.pairPorts true
  s.setFld A.NET_STAT F.NET_STAT_ACTIVE ((List.range 4).foldl (fun a p => a + (if s.mayTransmit && ps.contains p then 2 ^ p else 0)) 0)

/-! ### Transmit rings (R18, R329) -/

/-- A transmit ring. -/
def State.txRing (s : State) (q : Nat) : List TxFrame := tabGet [] s.net.tx q

def State.setTxRing (s : State) (q : Nat) (l : List TxFrame) : State := { s with net := { s.net with tx := tabPut [] s.net.tx q l } }

/-- Hand a frame to a port's ring of its priority; a full low ring drops it, a full high ring is a placement fault. -/
def State.enqueue (s : State) (f : TxFrame) (p : Nat) : State :=
  let q := (if f.high then 8 else 9) + 2 * p
  if (s.txRing q).length < 64 then (s.setTxRing q (s.txRing q ++ [f])).wakeFor 3
  else if f.high then s.raise Ev.SUP_FRAME_SLIP noIndex
  else (s.incSat (A.NET_TXDROP p) F.NET_TXDROP_DROP Ev.NET_CNT_SAT noIndex).raise Ev.NET_TX_OVERFLOW p

/-- A Hank OUTPUT built for an instant that has not come (R350): that instant on `tim.up`. -/
def State.holdUntil (s : State) (f : TxFrame) : Option Nat :=
  match f.body with
  | .hank p => if p.typ = 4 ∧ s.tim.now < p.time.toNat then some (s.tim.up + (p.time.toNat - s.tim.now)) else none
  | _ => none

/-- Hand a frame to the ply's own ports of its pair, or hold it to its instant. -/
def State.enqueuePair (s : State) (f : TxFrame) : State :=
  match s.holdUntil f with
  | some t => { s with net := { s.net with held := s.net.held ++ [(t, f)] } }
  | none => s.forEach (s.pairPorts f.process) (fun p s => s.enqueue f p)

/-- Pair index of PRP numbers and duplicate tables. -/
def pairIx (process : Bool) : Nat := if process then 1 else 0

/-- The actor has a follower that takes its frames (R378). -/
def State.ships (s : State) : Bool :=
  s.role == 1 && s.bit A.PLY_STAT 24 && !s.ply.lost && s.fld A.PLY_PEERST F.PLY_PEERST_PROLE == 2

/-- Send a frame built by this ply: SIMPLEX on its ports, the ACTOR once the follower has it; other roles send nothing of their own. -/
def State.transmit (s : State) (process high : Bool) (body : TxBody) : State :=
  if s.role ≠ 0 ∧ s.role ≠ 1 then s
  else
    let k := pairIx process
    let numbered := Nat.blt (s.pairMode process) 2
    let seq := tabGet 0 s.net.prpSeq k
    let f : TxFrame := { body := body, process := process, prpSeq := if numbered then some (BitVec.ofNat 16 seq) else none, high := high }
    let s1 := if numbered then { s with net := { s.net with prpSeq := tabPut 0 s.net.prpSeq k ((seq + 1) % 65536) } } else s
    if s1.ships then
      { s1 with ply := { s1.ply with unacked := s1.ply.unacked ++ [(f, s1.tim.up)] } }.plySend (.frame f)
    else s1.enqueuePair f

/-- Hank device frames carry the device time of their transmission (R346). -/
def State.stampTx (s : State) (f : TxFrame) : TxFrame :=
  match f.body with
  | .hank p => { f with body := .hank { p with time := BitVec.ofNat 64 s.tim.now } }
  | _ => f

/-- One port in a tick: while it is free and its link is up, the high ring's oldest frame leaves, else the low ring's (R329). A frame
takes at least 672 ns at 1,000 Mb/s. -/
def State.portTick (s : State) (p : Nat) : State :=
  if s.tim.up < tabGet 0 s.net.busy p || !s.bit A.NET_STAT (28 + p) then s
  else
    let go (q : Nat) (f : TxFrame) (l : List TxFrame) : State :=
      let n := 672 + Config.freeNat s.freeSeq % 11712
      let s1 := s.setTxRing q l
      { s1 with freeSeq := s1.freeSeq + 1
                net := { s1.net with busy := tabPut 0 s1.net.busy p (s1.tim.up + n), wire := s1.net.wire ++ [(p, s.stampTx f)] } }
    match s.txRing (8 + 2 * p) with
    | f :: l => go (8 + 2 * p) f l
    | [] =>
      match s.txRing (9 + 2 * p) with
      | f :: l => go (9 + 2 * p) f l
      | [] => s

/-- The transmitters in a tick. -/
def State.netTick (s : State) : State :=
  let due := s.net.held.filter (fun e => Nat.ble e.1 s.tim.up)
  let s1 : State := { s with net := { s.net with wire := [], held := s.net.held.filter (fun e => !Nat.ble e.1 s.tim.up) } }
  let s2 := s1.forEach due (fun e s => s.forEach (s.pairPorts e.2.process) (fun p s => s.enqueue e.2 p))
  s2.forEach [0, 1, 2, 3] (fun p s => s.portTick p)

/-- Transmission stops: rings and frames waiting for the follower are dropped (R375, R384). -/
def State.netStop (s : State) : State :=
  { s with net := { s.net with tx := [], held := [] }, ply := { s.ply with unacked := [] } }.netActive

/-! ### Reception (R326, R327) -/

/-- The ply receives on this port. -/
def State.rxPort (s : State) (p : Nat) : Bool := (s.pairPorts (p / 2 == 1)).contains p && s.role != 7

/-- The pair's MAC. -/
def State.pairMac (s : State) (process : Bool) : BitVec 48 :=
  let hi := s.reg (if process then A.NET_MACP_HI else A.NET_MACS_HI)
  let lo := s.reg (if process then A.NET_MACP_LO else A.NET_MACS_LO)
  BitVec.ofNat 48 (hi.toNat % 65536 * 2 ^ 32 + lo.toNat)

/-- Duplicates of a pair that are not forgotten (400 ms). -/
def State.dupTable (s : State) (k : Nat) : List (BitVec 48 × (BitVec 16 × Nat)) :=
  (tabGet [] s.net.dups k).filter (fun e => Nat.blt s.tim.up (e.2.2 + 400000000))

/-- A frame of this source and number has come over the pair within the forget time. -/
def State.dupSeen (s : State) (k : Nat) (t : PrpTag) : Bool := (s.dupTable k).any (fun e => e.1 == t.mac && e.2.1 == t.seq)

/-- Redundancy of a received frame: the other LAN's identifier is counted, a second copy is discarded, and the device's own frame is removed from
an HSR ring. The Bool tells that the frame goes on. -/
def State.rxPrp (s : State) (p : Nat) (tag : Option PrpTag) : Bool × State :=
  match tag with
  | none => (true, s)
  | some t =>
    if 2 ≤ s.pairMode (p / 2 == 1) then (true, s)
    else
      let s1 := if s.pairMode (p / 2 == 1) = 0 ∧ t.lanB ≠ decide (p % 2 = 1) then
          (s.incSat (A.NET_PRPSTAT p) F.NET_PRPSTAT_WRONGLAN Ev.NET_CNT_SAT noIndex).raiseLim Ev.NET_PRP_WRONGLAN p p
        else s
      let tab := s1.dupTable (p / 2)
      if s.pairMode (p / 2 == 1) = 1 ∧ t.mac = s.pairMac (p / 2 == 1) then (false, s1)
      else if s1.dupSeen (p / 2) t then (false, s1.incWrap (A.NET_PRPSTAT p) F.NET_PRPSTAT_DUP)
      else (true, { s1 with net := { s1.net with dups := tabPut [] s1.net.dups (p / 2) (((t.mac, (t.seq, s1.tim.up)) :: tab).take 1024) } })

/-- A received frame's acceptance: size and CRC, EtherType and destination, then redundancy. -/
def State.rxAccept (s : State) (p : Nat) (lenOk known : Bool) (tag : Option PrpTag) : Bool × State :=
  if !s.rxPort p then (false, s)
  else if !lenOk then (false, s.incSat (A.NET_RXDISC p) F.NET_RXDISC_ERR Ev.NET_CNT_SAT noIndex)
  else if !known then (false, s.incSat (A.NET_RXDISC p) F.NET_RXDISC_TYPE Ev.NET_CNT_SAT noIndex)
  else (s.incWrap (A.NET_RXOK p) ⟨31, 0⟩).rxPrp p tag

/-- A frame that came over an HSR ring leaves by the pair's other port, but for one addressed only to the device, its own and a second copy
(R327). `pre` is the state in which it came. -/
def State.ringForward (s pre : State) (p : Nat) (own lenOk : Bool) (tag : Option PrpTag) : State :=
  let process := p / 2 == 1
  match tag with
  | none => s
  | some t =>
    if !pre.rxPort p || pre.pairMode process != 1 || own || !lenOk || t.mac == pre.pairMac process || pre.dupSeen (p / 2) t then s
    else
      let f : TxFrame := { body := .ring t, process := process, prpSeq := some t.seq, high := true }
      { s with net := { s.net with wire := s.net.wire ++ [(if p % 2 = 0 then p + 1 else p - 1, f)] } }

/-! ### Steps -/

/-- PORT_LINK_CHANGE. -/
def doPortLinkChange (p : Fin 4) (up : Bool) (s : State) : State :=
  if s.bit A.NET_STAT (28 + p.val) = up ∨ (up ∧ !s.portPowered p) then s
  else (s.setBit A.NET_STAT (28 + p.val) up).raise (if up then Ev.NET_LINK_UP else Ev.NET_LINK_DOWN) p

/-- LIFECHK in ns. -/
def State.lifeNs (s : State) : Nat := s.fld A.NET_CFG F.NET_CFG_LIFECHK * 1000000

/-- PRP_SUPERVISION_SEND: every LIFECHK on a pair in PRP mode. -/
def doPrpSupervisionSend (process : Bool) (s : State) : State :=
  let k := pairIx process
  let due := match tabGet none s.net.lifeAt k with
    | none => true
    | some t => Nat.ble (t + s.lifeNs) s.tim.up
  if s.pairMode process ≠ 0 ∨ !due ∨ (s.role ≠ 0 ∧ s.role ≠ 1) ∨ s.cfg.switched = none then s
  else { s with net := { s.net with lifeAt := tabPut none s.net.lifeAt k (some s.tim.up) } }.transmit process false .prpSupervision

/-- Another node's supervision frame is heard on this port. -/
def State.supervisionHeard (s : State) (p : Nat) (tag : PrpTag) : State :=
  let s1 := (s.rxAccept p true true (some tag)).2
  if !s.rxPort p || tag.mac == s.pairMac (p / 2 == 1) then s1
  else { s1 with net := { s1.net with lanSeen := tabPut none s1.net.lanSeen p (some s1.tim.up) } }.setBit A.NET_STAT (20 + p) true

/-- PRP_SUPERVISION_RECEIVE: another node is heard on this port. -/
def doPrpSupervisionReceive (p : Fin 4) (tag : PrpTag) (s : State) : State :=
  (s.supervisionHeard p tag).ringForward s p false true (some tag)

/-- LANOK_TIMEOUT: no supervision from another node within 3 × LIFECHK. -/
def doLanokTimeout (p : Fin 4) (s : State) : State :=
  match tabGet none s.net.lanSeen p with
  | none => s
  | some t =>
    if !s.bit A.NET_STAT (20 + p.val) || s.tim.up < t + 3 * s.lifeNs then s
    else (s.setBit A.NET_STAT (20 + p.val) false).raise Ev.NET_LAN_FAIL p

def execPortLinkChange (p : Fin 4) (up : Bool) (s : State) : Host.Outcome State Fault Refusal := .next (s.awake (doPortLinkChange p up))
def execPrpSupervisionSend (process : Bool) (s : State) : Host.Outcome State Fault Refusal := .next (s.awake (doPrpSupervisionSend process))
def execPrpSupervisionReceive (p : Fin 4) (tag : PrpTag) (s : State) : Host.Outcome State Fault Refusal :=
  .next (s.awake (doPrpSupervisionReceive p tag))
def execLanokTimeout (p : Fin 4) (s : State) : Host.Outcome State Fault Refusal := .next (s.awake (doLanokTimeout p))

end Sys2Proof.Machine
end

