-- ==== Sys2Proof/Machine/Goose.lean ====
section
/-! DEFINITION. GOOSE publication and subscription (R313, R331–R340) with the steps GOOSE_STATE_BUILD, GOOSE_RETRANSMIT,
GOOSE_LAUNCH_TIME_REACHED, PEAL_GOOSE_PUBLISH, GOOSE_RECEIVE, GOOSE_SUB_LOST and LAUNCH_APPLY. -/

namespace Sys2Proof.Machine

/-! ### Members (R332–R334) -/

/-- A quality is its bit string of 13 bits right-aligned (R338): bit n of IEC 61850 stands at bit 12 − n, the two bits of validity at 12 and
11 (01 invalid, 11 questionable). -/
def qGood : BitVec 13 := 0
def qInvalid : BitVec 13 := 0x0800
def qQuestionable : BitVec 13 := 0x1800
def qOldData : BitVec 13 := 0x0020
def qInaccurate : BitVec 13 := 0x0008
def qSubstituted : BitVec 13 := 0x0004
def qTest : BitVec 13 := 0x0002
def qBlocked : BitVec 13 := 0x0001

/-- The loop block whose destination is a publication word (R278). -/
def State.wordLoop (s : State) (w : Nat) : Option Nat :=
  (List.range 512).find? (fun b => s.spnDecl b && s.fld (A.SPN_BDST b) F.SPN_BDST_KIND == 3 && s.fld (A.SPN_BDST b) F.SPN_BDST_INDEX == w)

/-- Quality of a publication word or bit (octets from `o`, `n` of them, word `w`). -/
def State.wordQuality (s : State) (o n w : Nat) : BitVec 13 :=
  if s.qDerived o n then qSubstituted ||| qTest
  else match s.wordLoop w with
    | some b => if s.bit (A.SPN_BSTAT b) 27 then qInvalid else if s.bit (A.SPN_BSTAT b) 26 then qQuestionable ||| qOldData else qGood
    | none => qGood

/-- Present value and quality of a member; kinds 5, 6 and 8 have no value of their own here. -/
def State.memberCore (s : State) (m : PubMember) : List GooseVal × BitVec 13 :=
  let i := m.index
  match m.kind with
  | 0 => ([.bool (s.qBit (8 * 0x1000 + i))], s.wordQuality (0x1000 + i / 8) 1 (i / 32))
  | 1 => ([.int (BitVec.ofNat 32 (s.octetsLE (qBase + 0x1000 + 4 * i) 4))], s.wordQuality (0x1000 + 4 * i) 4 i)
  | 2 => ([.float (BitVec.ofNat 32 (s.octetsLE (qBase + 0x1000 + 4 * i) 4))], s.wordQuality (0x1000 + 4 * i) 4 i)
  | 3 => ([.bool (s.bit A.PRT_TCH_STATE i || (s.role != 0 && !s.ply.lost && bitGet s.trip.peerState i))], qGood)
  | 4 =>
    let e := tabGet (false, false) s.ply.merged (i / 2)
    let w := s.reg (A.PRT_EI_STATE (i / 2))
    ([.bool (if i % 2 = 0 then e.1 else e.2)], if bitGet w 28 then qInvalid else if bitGet w 29 then qBlocked else qGood)
  | 7 =>
    let w := s.reg (A.PRT_CFL_STAT i)
    ([.int (s.reg (A.PRT_CFL_TA_LO i)), .int (s.reg (A.PRT_CFL_TA_HI i))],
      if bitGet w 29 || bitGet w 28 then qQuestionable ||| qInaccurate else qGood)
  | _ => ([], qGood)

/-- Value and quality of every member, a quality member taking that of the member before it. -/
def State.pubCore (s : State) : List PubMember → BitVec 13 → List (List GooseVal × BitVec 13)
  | [], _ => []
  | m :: l, prev =>
    if m.kind = 5 then ([.quality prev], prev) :: s.pubCore l prev
    else (s.memberCore m) :: s.pubCore l (s.memberCore m).2

/-- TimeQuality of t and of kind 6 members. -/
def State.timeQuality (s : State) : Nat :=
  let st := s.fld A.TIM_STAT F.TIM_STAT_STATE
  (if s.bit A.TIM_UTCOFS 31 then 0x80 else 0) + (if st = 0 ∨ st = 1 then 0x20 else 0) +
    (if st = 2 then 20 else if st = 3 then (if s.bit A.TIM_STAT 26 then 7 else 19) else 31)

/-- The UTC instant of a device time, ns. -/
def State.utcNs (s : State) (t : Nat) : Int := (t : Int) - (s.fld A.TIM_UTCOFS F.TIM_UTCOFS_OFFSET |> signExt 16) * 1000000000

/-- A UtcTime value. -/
def State.utcVal (s : State) (t : Nat) : GooseVal :=
  let u := s.utcNs t
  let sec := u / 1000000000
  let frac := (u % 1000000000).toNat * 2 ^ 24 / 1000000000
  .utc (wordOfInt sec) (BitVec.ofNat 32 (frac * 256 + s.timeQuality))

/-- The dataset as sent: kind 6 the time of the last change of the member before it, kind 8 the launch time. -/
def State.pubVals (s : State) (launch : Nat) : List PubMember → List (List GooseVal × BitVec 13) → List Nat → Nat → List GooseVal
  | m :: l, c :: cs, t :: ts, prev =>
    (if m.kind = 6 then [s.utcVal prev] else if m.kind = 8 then [.int (lo32 launch), .int (hi32 launch)] else c.1) ++
      s.pubVals launch l cs ts t
  | _, _, _, _ => []

/-- Encoded length of an INTEGER's contents. -/
def intLen (i : Int) : Nat := if -128 ≤ i ∧ i < 128 then 1 else if -32768 ≤ i ∧ i < 32768 then 2 else if -8388608 ≤ i ∧ i < 8388608 then 3 else 4

/-- Octets of a value in allData (IEC 61850-8-1). -/
def valLen : GooseVal → Nat
  | .bool _ => 3
  | .int w => 2 + intLen w.toInt
  | .float _ => 7
  | .quality _ => 5
  | .utc _ _ => 10
  | .other => 0

/-! ### Publication (R331, R333, R335, R336) -/

/-- The image's block g. -/
def State.pubBlock (s : State) (g : Nat) : Option PubBlock := s.cfg.image.bind (fun i => i.goosePub.find? (fun b => b.g == g))

def State.pub (s : State) (g : Nat) : PubSt := tabGet pubInit s.net.pub g

def State.setPub (s : State) (g : Nat) (p : PubSt) : State := { s with net := { s.net with pub := tabPut pubInit s.net.pub g p } }

/-- Blocks are published by a running SIMPLEX or ACTOR. -/
def State.pubOn (s : State) (g : Nat) : Bool :=
  s.bit (A.NET_GP_CFG g) 31 && s.cfg.switched.isSome && (s.role == 0 || s.role == 1)

/-- Send the block's message with its present numbers; the next one follows after `interval` ms. -/
def State.pubSend (s : State) (g : Nat) (b : PubBlock) : State :=
  let p := s.pub g
  let vals := s.pubVals p.launch b.members p.core p.changed 0
  let m : GooseOut := { g := g, stNum := s.reg (A.NET_GP_STNUM g), sqNum := s.reg (A.NET_GP_SQNUM g), tal := 2 * p.interval
                        test := s.bit A.HDL_STAT 27, t := s.utcNs p.t, timeQ := s.timeQuality, vals := vals }
  let s1 := ((s.incWrap (A.NET_GP_STAT g) F.NET_GP_STAT_SENT).setFld (A.NET_GP_STAT g) F.NET_GP_STAT_DSLEN
    ((vals.map valLen).foldl (· + ·) 0)).setPub g { p with nextTx := some (s.tim.up + p.interval * 1000000) }
  s1.transmit (s1.bit (A.NET_GP_CFG g) 28) (s1.bit (A.NET_GP_CFG g) 30) (.goose m)

/-- Instants of the members' last changes. -/
def changeTimes (now : Nat) : List (List GooseVal × BitVec 13) → List (List GooseVal × BitVec 13) → List Nat → List Nat
  | c :: cs, o :: os, t :: ts => (if c = o then t else now) :: changeTimes now cs os ts
  | _ :: cs, _, _ => now :: changeTimes now cs [] []
  | [], _, _ => []

/-- The number after `w`, 0xFFFF_FFFF wrapping to 1. -/
def nextNum (w : Word) : Word := if w = 0xFFFFFFFF then 1 else w + 1

/-- A new state of block g, with a launch time or 0. -/
def State.newState (s : State) (g : Nat) (b : PubBlock) (launch : Nat) : State :=
  let p := s.pub g
  let core := s.pubCore b.members 0
  let changed := changeTimes s.tim.now core p.core p.changed
  let p1 := { p with started := true, core := core, changed := changed, t := if core = p.core then p.t else s.tim.now
                     interval := s.fld (A.NET_GP_TIM g) F.NET_GP_TIM_TMIN, tmax := s.fld (A.NET_GP_TIM g) F.NET_GP_TIM_TMAX
                     launch := launch, hold := if launch = 0 then none else some launch }
  let st := if p.started then nextNum (s.reg (A.NET_GP_STNUM g)) else 1
  (((s.setPub g p1).setReg (A.NET_GP_STNUM g) st).setReg (A.NET_GP_SQNUM g) 0).pubSend g b

/-- GOOSE_STATE_BUILD: a change of any member's value or quality makes a new state; while a timed publication waits for its T the
change waits too. -/
def doGooseStateBuild (g : Fin 32) (s : State) : State :=
  match s.pubBlock g with
  | none => s
  | some b =>
    let p := s.pub g
    if !s.pubOn g || p.hold.isSome || (p.started && decide (s.pubCore b.members 0 = p.core)) then s
    else s.newState g b 0

/-- GOOSE_RETRANSMIT: the same state again, at twice the interval until TMAX. -/
def doGooseRetransmit (g : Fin 32) (s : State) : State :=
  match s.pubBlock g, (s.pub g).nextTx with
  | some b, some t =>
    let p := s.pub g
    if !s.pubOn g || !p.started || s.tim.up < t then s
    else
      let s1 := (s.setPub g { p with interval := min (2 * p.interval) p.tmax }).setReg (A.NET_GP_SQNUM g) (nextNum (s.reg (A.NET_GP_SQNUM g)))
      s1.pubSend g b
  | _, _ => s

/-- GOOSE_LAUNCH_TIME_REACHED: a change held back since T − LEAD is sent as a new state with launch time 0. -/
def doGooseLaunchTimeReached (g : Fin 32) (s : State) : State :=
  match s.pubBlock g, (s.pub g).hold with
  | some b, some t =>
    if s.tim.now < t then s
    else
      let s1 := s.setPub g { s.pub g with hold := none }
      if s1.pubOn g && decide (s1.pubCore b.members 0 ≠ (s1.pub g).core) then s1.newState g b 0 else s1
  | _, _ => s

/-- PEAL_GOOSE_PUBLISH: at T − LEAD a new state that carries T. -/
def doPealGoosePublish (e : Fin 1024) (s : State) : State :=
  s.pealAct e 7 (fun t s =>
    let g := (s.reg (A.PEL_P0 e)).toNat % 32
    match s.pubBlock g with
    | some b => if s.pubOn g then s.newState g b t else s
    | none => s)

/-! ### Subscription (R337–R340) -/

/-- Type code of a received value. -/
def valType : GooseVal → Nat
  | .bool _ => 0
  | .int _ => 1
  | .float _ => 2
  | .quality _ => 3
  | .utc _ _ => 4
  | .other => 5

/-- Write one GOOSE input bit. -/
def State.putGooseBit (s : State) (b : Nat) (v : Bool) : State :=
  let o := iBase + 0x2000 + b / 8
  s.setOctet o (maskByte (bitMask b) (if v then 0xFF else 0) (s.octet o))

/-- Write one mapped value to its target. -/
def State.putMapped (s : State) (m : SubMap) (v : GooseVal) : State :=
  let w := iBase + 0x2000 + 4 * m.target
  match v with
  | .bool b => s.putGooseBit m.target b
  | .int x => s.setOctetsLE w 4 x.toNat
  | .float x => s.setOctetsLE w 4 x.toNat
  | .quality q => s.setOctetsLE w 4 q.toNat
  | .utc a b => (s.setOctetsLE w 4 a.toNat).setOctetsLE (w + 4) 4 b.toNat
  | .other => s

/-- A map's default as a value of its type. -/
def mapDefault (m : SubMap) : GooseVal :=
  match m.type with
  | 0 => .bool (m.default != 0)
  | 4 => .utc m.default m.default
  | _ => .int m.default

/-- Overlay requests of GOOSE input bits that changed. -/
def State.gooseEdges (s : State) (old : State) : State :=
  (List.range 8).foldl (fun s j =>
    let w := s.reg (A.CFG_OVLSRC (j + 1))
    let b := 8 * 0x2000 + fldGet F.CFG_OVLSRC_GBIT w
    if !bitGet w 23 || s.iBit b == old.iBit b || s.cfg.switched.isNone then s
    else if s.iBit b then (s.ovlRequest (j + 1) 5 0).2
    else if bitGet w 30 then (s.ovlRequest 0 5 0).2 else s) s

/-- All mapped values of one message, or the defaults, as one unit. -/
def State.applyMaps (s : State) (b : SubBlock) (val : SubMap → Option GooseVal) : State :=
  let s1 := s.forEach b.maps (fun m s =>
    match val m with
    | some v => s.putMapped m v
    | none => s)
  ((s1.gooseEdges s).holdDefaults).arcEval

/-- The subscription's state number. -/
def State.gsState (s : State) (n : Nat) : Nat := s.fld (A.NET_GS_STAT n) F.NET_GS_STAT_STATE

/-- A subscription's validity in I 0x0100, with the release of tasks that take its change (R247). -/
def State.setGooseValid (s : State) (n : Nat) (v : Bool) : State :=
  if s.gooseValid n = v then s
  else
    let o := iBase + 0x100 + n / 8
    ((s.setOctet o (maskByte (bitMask n) (if v then 0xFF else 0) (s.octet o))).releaseBySource 5 (some n)).holdDefaults

/-- Launch time of a message on a LAUNCH subscription: its last two members (R338). -/
def launchTime (vals : List GooseVal) : Nat :=
  match vals.reverse with
  | .int hi :: .int lo :: _ => lo.toNat + 2 ^ 32 * hi.toNat
  | _ => 0

/-- An accepted message's values: on arrival, or under R313 where it carries a launch time. -/
def State.applyMsg (s : State) (n : Nat) (b : SubBlock) (m : GooseMsg) : State :=
  let now (s : State) : State := s.applyMaps b (fun x => m.vals[x.member]?)
  let t := if s.bit (A.NET_GS_CFG n) 28 then launchTime m.vals else 0
  if t = 0 then now s
  else if s.fld A.TIM_STAT F.TIM_STAT_STATE = 0 ∨ s.tim.now + 10000000000 < t then (s.pelCount false).raise Ev.PEL_REFUSED (0x1000 + n)
  else if t < s.tim.now then now ((s.pelCount true).raise Ev.PEL_LATE (0x1000 + n))
  else { s with peal := { s.peal with launches := tabPut none s.peal.launches n (some { t := t, msg := m }) } }

/-- A matching message of subscription n. -/
def State.gooseTake (s : State) (n : Nat) (b : SubBlock) (m : GooseMsg) : State :=
  let bad := decide (m.datSet ≠ b.datSet) || decide (m.confRev ≠ b.confRev) || m.ndsCom || decide (m.vals.map valType ≠ b.types)
  if (m.simulation && !s.bit (A.NET_GS_CFG n) 30) || (m.test && !s.bit (A.NET_GS_CFG n) 29) then s
  else if bad then
    if s.gsState n = 3 then s else (s.setFld (A.NET_GS_STAT n) F.NET_GS_STAT_STATE 3).raise Ev.NET_GOOSE_CFGMIS n
  else
    let d := (m.sqNum.toNat + 2 ^ 32 - (s.reg (A.NET_GS_SQNUM n)).toNat) % 2 ^ 32
    if (s.gsSub n).deadline.isSome && s.reg (A.NET_GS_STNUM n) == m.stNum && (d == 0 || Nat.ble (2 ^ 31) d) then
      s.incSat (A.NET_GS_CNT n) F.NET_GS_CNT_DUPS Ev.NET_CNT_SAT noIndex
    else
      let ms := if m.tal = 0 then 2000 else m.tal
      let s1 := (s.setReg (A.NET_GS_STNUM n) m.stNum).setReg (A.NET_GS_SQNUM n) m.sqNum
      let s2 := s1.setReg (A.NET_GS_STAT n) (BitVec.ofNat 32 (2 ^ 30 + m.test.toNat * 2 ^ 29 + min m.tal 0xFFFF))
      let s3 := s2.setSub n { deadline := some (s2.tim.up + ms * 1000000), arrived := s2.tim.now }
      let s4 := if s3.gooseValid n then s3 else (s3.setGooseValid n true).raise Ev.NET_GOOSE_RESTORED n
      s4.applyMsg n b m

/-- Subscriptions of a pair that match a message. -/
def State.subMatches (s : State) (process : Bool) (m : GooseMsg) : List SubBlock :=
  ((s.cfg.image.map (·.gooseSub)).getD []).filter (fun b =>
    s.bit (A.NET_GS_CFG b.s) 31 && s.bit (A.NET_GS_CFG b.s) 27 == process && b.dst == m.dst && b.gocbRef == m.gocbRef &&
      s.fld (A.NET_GS_CFG b.s) F.NET_GS_CFG_APPID == m.appid)

/-- Some declared subscription of the pair has this group address. -/
def State.dstKnown (s : State) (process : Bool) (dst : BitVec 48) : Bool :=
  ((s.cfg.image.map (·.gooseSub)).getD []).any (fun b => s.bit (A.NET_GS_CFG b.s) 27 == process && b.dst == dst) ||
    (process && ((s.cfg.image.map (·.svSub)).getD []).any (fun b => b.dst == dst)) || dst == s.pairMac process

/-- A GOOSE message on a port. -/
def State.gooseOn (s : State) (p : Fin 4) (m : GooseMsg) : State :=
  let process := p.val / 2 == 1
  let (ok, s1) := s.rxAccept p m.lenOk (s.dstKnown process m.dst) m.prp
  if !ok || s1.cfg.switched.isNone then s1 else s1.forEach (s1.subMatches process m) (fun b s => s.gooseTake b.s b m)

/-- GOOSE_RECEIVE. -/
def doGooseReceive (p : Fin 4) (m : GooseMsg) (s : State) : State :=
  (s.gooseOn p m).ringForward s p (m.dst == s.pairMac (p.val / 2 == 1)) m.lenOk m.prp

/-- GOOSE_SUB_LOST: timeAllowedToLive has passed (R340). -/
def doGooseSubLost (n : Fin 128) (s : State) : State :=
  match (s.gsSub n).deadline with
  | none => s
  | some t =>
    if s.tim.up < t || !s.gooseValid n then s
    else
      let s1 := (s.setFld (A.NET_GS_STAT n) F.NET_GS_STAT_STATE 2).incSat (A.NET_GS_CNT n) F.NET_GS_CNT_LOSSES Ev.NET_CNT_SAT noIndex
      let s2 := (s1.setGooseValid n false).raise Ev.NET_GOOSE_LOST n
      match s2.cfg.image.bind (fun i => i.gooseSub.find? (fun b => b.s == n.val)) with
      | some b => s2.applyMaps b (fun m => some (mapDefault m))
      | none => s2

/-- LAUNCH_APPLY: a launch-time message's values at its T (R313); a subscription lost meanwhile keeps its inputs at their defaults (R340). -/
def doLaunchApply (n : Fin 128) (s : State) : State :=
  match tabGet none s.peal.launches n with
  | none => s
  | some l =>
    if s.tim.now < l.t then s
    else
      let s1 := { s with peal := { s.peal with launches := tabPut none s.peal.launches n none } }
      match s1.cfg.image.bind (fun i => i.gooseSub.find? (fun b => b.s == n.val)) with
      | some b => if s1.gooseValid n then s1.applyMaps b (fun x => l.msg.vals[x.member]?) else s1
      | none => s1

def execGooseStateBuild (g : Fin 32) (s : State) : Host.Outcome State Fault Refusal := .next (s.awake (doGooseStateBuild g))
def execGooseRetransmit (g : Fin 32) (s : State) : Host.Outcome State Fault Refusal := .next (s.awake (doGooseRetransmit g))
def execGooseLaunchTimeReached (g : Fin 32) (s : State) : Host.Outcome State Fault Refusal := .next (s.awake (doGooseLaunchTimeReached g))
def execPealGoosePublish (e : Fin 1024) (s : State) : Host.Outcome State Fault Refusal := .next (s.awake (doPealGoosePublish e))
def execGooseReceive (p : Fin 4) (m : GooseMsg) (s : State) : Host.Outcome State Fault Refusal := .next (s.awake (doGooseReceive p m))
def execGooseSubLost (n : Fin 128) (s : State) : Host.Outcome State Fault Refusal := .next (s.awake (doGooseSubLost n))
def execLaunchApply (n : Fin 128) (s : State) : Host.Outcome State Fault Refusal := .next (s.awake (doLaunchApply n))

end Sys2Proof.Machine
end

