-- ==== Sys2Proof/Machine/Sv.lean ====
section
/-! DEFINITION. Sampled values (R108–R110, R341–R344) with the steps SV_FRAME_PUBLISH, SV_RECEIVE and SV_STREAM_LOST, and the reads
of stream-fed signals that a tick makes. -/

namespace Sys2Proof.Machine

/-! ### Publication -/

/-- Rate of a bay's fixed timeline; 0 where it has none (R101). -/
def State.fixedRate (s : State) (b : Nat) : Nat :=
  match s.fld (A.FLT_BAYCFG b) F.FLT_BAYCFG_FIXED with
  | 1 => 4000
  | 2 => 4800
  | 3 => 14400
  | _ => 0

/-- Quality word of a channel from its sample's flags and whether its value was limited (R341, R343): bit n of IEC 61850 at bit n. -/
def svQuality (f : SampleFlags) (limited : Bool) : BitVec 13 :=
  (if !flagGet f 7 then 0x0001 else if flagGet f 5 || flagGet f 0 then 0x0003 else 0) |||
  (if flagGet f 5 || limited then 0x0004 else 0) ||| (if flagGet f 6 then 0x0100 else 0) ||| (if flagGet f 0 then 0x0200 else 0) |||
  (if flagGet f 2 then 0x0400 else 0) ||| (if flagGet f 3 then 0x0800 else 0)

/-- Primary value of a sample in units of 1 mA or 10 mV. -/
def State.svValue (s : State) (b kind x : Nat) (v : Int) : Int :=
  let ratio := ((s.cfg.image.bind (fun i => i.signals[x]?)).map (fun e => fpVal e.primary)).getD 0
  ratRound ((v : Rat) * s.kindScale b kind * ratio * (if isCurrent kind then 1000 else 100))

/-- One channel of a published sample at a device time. -/
def State.svChannel (s : State) (b t kind : Nat) : Int × Word :=
  match s.sigOf b kind with
  | none => (0, 0x00000041)
  | some x =>
    let y := s.outSample x (s.smpTime t : Rat)
    let v := s.svValue b kind x y.v
    let lim : Int := 2 ^ 31 - 1
    (clampInt (-lim) lim v, (svQuality y.f (decide (v < -lim) || decide (lim < v))).setWidth 32)

/-- smpSynch: 2 LOCKED, 1 ACQUIRING or HOLDOVER, 0 FREE. -/
def State.smpSynch (s : State) : Nat :=
  match s.fld A.TIM_STAT F.TIM_STAT_STATE with
  | 2 => 2
  | 0 => 0
  | _ => 1

/-- The ASDUs of `n` samples from `k` on. -/
def State.svAsdus (s : State) (b rate k : Nat) : Nat → List SvAsdu
  | 0 => []
  | n + 1 =>
    { smpCnt := k % rate, smpSynch := s.smpSynch, chans := (List.range 8).map (fun c => s.svChannel b (gridNs rate k) c) } ::
      s.svAsdus b rate (k + 1) n

/-- gmIdentity while LOCKED: the best master's; with another source the spec names none (a free value). -/
def State.gmIdentity (s : State) : Option (BitVec 64) :=
  if s.fld A.TIM_STAT F.TIM_STAT_STATE ≠ 2 then none
  else if s.fld A.TIM_STAT F.TIM_STAT_SRC = 1 then s.tim.best.map (·.1)
  else some (BitVec.ofNat 64 (Config.freeNat s.freeSeq))

/-- A published stream's next frame: its first sample, from the switch on. -/
def State.svNext (s : State) (b : Nat) : Nat :=
  match (tabGet svPubInit s.net.svp b).next with
  | some n => n
  | none => gridIx (s.fixedRate b) s.tim.now + 1

/-- SV_FRAME_PUBLISH: the frame's last sample has left the resampler. -/
def doSvFramePublish (bay : Fin 8) (s : State) : State :=
  let b := bay.val
  let rate := s.fixedRate b
  let n := max 1 (s.fld (A.NET_SVP_CFG b) F.NET_SVP_CFG_NOASDU)
  let k := s.svNext b
  let ready : Rat := (gridNs rate (k + n - 1) : Rat) + s.bayDelay b
  if !s.bit (A.NET_SVP_CFG b) 31 || rate == 0 || s.cfg.switched.isNone || (s.role != 0 && s.role != 1) || decide ((s.tim.now : Rat) < ready)
  then s
  else
    let m : SvOut := { bay := b, gmId := s.gmIdentity, asdus := s.svAsdus b rate k n }
    let s1 := { s with freeSeq := s.freeSeq + 1, net := { s.net with svp := tabPut svPubInit s.net.svp b { next := some (k + n) } } }
    let s2 := s1.setReg (A.NET_SVP_STAT b) (BitVec.ofNat 32 (s.smpSynch * 2 ^ 30 + (k + n - 1) % rate))
    (s2.incWrap (A.NET_SVP_CNT b) ⟨31, 0⟩).transmit true true (.sv m)

/-! ### Reception -/

def State.svs (s : State) (r : Nat) : SvSubSt := tabGet svSubInit s.net.svs r

def State.setSvs (s : State) (r : Nat) (x : SvSubSt) : State := { s with net := { s.net with svs := tabPut svSubInit s.net.svs r x } }

/-- STATE of a stream. -/
def State.svState (s : State) (r : Nat) : Nat := s.fld (A.NET_SVS_STAT r) F.NET_SVS_STAT_STATE

/-- Absolute index of a received smpCnt: in the second that puts it nearest to device time. -/
def State.svIndex (s : State) (rate smpCnt : Nat) : Nat :=
  let here := gridIx rate s.tim.now
  let sec := here / rate
  let k := sec * rate + smpCnt
  if here + rate / 2 < k ∧ rate ≤ k then k - rate else if k + rate / 2 < here then k + rate else k

/-- Place one ASDU in the reorder buffer; one already there is a duplicate. -/
def State.svPlace (s : State) (r : Nat) (a : SvAsdu) : State :=
  let rate := s.svRate r
  let k := s.svIndex rate a.smpCnt
  let x := s.svs r
  let s1 := (s.setFld (A.NET_SVS_STAT r) F.NET_SVS_STAT_SYNCH a.smpSynch).setFld (A.NET_SVS_STAT r) F.NET_SVS_STAT_SMPCNT a.smpCnt
  if x.buf.any (fun e => e.1 == k) then s1.incSat (A.NET_SVS_CNT r) F.NET_SVS_CNT_DUPS Ev.NET_CNT_SAT noIndex
  else s1.setSvs r { x with buf := (k, (a.smpSynch, a.chans)) :: x.buf.filter (fun e => Nat.ble (gridIx rate s.tim.now) (e.1 + 64)) }

/-- A matching frame of stream r. -/
def State.svTake (s : State) (r : Nat) (b : SvBlock) (m : SvMsg) : State :=
  if m.simulation && !s.bit (A.NET_SVS_CFG r) 30 then s
  else
    let s1 := s.setSvs r { s.svs r with lastAt := some s.tim.up }
    let s2 := if s1.svState r = 2 then s1.raise Ev.NET_SV_RESTORED r else s1
    let bad := decide (m.confRev ≠ b.confRev) || !m.datasetOk || m.asdus.any (fun a => Nat.ble (s.svRate r) a.smpCnt)
    if bad then
      if s2.svState r = 3 then s2 else (s2.setFld (A.NET_SVS_STAT r) F.NET_SVS_STAT_STATE 3).raise Ev.NET_SV_CFGMIS r
    else (s2.setFld (A.NET_SVS_STAT r) F.NET_SVS_STAT_STATE 1).forEach m.asdus (fun a s => s.svPlace r a)

/-- Streams that match a frame by destination, APPID and svID. -/
def State.svMatches (s : State) (m : SvMsg) : List SvBlock :=
  ((s.cfg.image.map (·.svSub)).getD []).filter (fun b =>
    s.bit (A.NET_SVS_CFG b.n) 31 && b.dst == m.dst && b.svID == m.svID && m.appid == 0x4000 + s.fld (A.NET_SVS_CFG b.n) F.NET_SVS_CFG_APPID)

/-- A frame of sampled values on a port: streams come from the process pair. -/
def State.svOn (s : State) (p : Fin 4) (m : SvMsg) : State :=
  let process := p.val / 2 == 1
  let (ok, s1) := s.rxAccept p m.lenOk (s.dstKnown process m.dst) m.prp
  if !ok || !process || s1.cfg.switched.isNone then s1 else s1.forEach (s1.svMatches m) (fun b s => s.svTake b.n b m)

/-- SV_RECEIVE. -/
def doSvReceive (p : Fin 4) (m : SvMsg) (s : State) : State :=
  (s.svOn p m).ringForward s p (m.dst == s.pairMac (p.val / 2 == 1)) m.lenOk m.prp

/-- SV_STREAM_LOST: 10 ms without a matching frame. -/
def doSvStreamLost (r : Fin 16) (s : State) : State :=
  match (s.svs r).lastAt with
  | none => s
  | some t =>
    if s.tim.up < t + 10000000 || s.svState r == 2 then s
    else ((s.setFld (A.NET_SVS_STAT r) F.NET_SVS_STAT_STATE 2).incSat (A.NET_SVS_CNT r) F.NET_SVS_CNT_LOSSES Ev.NET_CNT_SAT noIndex).raise
      Ev.NET_SV_LOST r

/-! ### Reads of stream-fed signals (R109, R110) -/

/-- A received sample of a channel, its value scaled onto the R34 scale and limited (R108, R109). -/
def State.svScaled (s : State) (x : Nat) (synch : Nat) (c : Int × Word) : Sample :=
  let scale := ((s.cfg.image.bind (fun i => i.signals[x]?)).map (fun e => fpVal e.svScale)).getD 0
  chainSample (ratRound ((c.1 : Rat) * scale)) (mkFlags (c.2.toNat % 4 == 0 && synch != 0) false false false (bitGet c.2 11) false (synch == 1) false)

/-- The sample of a signal's stream at an index, where it has arrived. -/
def State.svSample (s : State) (x k : Nat) : Option Sample :=
  match (s.svs (s.sigSv x)).buf.find? (fun e => e.1 == k) with
  | some e => some (s.svScaled x e.2.1 (e.2.2.getD (s.sigCh x) (0, 1)))
  | none => none

/-- Sample `i` of a run of missing ones that begins after `a`, bridged to the sample `b`, `n` samples after `a`. -/
def svBridge (a b : Sample) (i n : Nat) : Sample :=
  { v := ratRound ((a.v : Rat) + ((b.v - a.v : Int) : Rat) * mkRat i n)
    f := mkFlags (flagGet a.f 7 && flagGet b.f 7) false false false false true (flagGet a.f 1) false }

def State.svGap (s : State) (x : Nat) : SvGap := tabGet svGapInit s.net.gaps x

def State.setSvGap (s : State) (x : Nat) (g : SvGap) : State := { s with net := { s.net with gaps := tabPut svGapInit s.net.gaps x g } }

/-- A stream sample of a signal reaches its resampler; one of the same index gives way to it. -/
def State.svPut (s : State) (x k : Nat) (y : Sample) : State :=
  ({ s with chain := { s.chain with smps := tabMod [] s.chain.smps (128 + x) (fun l => l.filter (fun e => e.k != k)) } } : State).chainPush
    (128 + x) k (s.sigRate x) y.v y.f

/-- A run of one or two missing samples has been followed by one at index `k`. -/
def State.svBridged (s : State) (x k miss : Nat) (y : Sample) : State :=
  let a := (s.svGap x).last
  s.forEach ((List.range miss).map (· + 1)) (fun i s =>
    (s.svPut x (k - (miss + 1) + i) (svBridge a y i (miss + 1))).incWrap (A.FLT_SVBR (s.sigBay x)) F.FLT_SVBR_BRIDGED)

/-- The signal reads the sample of index `k`: present, bridged as far as can be seen, or held without VALID. -/
def State.svRead (s : State) (x k : Nat) : State :=
  let g := s.svGap x
  let b := s.sigBay x
  match s.svSample x k with
  | some y =>
    let s1 := if g.miss = 1 ∨ g.miss = 2 then s.svBridged x k g.miss y else s
    (s1.svPut x k y).setSvGap x { g with miss := 0, last := y }
  | none =>
    let n := min (g.miss + 1) 3
    let held : Sample := { v := g.last.v, f := flagPut g.last.f 7 false }
    let y := match s.svSample x (k + 1), s.svSample x (k + 2), n with
      | some z, _, 1 => svBridge g.last z 1 2
      | some z, _, 2 => svBridge g.last z 2 3
      | none, some z, 1 => svBridge g.last z 1 3
      | _, _, _ => held
    let s1 := (s.svPut x k y).setSvGap x { g with miss := n }
    if n = 3 ∧ g.miss < 3 then (s1.incSat (A.FLT_SVBR b) F.FLT_SVBR_GAPS Ev.FLT_CNT_SAT b).raiseLim Ev.FLT_SV_GAP b b else s1

/-- Stream-fed signals. -/
def State.streamSigs (s : State) : List Nat := (List.range 96).filter (fun x => s.bit (A.FLT_SIG x) 31 && s.sigStream x)

/-- The reads of a tick: every stream sample that is SVDLY samples old by now and has not been read; after a step of device time the newest. -/
def State.svTick (s : State) : State :=
  s.forEach s.streamSigs (fun x s =>
    let k := gridIx (s.sigRate x) s.tim.now
    let d := s.fld (A.FLT_BAYCFG (s.sigBay x)) F.FLT_BAYCFG_SVDLY
    if k < d then s
    else
      let last := k - d
      let first := match (s.svGap x).next with
        | some n => if n ≤ last + 1 ∧ last < n + 96 then n else last
        | none => last
      let s1 := s.forEach ((List.range (last + 1 - first)).map (first + ·)) (fun i s => s.svRead x i)
      s1.setSvGap x { s1.svGap x with next := some (last + 1) })

/-! ### Steps as executed -/

def execSvFramePublish (bay : Fin 8) (s : State) : Host.Outcome State Fault Refusal := .next (s.awake (doSvFramePublish bay))
def execSvReceive (p : Fin 4) (m : SvMsg) (s : State) : Host.Outcome State Fault Refusal := .next (s.awake (doSvReceive p m))
def execSvStreamLost (r : Fin 16) (s : State) : Host.Outcome State Fault Refusal := .next (s.awake (doSvStreamLost r))

end Sys2Proof.Machine
end

