-- ==== Sys2Proof/Machine/Hank.lean ====
section
/-! DEFINITION. Hank remote I/O (R345–R359) with the steps HANK_ANNOUNCE_RECEIVE, HANK_CONFIG_RESEND, HANK_CONFIG_ACK_RECEIVE,
HANK_OUTPUT_SEND, HANK_INPUT_RECEIVE, HANK_MODULE_LOST and PEAL_HANK_OUTPUT. -/

namespace Sys2Proof.Machine

/-! ### Octet strings, most significant octet first (R346) -/

/-- A value as `n` octets, most significant first. -/
def beBytes : Nat → Nat → List Byte
  | 0, _ => []
  | n + 1, v => BitVec.ofNat 8 (v / 256 ^ n) :: beBytes n v

/-- The value of an octet string, most significant first. -/
def beVal (l : List Byte) : Nat := l.foldl (fun a b => 256 * a + b.toNat) 0

/-- `n` memory octets from `a`. -/
def State.octetsAt (s : State) (a : Nat) : Nat → List Byte
  | 0 => []
  | n + 1 => s.octet a :: s.octetsAt (a + 1) n

/-- Write an octet string from `a`. -/
def State.putOctets (s : State) (a : Nat) : List Byte → State
  | [] => s
  | b :: l => (s.setOctet a b).putOctets (a + 1) l

/-! ### A module's state and status (R359, R365) -/

/-- The image's declaration of module m. -/
def State.hankDecl (s : State) (m : Nat) : Option HankDecl := s.cfg.image.bind (fun i => i.hank.find? (fun d => d.m == m))

/-- Octet +0 of the status: STATE, ND, SUBST, FORCED, FAULT and SAFE; +1 the diagnostic code; +2, +3 SEQ of the last accepted INPUT. -/
def State.hnkStatus (s : State) (m : Nat) (subst : Bool) : State :=
  let st := s.reg (A.HNK_MOD_ST m)
  let o := iBase + 0x200 + 8 * m
  let b0 := fldGet F.HNK_MOD_ST_STATE st + (bitGet st 28).toNat * 8 + subst.toNat * 16 + (s.hnkMod m).forced.toNat * 32 +
    (bitGet st 26).toNat * 64 + (bitGet st 27).toNat * 128
  ((s.setOctet o (BitVec.ofNat 8 b0)).setOctet (o + 1) (BitVec.ofNat 8 (fldGet F.HNK_MOD_ST_DIAG st))).setOctetsLE (o + 2) 2
    (fldGet F.HNK_MOD_ST_SEQRX st)

/-- The inputs of module m are substitutes. -/
def State.hnkSubst (s : State) (m : Nat) : Bool := (s.octet (iBase + 0x200 + 8 * m)).getLsbD 4

/-- STATE of a module, with the counts of HNK_STAT. -/
def State.hnkState (s : State) (m st : Nat) : State :=
  let s1 := s.setFld (A.HNK_MOD_ST m) F.HNK_MOD_ST_STATE st
  let n (k : Nat) : Nat := ((List.range 64).filter (fun i => s1.modState i == k)).length
  ((s1.setFld A.HNK_STAT F.HNK_STAT_JOINED (n 2)).setFld A.HNK_STAT F.HNK_STAT_LOST (n 3)).hnkStatus m (s.hnkSubst m)

/-- The substitute inputs stand in for the module's where SUBEN is 1. -/
def State.hnkSubstitute (s : State) (m : Nat) : State :=
  if s.bit (A.HNK_MOD_CFG m) 30 then
    let l := ((s.hankDecl m).map (·.subst)).getD []
    (s.putOctets (iBase + 0x1000 + 64 * m) (l.take (s.fld (A.HNK_MOD_CFG m) F.HNK_MOD_CFG_ILEN))).hnkStatus m true
  else s

/-! ### Frames to a module (R346–R351, R358) -/

/-- Send a frame: SEQ is one more than the last, ACK the SEQ last accepted. -/
def State.hankSend (s : State) (m typ : Nat) (flags : Nat) (time : Nat) (payload : List Byte) : State :=
  let seq := s.fld (A.HNK_MOD_SEQ m) F.HNK_MOD_SEQ_SEQTX + 1
  let x := s.hnkMod m
  let p : HankPdu := { typ := typ, m := m, seq := BitVec.ofNat 16 seq, ack := x.rxSeq, flags := BitVec.ofNat 16 flags, time := BitVec.ofNat 64 time
                       age := 0, payload := payload, lenOk := true, prp := none, mac := x.mac }
  (s.setFld (A.HNK_MOD_SEQ m) F.HNK_MOD_SEQ_SEQTX seq).transmit true true (.hank p)

/-- The claim hardware's ACTOR flag (R348, R358). -/
def State.hankActor (s : State) : Nat := if s.gateOpen then 4 else 0

/-- CONFIG to a module: its CYC, WDOG, lengths, ACTMASK, safe image and parameters; awaited until CONFIG_ACK. -/
def State.hankConfig (s : State) (m : Nat) : State :=
  match s.hankDecl m with
  | none => s
  | some d =>
    let c := A.HNK_MOD_CFG m
    let l := beBytes 2 (s.fld (A.HNK_MOD_CYC m) F.HNK_MOD_CYC_CYC) ++ beBytes 2 (s.fld (A.HNK_MOD_WD m) F.HNK_MOD_WD_WDOG) ++
      [BitVec.ofNat 8 (s.fld c F.HNK_MOD_CFG_ILEN), BitVec.ofNat 8 (s.fld c F.HNK_MOD_CFG_OLEN),
       BitVec.ofNat 8 (s.fld (A.HNK_MOD_WD m) F.HNK_MOD_WD_ACTMASK), 0] ++ d.safe ++ beBytes 2 d.param.length ++ d.param
    (s.setMod m { s.hnkMod m with cfgAt := some s.tim.up }).hankSend m 2 s.hankActor s.tim.now l

/-- The device runs exchanges and joins: from ACQ_REEL_SWITCH on. -/
def State.hankOn (s : State) : Bool := s.cfg.switched.isSome

/-- A join starts: STATE 1, CONFIG to a module whose MAC is known. -/
def State.hankJoin (s : State) (m : Nat) : State :=
  let s1 := (s.setMod m { s.hnkMod m with exchange := false, nextOut := none }).hnkState m 1
  if (s1.hnkMod m).mac = 0 ∨ (s1.role ≠ 0 ∧ s1.role ≠ 1) then s1 else s1.hankConfig m

/-- Module m at ACQ_REEL_SWITCH, and where an overlay enables it (R349, R357). -/
def State.hankEnable (s : State) (m : Nat) : State :=
  match s.hankDecl m with
  | none => s
  | some d =>
    if !s.bit (A.HNK_MOD_CFG m) 31 then s.hnkState m 4
    else ((s.setMod m { s.hnkMod m with mac := if d.mac = 0 then (s.hnkMod m).mac else d.mac }).hnkSubstitute m).hankJoin m

/-- An overlay disables module m (R357): one RELEASE, no pending launch, no further frames. -/
def State.hankDisable (s : State) (m : Nat) : State :=
  let s1 := s.hankSend m 6 s.hankActor s.tim.now []
  let s2 := s1.setMod m { s1.hnkMod m with exchange := false, cfgAt := none, nextOut := none, launch := none }
  (s2.hnkState m 4).raise Ev.HNK_RELEASED m

/-- Cycle and phase of the exchanges, ns. -/
def State.hankPeriod (s : State) (m : Nat) : Nat := s.fld (A.HNK_MOD_CYC m) F.HNK_MOD_CYC_CYC * 250000
def State.hankPhase (s : State) (m : Nat) : Nat := s.fld (A.HNK_MOD_CYC m) F.HNK_MOD_CYC_PHASE * 250000

/-- Next exchange at or after a device time. -/
def State.hankNext (s : State) (m t : Nat) : Option Nat :=
  if s.hankPeriod m = 0 then none else some (gridFrom t (s.hankPeriod m) (s.hankPhase m))

/-- The exchanges after a device-time step (R306). -/
def State.hankRearm (s : State) : State :=
  s.forEach (List.range 64) (fun m s =>
    if (s.hnkMod m).exchange then s.setMod m { s.hnkMod m with nextOut := s.hankNext m s.tim.now } else s)

/-- A device time as an instant of `tim.up`. -/
def State.upTime (s : State) (t : Nat) : Int := (t : Int) - (s.tim.now : Int) + (s.tim.up : Int)

/-- Build an OUTPUT that leaves at device time `t`: the launch and its image while one is pending, else the Q image as it stands. -/
def State.hankOutput (s : State) (m t : Nat) : State :=
  let x := s.hnkMod m
  let n := s.fld (A.HNK_MOD_CFG m) F.HNK_MOD_CFG_OLEN
  let live := match x.launch with
    | some l => if t ≤ l.1 then some l else none
    | none => none
  let image := match live with
    | some l => l.2
    | none => s.octetsAt (qBase + 0x3000 + 64 * m) n
  let forced := if live.isSome then x.forced else s.qDerived (0x3000 + 64 * m) n
  let flags := (!x.delivered).toNat + 2 * forced.toNat + s.hankActor
  let time := match live with
    | some l => l.1
    | none => 0
  let s1 := s.hankSend m 4 flags t (beBytes 8 time ++ image)
  let y : ModSt := { x with outSeq := s1.fld (A.HNK_MOD_SEQ m) F.HNK_MOD_SEQ_SEQTX, outAt := some (s.upTime t).toNat, delivered := false
                            launch := live, forced := forced }
  ((s1.setMod m y).setBit (A.HNK_MOD_ST m) 28 true).hnkStatus m (s.hnkSubst m)

/-! ### Frames from a module -/

/-- A Hank frame that a port accepts: one of the process pair. -/
def State.hankRx (s : State) (p : Fin 4) (d : HankPdu) : Bool × State :=
  let (ok, s1) := s.rxAccept p d.lenOk (p.val / 2 == 1) d.prp
  (ok && s1.hankOn && Nat.blt d.m 64 && (s1.hankDecl d.m).isSome && s1.bit (A.HNK_MOD_CFG d.m) 31, s1)

/-- A frame that is discarded as a duplicate (R347, R351). -/
def State.hankDup (s : State) (m : Nat) : State := s.incSat (A.HNK_MOD_DUP m) F.HNK_MOD_DUP_DUPS Ev.HNK_CNT_SAT noIndex

/-- An ANNOUNCE: the product code is checked; a match starts the join. -/
def State.hankAnnounced (s : State) (p : Fin 4) (d : HankPdu) : State :=
  let (ok, s1) := s.hankRx p d
  let m := d.m
  if !ok then s1
  else if d.payload.length ≠ 20 then s1.hankDup m
  else
    let x := s1.hnkMod m
    let good := match s1.hankDecl m with
      | some h => h.product.toNat == beVal (d.payload.take 4)
      | none => false
    let s2 := s1.setMod m { x with rxSeq := d.seq, exchange := false, cfgAt := none, nextOut := none }
    if !good then (s2.hnkState m 5).raise Ev.HNK_ID_MISMATCH m
    else
      let caps := beVal ((d.payload.drop 16).take 2)
      let mac := match s1.hankDecl m with
        | some h => if h.mac = 0 then d.mac else h.mac
        | none => d.mac
      let s3 := s2.setMod m { s2.hnkMod m with mac := mac }
      let s4 := ((s3.setBit (A.HNK_MOD_ST m) 25 (caps.testBit 0)).setBit (A.HNK_MOD_ST m) 24 (caps.testBit 1)).setBit (A.HNK_MOD_ST m) 27
        (d.flags.getLsbD 3)
      s4.hankJoin m

/-- HANK_ANNOUNCE_RECEIVE: it goes to the Hank group. -/
def doHankAnnounceReceive (p : Fin 4) (d : HankPdu) (s : State) : State := (s.hankAnnounced p d).ringForward s p false d.lenOk d.prp

/-- HANK_CONFIG_RESEND: every 50 ms until the CONFIG_ACK. -/
def doHankConfigResend (m : Fin 64) (s : State) : State :=
  match (s.hnkMod m).cfgAt with
  | none => s
  | some t => if s.tim.up < t + 50000000 || (s.role != 0 && s.role != 1) then s else s.hankConfig m

/-- HANK_CONFIG_ACK_RECEIVE: result 0 starts the exchanges, any other result refuses the module. -/
def doHankConfigAckReceive (p : Fin 4) (d : HankPdu) (s : State) : State :=
  let (ok, s1) := s.hankRx p d
  let m := d.m
  if !ok then s1
  else if d.payload.length ≠ 6 then s1.hankDup m
  else if s1.modState m ≠ 1 || (s1.hnkMod m).exchange then s1
  else
    let s2 := s1.setMod m { s1.hnkMod m with cfgAt := none, rxSeq := d.seq }
    if d.payload.headD 0 ≠ 0 then (s2.hnkState m 5).raise Ev.HNK_CFG_REFUSED m
    else s2.setMod m { s2.hnkMod m with exchange := true, anySeq := true, delivered := true, lastIn := none,
                                        nextOut := s2.hankNext m (s2.tim.now + 20000) }

/-- HANK_OUTPUT_SEND: 20 µs before each exchange instant. -/
def doHankOutputSend (m : Fin 64) (s : State) : State :=
  match (s.hnkMod m).nextOut with
  | none => s
  | some t =>
    if s.tim.now + 20000 < t || !(s.hnkMod m).exchange || (s.role != 0 && s.role != 1) then s
    else
      let s1 := s.hankOutput m t
      s1.setMod m { s1.hnkMod m with nextOut := s1.hankNext m (t + 1) }

/-- Apply an accepted INPUT. -/
def State.hankInput (s : State) (d : HankPdu) : State :=
  let m := d.m
  let x := s.hnkMod m
  let n := s.fld (A.HNK_MOD_CFG m) F.HNK_MOD_CFG_ILEN
  let s1 := s.putOctets (iBase + 0x1000 + 64 * m) (d.payload.take n)
  let diag := (d.payload.getD n 0).toNat
  let acked := decide ((d.ack.toNat + 65536 - x.outSeq) % 65536 < 32768)
  let inTime := if d.flags.getLsbD 5 then d.time.toNat else if d.age = 0xFFFF then s.tim.now else s.tim.now - d.age.toNat * 1000
  let y : ModSt := { x with anySeq := false, rxSeq := d.seq, lastIn := some s.tim.up, inTime := inTime, delivered := x.delivered || acked }
  let rtt := match x.outAt with
    | some t => min (s.tim.up - t) 0xFFFFFFFF
    | none => 0
  let s2 := s1.setMod m y
  let s3 := if acked && !x.delivered then s2.setReg (A.HNK_MOD_RTT m) (BitVec.ofNat 32 rtt) else s2
  let s4 := (s3.setFld (A.HNK_MOD_ST m) F.HNK_MOD_ST_DIAG diag).setFld (A.HNK_MOD_ST m) F.HNK_MOD_ST_SEQRX d.seq.toNat
  let s5 := (s4.setBit (A.HNK_MOD_ST m) 27 (d.flags.getLsbD 3)).setBit (A.HNK_MOD_ST m) 26 (d.flags.getLsbD 4)
  let s6 := ((s5.setBit (A.HNK_MOD_ST m) 28 (!y.delivered)).setFld (A.HNK_MOD_SEQ m) F.HNK_MOD_SEQ_ACKRX d.ack.toNat).hnkStatus m false
  let s7 := if d.flags.getLsbD 4 then s6.raiseLim Ev.HNK_MOD_FAULT m m else s6
  if s7.modState m = 2 then s7 else (s7.hnkState m 2).raise Ev.HNK_JOINED m

/-- HANK_INPUT_RECEIVE: the sequence rule, then the image as one set. -/
def doHankInputReceive (p : Fin 4) (d : HankPdu) (s : State) : State :=
  let (ok, s1) := s.hankRx p d
  let m := d.m
  let x := s1.hnkMod m
  if !ok then s1
  else if d.payload.length ≠ s1.fld (A.HNK_MOD_CFG m) F.HNK_MOD_CFG_ILEN + 2 then s1.hankDup m
  else if !x.exchange then s1
  else
    let k := (d.seq.toNat + 65536 - x.rxSeq.toNat) % 65536
    if x.anySeq then s1.hankInput d
    else if k = 0 ∨ 32768 ≤ k then s1.hankDup m
    else
      let v := s1.fld (A.HNK_MOD_CNT m) F.HNK_MOD_CNT_MISSED
      let s2 := s1.setFld (A.HNK_MOD_CNT m) F.HNK_MOD_CNT_MISSED (min (v + (k - 1)) 0xFFFF)
      let s3 := if v < 0xFFFF ∧ 0xFFFF ≤ v + (k - 1) then s2.raise Ev.HNK_CNT_SAT noIndex else s2
      s3.hankInput d

/-- HANK_MODULE_LOST: more than STALE cycles since the last accepted INPUT of a joined module. -/
def doHankModuleLost (m : Fin 64) (s : State) : State :=
  match (s.hnkMod m).lastIn with
  | none => s
  | some t =>
    if s.modState m ≠ 2 ∨ s.tim.up ≤ t + s.fld (A.HNK_MOD_CFG m) F.HNK_MOD_CFG_STALE * s.hankPeriod m then s
    else
      let s1 := (s.hnkState m 3).incSat (A.HNK_MOD_CNT m) F.HNK_MOD_CNT_LOSSES Ev.HNK_CNT_SAT noIndex
      (s1.raise Ev.HNK_LOST m).hnkSubstitute m

/-- PEAL_HANK_OUTPUT: an extra OUTPUT at T − LEAD with the image as it stands, held for every cyclic OUTPUT until T (R356). -/
def doPealHankOutput (e : Fin 1024) (s : State) : State :=
  s.pealAct e 6 (fun t s =>
    let m := (s.reg (A.PEL_P0 e)).toNat % 64
    if !(s.hnkMod m).exchange || (s.role != 0 && s.role != 1) then s
    else
      let n := s.fld (A.HNK_MOD_CFG m) F.HNK_MOD_CFG_OLEN
      let image := s.octetsAt (qBase + 0x3000 + 64 * m) n
      let s1 := s.setMod m { s.hnkMod m with launch := some (t, image), forced := s.qDerived (0x3000 + 64 * m) n }
      let s2 := s1.hankOutput m s1.tim.now
      if s2.bit (A.HNK_MOD_ST m) 25 then s2
      else (s2.incSat A.HNK_CNT F.HNK_CNT_UNTIMED Ev.HNK_CNT_SAT noIndex).raise Ev.HNK_UNTIMED m)

def execHankAnnounceReceive (p : Fin 4) (pdu : HankPdu) (s : State) : Host.Outcome State Fault Refusal :=
  .next (s.awake (doHankAnnounceReceive p pdu))
def execHankConfigResend (m : Fin 64) (s : State) : Host.Outcome State Fault Refusal := .next (s.awake (doHankConfigResend m))
def execHankConfigAckReceive (p : Fin 4) (pdu : HankPdu) (s : State) : Host.Outcome State Fault Refusal :=
  .next (s.awake (doHankConfigAckReceive p pdu))
def execHankOutputSend (m : Fin 64) (s : State) : Host.Outcome State Fault Refusal := .next (s.awake (doHankOutputSend m))
def execHankInputReceive (p : Fin 4) (pdu : HankPdu) (s : State) : Host.Outcome State Fault Refusal :=
  .next (s.awake (doHankInputReceive p pdu))
def execHankModuleLost (m : Fin 64) (s : State) : Host.Outcome State Fault Refusal := .next (s.awake (doHankModuleLost m))
def execPealHankOutput (e : Fin 1024) (s : State) : Host.Outcome State Fault Refusal := .next (s.awake (doPealHankOutput e))

end Sys2Proof.Machine
end

