-- ==== Sys2Proof/Machine/Params.lean ====
section
/-! DEFINITION. The parameters of an image: the windows of R426, which registers may be loaded (LK, OV), their defined and their OV
bits, what is declared (R519), and how a PARAM section is read (R425). -/

namespace Sys2Proof.Machine

/-! ### Windows (R426) -/

/-- A window: first parameter ID, number of IDs, BAR0 offset of its first register. -/
structure Win where
  base : Nat
  count : Nat
  addr : Nat

/-- The windows of R426. -/
def windows : List Win :=
  [⟨0x0000, 8192, 0x00310000⟩, ⟨0x2000, 8192, 0x00320000⟩, ⟨0x4000, 8192, 0x00501000⟩, ⟨0x6000, 8192, 0x00510000⟩,
   ⟨0x8000, 8192, 0x005C1000⟩, ⟨0xA000, 6144, 0x00284000⟩, ⟨0xB800, 2048, 0x00318000⟩, ⟨0xC000, 2048, 0x0050C000⟩,
   ⟨0xC800, 2048, 0x00402000⟩, ⟨0xD000, 2048, 0x00782000⟩, ⟨0xD800, 1024, 0x00301000⟩, ⟨0xDC00, 1024, 0x00602000⟩,
   ⟨0xE000, 1024, 0x00781000⟩, ⟨0xE400, 512, 0x00480200⟩, ⟨0xE600, 512, 0x00680100⟩, ⟨0xE800, 384, 0x00300000⟩,
   ⟨0xEA00, 256, 0x00101000⟩, ⟨0xEB00, 256, 0x00401000⟩, ⟨0xEC00, 256, 0x00601000⟩, ⟨0xED00, 192, 0x00603000⟩,
   ⟨0xEE00, 256, 0x00900000⟩, ⟨0xEF00, 128, 0x00280000⟩, ⟨0xEF80, 128, 0x00280800⟩, ⟨0xF000, 96, 0x00281000⟩,
   ⟨0xF060, 32, 0x0028A000⟩, ⟨0xF080, 128, 0x005C0100⟩, ⟨0xF100, 64, 0x00401400⟩, ⟨0xF140, 64, 0x00100000⟩,
   ⟨0xF180, 32, 0x00600000⟩, ⟨0xF1A0, 32, 0x00580000⟩, ⟨0xF1C0, 16, 0x00200000⟩, ⟨0xF1D0, 16, 0x00780000⟩,
   ⟨0xF1E0, 4, 0x00400000⟩, ⟨0xF1E4, 4, 0x00480000⟩, ⟨0xF1E8, 64, 0x00800000⟩]

/-- The window that holds an ID. -/
def winOf (id : Nat) : Option Win := windows.find? (fun w => Nat.ble w.base id && Nat.blt id (w.base + w.count))

/-- The register of an ID: ID = BASE + (offset − OFS0)/4. -/
def paramAddr (id : Nat) : Option Nat := (winOf id).map (fun w => w.addr + 4 * (id - w.base))

/-- The ID of a register; 0xFFFF for one outside every window. -/
def addrParam (a : Nat) : Nat :=
  match windows.find? (fun w => Nat.ble w.addr a && Nat.blt a (w.addr + 4 * w.count)) with
  | some w => w.base + (a - w.addr) / 4
  | none => 0xFFFF

/-! ### Access (R2): the LK and OV bits of each loadable register -/

/-- A set of registers at one stride: the bits an image may set, and those of them an overlay may change. -/
structure AccRow where
  base : Nat
  stride : Nat
  count : Nat
  all : Nat
  ov : Nat

def allBits : Nat := 0xFFFFFFFF

/-- Registers of the protection, acquisition, chain and calibration blocks. -/
def accRows1 : List AccRow :=
  [⟨A.PRT_EI_CFG 0, 0x40, 512, 0x8FFF0FC0, 0x80000000⟩, ⟨A.PRT_EI_PU 0, 0x40, 512, allBits, allBits⟩,
   ⟨A.PRT_EI_DR 0, 0x40, 512, allBits, allBits⟩, ⟨A.PRT_EI_TIM 0, 0x40, 512, 0xFC00003F, 0xFC00003F⟩,
   ⟨A.PRT_EI_TMS 0, 0x40, 512, allBits, allBits⟩, ⟨A.PRT_EI_TR 0, 0x40, 512, allBits, allBits⟩,
   ⟨A.PRT_EI_TMIN 0, 0x40, 512, allBits, allBits⟩, ⟨A.PRT_EI_GMAX 0, 0x40, 512, allBits, allBits⟩,
   ⟨A.PRT_EI_BLK01 0, 0x40, 512, allBits, 0⟩, ⟨A.PRT_EI_BLK23 0, 0x40, 512, allBits, 0⟩,
   ⟨A.PRT_UC_M 0 0, 4, 2048, allBits, 0⟩,
   ⟨A.PRT_WM_THR 0, 4, 8, 0xFFFF, 0⟩, ⟨A.PRT_WM_MAP 0, 4, 4, 0xFF, 0⟩, ⟨A.PRT_TCH_CFG 0, 4, 32, 0xFFF801FF, 0x1FF⟩,
   ⟨A.PRT_TOUT 0, 4, 16, allBits, 0⟩, ⟨A.PRT_BAYCFG 0, 0x40, 8, 0xFFFC0000, 0x0FC00000⟩,
   ⟨A.PRT_K0RE 0, 0x40, 8, allBits, allBits⟩, ⟨A.PRT_K0IM 0, 0x40, 8, allBits, allBits⟩, ⟨A.PRT_VNOM 0, 0x40, 8, allBits, 0⟩,
   ⟨A.PRT_ISCALE 0, 0x40, 8, allBits, 0⟩, ⟨A.PRT_VSCALE 0, 0x40, 8, allBits, 0⟩,
   ⟨A.ACQ_XCK_THR, 4, 1, 0x7F, 0x7F⟩, ⟨A.ACQ_LANE 0, 4, 128, 0xFFFFFF80, 0x80000000⟩,
   ⟨A.ACQ_ACCCFG 0, 4, 128, 0xE0001F3F, 0xE0001F3F⟩,
   ⟨A.CAL_ROT_CFG, 4, 1, 0x8000007F, 0x8000007F⟩, ⟨A.CAL_OPEN_THR, 4, 1, 0xFFFF, 0xFFFF⟩,
   ⟨A.CAL_INJ_CTL, 4, 1, 0xFF8000FF, 0xFF8000FF⟩, ⟨A.CAL_PB_THR, 4, 1, 0xFF, 0xFF⟩,
   ⟨A.FLT_HBU_CFG, 4, 1, 0x001F001F, 0x001F001F⟩, ⟨A.FLT_BAYCFG 0, 0x20, 8, 0x1F0E, 0⟩, ⟨A.FLT_TRKCFG 0, 0x20, 8, 0xF, 0xF⟩,
   ⟨A.FLT_WFCFG 0, 0x20, 8, 0xF8FFFFFF, 0xF8FFFFFF⟩, ⟨A.FLT_LANE 0, 4, 128, 0x1FFFFF, 0x1FFFFF⟩,
   ⟨A.FLT_SIG 0, 4, 96, 0xFFFFFFFC, 0⟩, ⟨A.FLT_FIR 0 0, 4, 6144, allBits, allBits⟩, ⟨A.FLT_HBU 0 0, 4, 32, allBits, allBits⟩]

/-- Registers of the other blocks. -/
def accRows2 : List AccRow :=
  [⟨A.CAP_CFG, 4, 1, 1, 1⟩, ⟨A.CAP_PLAN_CFG 0, 0x40, 16, 0xE00000FF, 0x80000000⟩,
   ⟨A.CAP_PLAN_WIN 0, 0x40, 16, allBits, allBits⟩, ⟨A.CAP_PLAN_TRIG 0 0, 0x40, 16, allBits, allBits⟩,
   ⟨A.CAP_PLAN_TRIG 0 1, 0x40, 16, allBits, allBits⟩, ⟨A.CAP_PLAN_TRIG 0 2, 0x40, 16, allBits, allBits⟩,
   ⟨A.CAP_PLAN_TRIG 0 3, 0x40, 16, allBits, allBits⟩, ⟨A.CAP_PLAN_TRIG 0 4, 0x40, 16, allBits, allBits⟩,
   ⟨A.CAP_PLAN_TRIG 0 5, 0x40, 16, allBits, allBits⟩, ⟨A.CAP_PLAN_TRIG 0 6, 0x40, 16, allBits, allBits⟩,
   ⟨A.CAP_PLAN_TRIG 0 7, 0x40, 16, allBits, allBits⟩, ⟨A.CAP_PLAN_SIGL 0 0, 4, 64, allBits, 0⟩,
   ⟨A.CAP_DCH 0 0, 4, 2048, allBits, 0⟩,
   ⟨A.HDL_CFG, 4, 1, 0xFE0FFFFF, 0⟩, ⟨A.HDL_TCFG 0 0, 0x10, 128, 0xFC003FFF, 0⟩, ⟨A.HDL_TPHS 0 0, 0x10, 128, 0xF000FFFF, 0⟩,
   ⟨A.SPN_BCFG 0, 0x40, 512, 0xFFFCFC00, 0x81000000⟩, ⟨A.SPN_BPER 0, 0x40, 512, allBits, 0⟩,
   ⟨A.SPN_BIN01 0, 0x40, 512, allBits, 0⟩, ⟨A.SPN_BIN23 0, 0x40, 512, allBits, 0⟩, ⟨A.SPN_BC 0 0, 0x40, 512, allBits, allBits⟩,
   ⟨A.SPN_BC 0 1, 0x40, 512, allBits, allBits⟩, ⟨A.SPN_BC 0 2, 0x40, 512, allBits, allBits⟩,
   ⟨A.SPN_BC 0 3, 0x40, 512, allBits, allBits⟩, ⟨A.SPN_BC 0 4, 0x40, 512, allBits, allBits⟩,
   ⟨A.SPN_BSH 0, 0x40, 512, 0x3FFFFFFF, 0x3FFFFFFF⟩, ⟨A.SPN_BOLO 0, 0x40, 512, allBits, allBits⟩,
   ⟨A.SPN_BOHI 0, 0x40, 512, allBits, allBits⟩, ⟨A.SPN_BDST 0, 0x40, 512, 0xFFFF, 0⟩, ⟨A.SPN_CHR_X 0 0, 4, 2048, allBits, 0⟩,
   ⟨A.TIM_CFG, 4, 1, 0xFF80FF00, 0⟩, ⟨A.TIM_PPSDLY, 4, 1, allBits, 0⟩, ⟨A.TIM_STEPTHR, 4, 1, allBits, 0⟩,
   ⟨A.PEL_CC_CFG 0, 0x40, 8, allBits, 0xC00FFFFF⟩, ⟨A.PEL_CC_TNOM 0, 0x40, 8, allBits, 0⟩,
   ⟨A.PEL_CC_KT 0, 0x40, 8, allBits, allBits⟩, ⟨A.PEL_CC_TREF 0, 0x40, 8, allBits, allBits⟩,
   ⟨A.PEL_CC_KIDLE 0, 0x40, 8, allBits, allBits⟩, ⟨A.PEL_CC_TSRC 0, 0x40, 8, 0xFFFF, 0⟩,
   ⟨A.PEL_T_LO 0, 0x20, 1024, allBits, 0⟩, ⟨A.PEL_T_HI 0, 0x20, 1024, allBits, 0⟩, ⟨A.PEL_PER 0, 0x20, 1024, allBits, 0⟩,
   ⟨A.PEL_CTL 0, 0x20, 1024, 0xEF00FFFF, 0x80000000⟩, ⟨A.PEL_P0 0, 0x20, 1024, allBits, 0⟩, ⟨A.PEL_P1 0, 0x20, 1024, allBits, 0⟩,
   ⟨A.NET_CFG, 4, 1, 0xFF003FFF, 0⟩, ⟨A.NET_MACS_LO, 4, 1, allBits, 0⟩, ⟨A.NET_MACS_HI, 4, 1, 0xFFFF, 0⟩,
   ⟨A.NET_MACP_LO, 4, 1, allBits, 0⟩, ⟨A.NET_MACP_HI, 4, 1, 0xFFFF, 0⟩, ⟨A.NET_VLAN_GOOSE, 4, 3, 0xEFFF, 0⟩,
   ⟨A.NET_GP_CFG 0, 0x20, 32, 0xF0FF3FFF, 0x80000000⟩, ⟨A.NET_GP_TIM 0, 0x20, 32, 0xFFFF00FF, 0xFFFF00FF⟩,
   ⟨A.NET_GS_CFG 0, 0x20, 128, 0xF8003FFF, 0⟩, ⟨A.NET_SVP_CFG 0, 0x20, 8, 0x8F003FFF, 0x80000000⟩,
   ⟨A.NET_SVS_CFG 0, 0x20, 16, 0xF0003FFF, 0⟩,
   ⟨A.HNK_MOD_CFG 0, 0x20, 64, 0xFFFFF000, 0x80000000⟩, ⟨A.HNK_MOD_CYC 0, 0x20, 64, allBits, 0⟩,
   ⟨A.HNK_MOD_WD 0, 0x20, 64, 0xFF00FFFF, 0⟩,
   ⟨A.TIM_UTCOFS, 4, 1, 0x8000FFFF, 0⟩, ⟨A.ALM_CFG, 4, 1, 0xFFE00000, 0⟩, ⟨A.ALM_PLAN_CFG 0, 0x10, 256, 0xFFF001FF, 0xF0000000⟩,
   ⟨A.ALM_PLAN_SRC 0, 0x10, 256, 0xFFFF0000, 0⟩, ⟨A.ALM_PLAN_LO 0, 0x10, 256, allBits, allBits⟩,
   ⟨A.ALM_PLAN_HI 0, 0x10, 256, allBits, allBits⟩, ⟨A.ALM_XT_CFG 0, 8, 1024, 0xFE00FFFF, 0xF0000000⟩,
   ⟨A.CFG_START, 4, 1, 0xF, 0⟩, ⟨A.CFG_OVLSRC 1, 4, 8, 0xDF800FFF, 0⟩,
   ⟨A.LIO_BIN_POL, 4, 1, allBits, 0⟩, ⟨A.LIO_BIN_CFG 0, 4, 32, 0xFF, 0⟩, ⟨A.LIO_GOUT_CFG, 4, 1, 0xFFFF, 0⟩,
   ⟨A.LIO_LIGHT_THR, 4, 1, allBits, 0⟩]

/-- The words of an extension block by element type (R158, R176 and the motor types): defined bits and OV bits; words not listed
must be zero. -/
def exMask (ty w : Nat) : Nat × Nat :=
  let full : Nat × Nat := (allBits, allBits)
  let lk : Nat × Nat := (allBits, 0)
  match ty, w with
  | 0x02, 0 => (1, 0)
  | 0x03, 0 => full | 0x03, 1 => full | 0x03, 2 => (3, 3) | 0x03, 3 => full
  | 0x04, 0 => full | 0x04, 1 => full | 0x04, 2 => (0xF, 3) | 0x04, 3 => full
  | 0x06, 0 => full | 0x06, 1 => full
  | 0x07, 0 => (3, 2) | 0x07, 1 => full
  | 0x08, 0 => (1, 0)
  | 0x09, 0 => (1, 0)
  | 0x0B, 0 => full | 0x0B, 1 => full
  | 0x0C, 0 => (3, 3) | 0x0C, 1 => full
  | 0x0D, 0 => (0x3FFF, 7)
  | 0x0E, 0 => (0x1F1F, 0x1F10) | 0x0E, 1 => (0xFFFF, 0xFFFF)
  | 0x0F, 0 => full | 0x0F, 1 => full | 0x0F, 2 => full | 0x0F, 3 => (0xFD, 1)
  | 0x0F, 4 => (0x81FF81FF, 0) | 0x0F, 5 => (0x81FF81FF, 0) | 0x0F, 6 => (0x81FF81FF, 0) | 0x0F, 7 => (0x81FF81FF, 0)
  | 0x10, 0 => full | 0x10, 1 => full
  | 0x11, 0 => (0x1F, 0)
  | 0x12, 0 => (1, 0) | 0x12, 1 => full | 0x12, 2 => full
  | 0x13, 0 => full | 0x13, 1 => full | 0x13, 2 => full | 0x13, 3 => full | 0x13, 4 => (0x3F, 0)
  | 0x14, 0 => lk
  | 0x14, 1 => full | 0x14, 2 => full | 0x14, 3 => full | 0x14, 4 => full | 0x14, 5 => full
  | 0x14, 6 => full | 0x14, 7 => full | 0x14, 8 => full | 0x14, 9 => full | 0x14, 10 => full | 0x14, 11 => (0x3FFF, 0)
  | 0x15, 0 => full | 0x15, 1 => full
  | 0x16, 0 => (1, 1)
  | 0x17, 0 => (1, 0) | 0x17, 1 => full
  | 0x18, 0 => full
  | 0x19, 0 => (1, 0) | 0x19, 1 => full
  | 0x1A, 0 => full
  | 0x1B, 0 => (1, 0)
  | 0x1C, 0 => lk | 0x1C, 1 => (1, 0)
  | 0x1C, 2 => full | 0x1C, 3 => full | 0x1C, 4 => full | 0x1C, 5 => full | 0x1C, 6 => full
  | 0x1D, 0 => (1, 0)
  | 0x1E, 0 => full
  | 0x1F, 0 => (1, 1) | 0x1F, 1 => full | 0x1F, 2 => full | 0x1F, 3 => full | 0x1F, 4 => full
  | 0x20, 0 => full | 0x20, 1 => lk | 0x20, 2 => full | 0x20, 3 => (0x1FFF, 0) | 0x20, 4 => (0x81FF, 0) | 0x20, 5 => lk
  | _, _ => (0, 0)

/-- The values that a set of parameters gives every register. -/
abbrev View := Nat → Word

/-- TYPE of an instance. -/
def vType (v : View) (x : Nat) : Nat := fldGet F.PRT_EI_CFG_TYPE (v (A.PRT_EI_CFG x))

/-- Defined bits and OV bits of a loadable register; none for any other. -/
def accessAt (v : View) (a : Nat) : Option (Nat × Nat) :=
  if inArr (A.PRT_EX 0 0) 4 8192 a then some (exMask (vType v ((a - A.PRT_EX 0 0) / 64)) ((a - A.PRT_EX 0 0) / 4 % 16))
  else if inArr (A.SPN_SCALE 0 0) 4 8192 a then (if (a - A.SPN_SCALE 0 0) / 4 % 16 < 10 then some (allBits, 0) else none)
  else if inArr (A.PRT_TCH_SRC 0 0) 4 1024 a then
    let w := (a - A.PRT_TCH_SRC 0 0) / 4 % 32
    some (if w = 16 then 0xFF else if w < 18 then allBits else 0, 0)
  else ((accRows1 ++ accRows2).find? (fun r => inArr r.base r.stride r.count a)).map (fun r => (r.all, r.ov))

/-- An image may load the register. -/
def loadable (v : View) (a : Nat) : Bool := (accessAt v a).isSome

/-! ### Reading a PARAM section (R425) -/

/-- IDs and values of the runs. -/
def paramVals (l : List ParamRun) : List (Nat × Word) := l.flatMap (fun r => r.vals.zipIdx.map (fun e => (r.id + e.2, e.1)))

/-- A run stays inside one window. -/
def runOk (r : ParamRun) : Bool :=
  !r.vals.isEmpty && (match winOf r.id with
    | some w => Nat.ble (r.id + r.vals.length) (w.base + w.count)
    | none => false)

/-- The first ID that breaks R425, if any. -/
def paramBad (v : View) (l : List ParamRun) : Option Nat :=
  let rec scan (seen : List Nat) : List ParamRun → Option Nat
    | [] => none
    | r :: t =>
      let ids := (List.range r.vals.length).map (r.id + ·)
      if !runOk r then some r.id
      else match ids.find? (fun i => seen.contains i || !((paramAddr i).map (loadable v)).getD false) with
        | some i => some i
        | none => scan (ids ++ seen) t
  scan [] l

/-- A set of values applied over what registers hold without it. -/
def viewOf (base : View) (l : List (Nat × Word)) : View := fun a =>
  match l.find? (fun e => e.1 == a) with
  | some e => e.2
  | none => base a

/-- Register addresses and values of (ID, value) pairs. -/
def atAddrs (l : List (Nat × Word)) : List (Nat × Word) := l.filterMap (fun e => (paramAddr e.1).map (fun a => (a, e.2)))

/-! ### What is declared (R519) -/

/-- The items that a set of loaded values declares: `named` are the registers that PARAM names. -/
structure Decl where
  v : View
  named : List Nat

def Decl.fld (d : Decl) (a : Nat) (f : Fld) : Nat := fldGet f (d.v a)
def Decl.bit (d : Decl) (a i : Nat) : Bool := bitGet (d.v a) i
def Decl.has (d : Decl) (a : Nat) : Bool := d.named.contains a

def Decl.bays (d : Decl) : List Nat := (List.range 8).filter (fun b => d.bit (A.PRT_BAYCFG b) 31)
def Decl.signals (d : Decl) : List Nat := (List.range 96).filter (fun x => d.bit (A.FLT_SIG x) 31)
def Decl.lanes (d : Decl) : List Nat := (List.range 128).filter (fun x => d.has (A.ACQ_LANE x))
def Decl.insts (d : Decl) : List Nat := (List.range 512).filter (fun x => d.has (A.PRT_EI_CFG x))
def Decl.blocks (d : Decl) : List Nat := (List.range 512).filter (fun x => d.has (A.SPN_BCFG x))
def Decl.plans (d : Decl) : List Nat := (List.range 16).filter (fun x => d.has (A.CAP_PLAN_CFG x))
def Decl.almPlans (d : Decl) : List Nat := (List.range 256).filter (fun x => d.has (A.ALM_PLAN_CFG x))
def Decl.trackers (d : Decl) : List Nat := (List.range 1024).filter (fun x => d.has (A.ALM_XT_CFG x))
def Decl.peals (d : Decl) : List Nat := (List.range 1024).filter (fun x => d.has (A.PEL_T_LO x))
def Decl.closes (d : Decl) : List Nat := (List.range 8).filter (fun x => d.has (A.PEL_CC_CFG x))
def Decl.pubs (d : Decl) : List Nat := (List.range 32).filter (fun x => d.has (A.NET_GP_CFG x))
def Decl.subs (d : Decl) : List Nat := (List.range 128).filter (fun x => d.bit (A.NET_GS_CFG x) 31)
def Decl.svPubs (d : Decl) : List Nat := (List.range 8).filter (fun x => d.has (A.NET_SVP_CFG x))
def Decl.svSubs (d : Decl) : List Nat := (List.range 16).filter (fun x => d.bit (A.NET_SVS_CFG x) 31)
def Decl.modules (d : Decl) : List Nat := (List.range 64).filter (fun x => d.has (A.HNK_MOD_CFG x))
/-- Task sets declared by PARAM: Heddle and task 0–31. -/
def Decl.tasks (d : Decl) : List (Nat × Nat) :=
  ((List.range 4).flatMap (fun h => (List.range 32).map (fun t => (h, t)))).filter (fun e => d.bit (A.HDL_TCFG e.1 e.2) 31)

/-- The item that a register belongs to is declared; registers of no item always are (R432, R519). -/
def Decl.declares (d : Decl) (a : Nat) : Bool :=
  let idx (b stride : Nat) : Nat := (a - b) / stride
  if inArr (A.PRT_EI_CFG 0) 4 8192 a then d.has (A.PRT_EI_CFG (idx (A.PRT_EI_CFG 0) 0x40))
  else if inArr (A.PRT_EX 0 0) 4 8192 a then d.has (A.PRT_EI_CFG (idx (A.PRT_EX 0 0) 0x40))
  else if inArr (A.PRT_BAYCFG 0) 4 128 a then d.bit (A.PRT_BAYCFG (idx (A.PRT_BAYCFG 0) 0x40)) 31
  else if inArr (A.FLT_TRKCFG 0) 0x20 8 a then d.bit (A.PRT_BAYCFG (idx (A.FLT_TRKCFG 0) 0x20)) 31
  else if inArr (A.FLT_WFCFG 0) 0x20 8 a then d.bit (A.PRT_BAYCFG (idx (A.FLT_WFCFG 0) 0x20)) 31
  else if inArr (A.ACQ_LANE 0) 4 128 a then d.has a
  else if inArr (A.ACQ_ACCCFG 0) 4 128 a then d.has (A.ACQ_LANE (idx (A.ACQ_ACCCFG 0) 4))
  else if inArr (A.FLT_LANE 0) 4 128 a then d.has (A.ACQ_LANE (idx (A.FLT_LANE 0) 4))
  else if inArr (A.FLT_FIR 0 0) 4 6144 a then d.bit (A.FLT_SIG (idx (A.FLT_FIR 0 0) 0x100)) 31
  else if inArr (A.SPN_BCFG 0) 4 8192 a then d.has (A.SPN_BCFG (idx (A.SPN_BCFG 0) 0x40))
  else if inArr (A.CAP_PLAN_CFG 0) 4 256 a then d.has (A.CAP_PLAN_CFG (idx (A.CAP_PLAN_CFG 0) 0x40))
  else if inArr (A.ALM_PLAN_CFG 0) 4 1024 a then d.has (A.ALM_PLAN_CFG (idx (A.ALM_PLAN_CFG 0) 0x10))
  else if inArr (A.ALM_XT_CFG 0) 4 2048 a then d.has (A.ALM_XT_CFG (idx (A.ALM_XT_CFG 0) 8))
  else if inArr (A.PEL_T_LO 0) 4 8192 a then d.has (A.PEL_T_LO (idx (A.PEL_T_LO 0) 0x20))
  else if inArr (A.PEL_CC_CFG 0) 4 128 a then d.has (A.PEL_CC_CFG (idx (A.PEL_CC_CFG 0) 0x40))
  else if inArr (A.NET_GP_CFG 0) 4 256 a then d.has (A.NET_GP_CFG (idx (A.NET_GP_CFG 0) 0x20))
  else if inArr (A.NET_SVP_CFG 0) 4 64 a then d.has (A.NET_SVP_CFG (idx (A.NET_SVP_CFG 0) 0x20))
  else if inArr (A.HNK_MOD_CFG 0) 4 512 a then d.has (A.HNK_MOD_CFG (idx (A.HNK_MOD_CFG 0) 0x20))
  else true

end Sys2Proof.Machine
end

