-- ==== Sys2Proof/Machine/Overlay.lean ====
section
/-! DEFINITION. Overlays taking effect (R432–R437): the values in force, where each of them applies (R435), and the commissioning
overlay (R257, R260). -/

namespace Sys2Proof.Machine

/-! ### Values in force (R432) -/

/-- The patch of overlay `k` by address; selecting 0 selects the base. -/
def State.ovlPatch (s : State) (k : Nat) : List (Nat × Word) :=
  ((s.cfg.image.bind (fun i => i.overlays.find? (fun o => o.number == k && k != 0))).map (fun o => atAddrs o.entries)).getD []

/-- The base value of a register. -/
def State.ovlBase (s : State) (a : Nat) : Word := (tabGet none s.cfg.base a).getD (s.reg a)

/-- The value of a register with overlay `k` selected. -/
def State.ovlValue (s : State) (k a : Nat) : Word :=
  match (s.ovlPatch k).find? (fun e => e.1 == a) with
  | some e => e.2
  | none => s.ovlBase a

/-- A register with its OV bits replaced. -/
def State.ovlWord (s : State) (a : Nat) (v : Word) : Word :=
  let m : Word := BitVec.ofNat 32 ((accessAt s.reg a).getD (0, 0)).2
  (s.reg a &&& ~~~m) ||| (v &&& m)

/-- Registers whose value differs between overlay `old` and overlay `new`, with the new words. -/
def State.ovlChanges (s : State) (old new : Nat) : List (Nat × Word) :=
  (((s.ovlPatch old) ++ (s.ovlPatch new)).map (fun e => e.1)).eraseDups.filterMap (fun a =>
    if s.ovlValue old a = s.ovlValue new a then none else some (a, s.ovlWord a (s.ovlValue new a)))

/-! ### Where a value applies (R435) -/

/-- Element instance of an address of the instance table or the extension blocks. -/
def instAddr (a : Nat) : Option Nat :=
  if inArr (A.PRT_EI_CFG 0) 4 8192 a then some ((a - A.PRT_EI_CFG 0) / 64)
  else if inArr (A.PRT_EX 0 0) 4 8192 a then some ((a - A.PRT_EX 0 0) / 64) else none

/-- The bay whose boundary a register waits for, and whether its chain takes it; none for one that applies at T. -/
def State.ovlPlace (s : State) (a : Nat) : Option (Nat × Bool) :=
  match instAddr a with
  | some x => if s.isArc x then none else some (s.eiBay x, false)
  | none =>
    if inArr (A.PRT_BAYCFG 0) 4 128 a then some ((a - A.PRT_BAYCFG 0) / 64, false)
    else if inArr (A.ACQ_LANE 0) 4 128 a then
      (if s.bit (A.ACQ_LANE ((a - A.ACQ_LANE 0) / 4)) 7 then none else some (s.laneBay ((a - A.ACQ_LANE 0) / 4), true))
    else if inArr (A.FLT_LANE 0) 4 128 a then
      (if s.bit (A.ACQ_LANE ((a - A.FLT_LANE 0) / 4)) 7 then none else some (s.laneBay ((a - A.FLT_LANE 0) / 4), true))
    else if inArr (A.FLT_BAYCFG 0) 4 64 a then some ((a - A.FLT_BAYCFG 0) / 32, true)
    else if inArr (A.FLT_FIR 0 0) 4 6144 a then some (s.sigBay ((a - A.FLT_FIR 0 0) / 256), true)
    else none

/-- A stage of a lane of bay `b` uses user set `u` (design code 4 + u). -/
def State.usesSet (s : State) (b u : Nat) : Bool :=
  (s.baySigs b).any (fun x => (s.sigStages x).any (fun p => s.design p.1 p.2 == 4 + u))

/-- User sets that a register's new word changes. -/
def State.userSets (s : State) (e : Nat × Word) : List Nat :=
  if e.1 = A.FLT_HBU_CFG then
    [0, 1].filter (fun u => let f := if u = 0 then F.FLT_HBU_CFG_M0 else F.FLT_HBU_CFG_M1; fldGet f e.2 != s.fld A.FLT_HBU_CFG f)
  else if inArr (A.FLT_HBU 0 0) 4 32 e.1 then [(e.1 - A.FLT_HBU 0 0) / 64] else []

/-- The change waits for the bay's boundary. -/
def State.putBayDue (s : State) (b : Nat) (c : BayChange) : State :=
  { s with cfg := { s.cfg with bayDue := tabMod [] s.cfg.bayDue b (· ++ [c]) } }

/-- What the changes `l` of overlay `k` at T mean for bay `b`. -/
def State.bayChange (s : State) (l : List (Nat × Word)) (t k b : Nat) : BayChange :=
  let mine (chain : Bool) := l.filter (fun e => s.ovlPlace e.1 == some (b, chain))
  { t := t, k := k, stop := l.any (fun e => (s.userSets e).any (fun u => s.usesSet b u)), chain := mine true, prot := mine false }

/-- A value that applies at T: a lane without a bay has the effects of R63, every other register takes its word. -/
def State.applyNow (s : State) (e : Nat × Word) : State :=
  if inArr (A.ACQ_LANE 0) 4 128 e.1 then s.applyChainReg s.tim.smp e else s.setReg e.1 e.2

/-- The first sample a newly enabled stream publishes is the first at or after now. -/
def State.svEnable (s : State) (b : Nat) : State :=
  { s with net := { s.net with svp := tabPut svPubInit s.net.svp b { next := some (gridIx (s.fixedRate b) s.tim.now + 1) } } }

/-- What follows the values that apply at T; `old` is the state before them. -/
def State.ovlFollow (s old : State) (k : Nat) (l : List (Nat × Word)) : State :=
  let hit (a : Nat) : Bool := l.any (fun e => e.1 == a)
  let s1 := s.almChange old
  let s2 := s1.forEach (List.range 16) (fun p s =>
    if hit (A.CAP_PLAN_CFG p) || hit (A.CAP_PLAN_WIN p) then
      s.capPlanChange p (old.bit (A.CAP_PLAN_CFG p) 31) (old.fld (A.CAP_PLAN_WIN p) F.CAP_PLAN_WIN_PRE) else s)
  let s3 := s2.forEach (List.range 1024) (fun e s => if hit (A.PEL_CTL e) then s.pealEnable e else s)
  let s4 := s3.forEach (List.range 64) (fun m s =>
    if !hit (A.HNK_MOD_CFG m) then s
    else if s.bit (A.HNK_MOD_CFG m) 31 then s.hankEnable m else s.hankDisable m)
  let s5 := s4.forEach (List.range 8) (fun b s =>
    if hit (A.NET_SVP_CFG b) && s.bit (A.NET_SVP_CFG b) 31 then s.svEnable b else s)
  let s6 := if hit A.CAL_ROT_CFG then s5.rotSync else s5
  if l.any (fun e => inArr (A.PRT_TCH_CFG 0) 4 32 e.1) then s6.raise Ev.PRT_SETTING k else s6

/-! ### The commissioning overlay (R257, R258, R260) -/

/-- The commissioning overlay is in force. -/
def State.commOn (s : State) : Bool :=
  let c := s.fld A.HDL_CFG F.HDL_CFG_COMOVL
  c != 0 && c == s.fld A.CFG_OVL F.CFG_OVL_INFORCE

/-- A force entry lies on block-source or trip-request octets of Q. -/
def guardedForce (cfg : Word) : Bool := fldGet F.HDL_FRC_CFG_AREA cfg == 2 && Nat.blt (forceBits cfg).1 (8 * 0x204)

/-- A force waiting for T_apply that lies there. -/
def LogicAct.guarded : LogicAct → Bool
  | .force _ area size addr _ => area == 2 && Nat.blt (if size = 0 then addr else 8 * addr) (8 * 0x204)
  | _ => false

/-- HDL_STAT.COMM follows INFORCE; as the commissioning overlay leaves force the entries it allowed are released, forces on their ranges
that wait for T_apply go, and HOLD changes to STOP. -/
def State.commFollow (s : State) : State :=
  let was := s.bit A.HDL_STAT 27
  let s1 := s.setBit A.HDL_STAT 27 s.commOn
  if was && !s1.commOn then
    let s2 := s1.forEach (List.range 256) (fun e s => if guardedForce (s.reg (A.HDL_FRC_CFG e)) then s.forceOff e else s)
    let s2 : State := { s2 with hdl := { s2.hdl with acts := s2.hdl.acts.filter (fun a => !a.2.guarded) } }
    if s2.logicMode = 2 then s2.stopLogic else s2
  else s1

/-! ### Taking effect (R434) -/

/-- Overlay `k` comes into force at T: INFORCE changes, each value goes to its point of R435 (an ARC instance's to its bay's next Watchman
feed sample). `src` is the requesting source of note 3,
none where no request stands behind the change. -/
def State.ovlSwitch (s : State) (k t : Nat) (src : Option Nat) : State :=
  let was := s.fld A.CFG_OVL F.CFG_OVL_INFORCE
  if was = k then s
  else
    let l := s.ovlChanges was k
    let arc := l.filterMap (fun e => ((instAddr e.1).filter s.isArc).map (fun x => (x, e)))
    let now := l.filter (fun e => (s.ovlPlace e.1).isNone && (instAddr e.1).isNone)
    let s1 := s.setFld A.CFG_OVL F.CFG_OVL_INFORCE k
    let s2 := match src with
      | some r => (s1.incWrap A.CFG_OVL_CNT F.CFG_OVL_CNT_APPLIED).note 3 [BitVec.ofNat 32 was, BitVec.ofNat 32 k, BitVec.ofNat 32 r]
      | none => s1
    let s3 := s2.forEach (List.range 8) (fun b s =>
      let c := s.bayChange l t k b
      if c.stop || !c.chain.isEmpty || !c.prot.isEmpty then s.putBayDue b c else s)
    let s3 : State := { s3 with cfg := { s3.cfg with arcDue := s3.cfg.arcDue ++ arc } }
    let s4 := (s3.forEach now (fun e s => s.applyNow e)).ovlFollow s3 k now
    (s4.commFollow).releaseBySource 6 none

/-- OVERLAY_TAKE_EFFECT: the pending activation of the earliest T, once T has come. -/
def doOverlayTakeEffect (s : State) : State :=
  match s.cfg.acts with
  | [] => s
  | a :: rest =>
    if s.tim.now < a.t then s
    else
      let s1 : State := { s with cfg := { s.cfg with acts := rest } }
      s1.ovlSync.ovlSwitch a.k a.t (some a.src)

def execOverlayTakeEffect (s : State) : Host.Outcome State Fault Refusal := .next (s.awake doOverlayTakeEffect)

end Sys2Proof.Machine
end

