-- ==== Sys2Proof/Machine/Twin.lean ====
section
/-! DEFINITION. The operations of a twin (chapter 14): roles and what follows a change of role (R370, R371), the claim and the gate
(R372–R375), takeover (R383, R388), admission (R369), the copy (R385, R386), merging and agreement (R376, R377, R387). -/

namespace Sys2Proof.Machine

/-! ### State of the link and the peer -/

def State.claiming (s : State) : Bool := s.bit A.PLY_STAT 27
def State.peerClaims (s : State) : Bool := s.bit A.PLY_STAT 26
def State.linkUp (s : State) : Bool := s.bit A.PLY_STAT 24
def State.isol (s : State) : Bool := s.bit A.PLY_STAT 23
def State.takeOk (s : State) : Bool := s.bit A.PLY_STAT 22
def State.jstep (s : State) : Nat := s.fld A.PLY_STAT F.PLY_STAT_JSTEP
def State.peerRole (s : State) : Nat := s.fld A.PLY_PEERST F.PLY_PEERST_PROLE

/-- A 384-bit digest from its words, the inverse of `hashWord`. -/
def hashOf (f : Nat → Word) : BitVec 384 :=
  BitVec.ofNat 384 ((List.range 12).foldl (fun a w =>
    let x := (f w).toNat
    a * 2 ^ 32 + x % 256 * 2 ^ 24 + x / 256 % 256 * 65536 + x / 65536 % 256 * 256 + x / 2 ^ 24) 0)

/-- The identity digest (R463), as SEC_ID shows it. -/
def State.ownDigest (s : State) : BitVec 384 := hashOf (fun w => s.reg (A.SEC_ID w))

/-- What this ply sends of itself (R369), while it has a role. -/
def State.sendIdentity (s : State) : State := if s.role = 7 then s else s.plySend .identity

/-! ### Claim, gate and role -/

/-- The gate follows the two claims (R372). -/
def State.gateSync (s : State) : State := (s.setBit A.PLY_STAT 25 (s.claiming && !s.peerClaims)).gateGout

/-- The claim's first edge (R372), which also starts the claim watchdog (R375). -/
def State.startClaim (s : State) : State :=
  let s1 : State := { s with ply := { s.ply with claimFed := s.tim.up, claimAt := some s.tim.up, backoff := none } }
  (s1.setBit A.PLY_STAT 27 true).gateSync

/-- The claim's last edge. -/
def State.stopClaim (s : State) : State :=
  let s1 : State := { s with ply := { s.ply with claimAt := none } }
  (s1.setBit A.PLY_STAT 27 false).gateSync

/-- A role change (R371): PLY_ROLE, the outputs and transmitters of the new role, and the peer is told. A ply held at a breakpoint that
becomes ACTOR stops its logic (R260). -/
def State.setRole (s : State) (r : Nat) : State :=
  if s.role = r then s
  else
    let s1 := (s.setFld A.PLY_STAT F.PLY_STAT_ROLE r).raise Ev.PLY_ROLE r
    let s2 := (((s1.gateGout).netActive).spnTwin).drivePins
    let s3 := if r = 1 ∧ s2.logicMode = 2 then s2.stopLogic else s2
    s3.sendIdentity

/-- Enter JOINING at its first step (R385). -/
def State.startJoin (s : State) : State :=
  let s1 : State := { s with ply := { s.ply with lost := true, waiting := [], early := [], shadowN := [], stream := none } }
  let s2 := (((s1.setFld A.PLY_STAT F.PLY_STAT_JSTEP 1).setBit A.PLY_STAT 23 false).setBit A.PLY_STAT 22 false).setBit A.PLY_STAT 21 false
  let s3 := (s2.setBit A.PLY_STAT 19 false).forEach (List.range 8) (fun b s =>
    (s.setFld (A.PLY_BAY b) F.PLY_BAY_SHADOW 0).setFld (A.PLY_BAY b) F.PLY_BAY_CONSEC 0)
  if s3.role = 3 then s3.sendIdentity else s3.setRole 3

/-- QUARANTINED with its reason (R369). -/
def State.quarantine (s : State) (reason : Nat) : State :=
  let s1 := if s.claiming then s.stopClaim else s
  let s2 := ((s1.netStop.setFld A.PLY_STAT F.PLY_STAT_JSTEP 0).setBit A.PLY_STAT 22 false).setFld A.PLY_PEERST F.PLY_PEERST_QREASON reason
  (s2.setRole 4).raise Ev.PLY_QUARANTINE reason

/-- The shadow pass is over: FOLLOWER, ready to take over. -/
def State.becomeFollower (s : State) : State :=
  let s1 : State := { s with ply := { s.ply with lost := false } }
  (((s1.setFld A.PLY_STAT F.PLY_STAT_JSTEP 0).setBit A.PLY_STAT 22 true).setRole 2).raise Ev.PLY_PEER_JOINED noIndex

/-- The peer is counted lost (R377). -/
def State.peerLost (s : State) : State :=
  if s.ply.lost then s
  else
    let s1 : State := { s with ply := { s.ply with lost := true } }
    s1.raise Ev.PLY_PEER_LOST noIndex

/-! ### Merging and agreement (R376, R377, R387) -/

/-- The ply merges its published states with a living peer's, or compares them in the shadow pass. -/
def State.merging (s : State) : Bool :=
  s.linkUp && !s.ply.lost && (s.role == 2 || (s.role == 1 && s.peerRole == 2) || (s.role == 3 && s.jstep == 3))

/-- The published states of a bay. -/
def State.putMerged (s : State) (bits : List (Nat × (Bool × Bool))) : State :=
  { s with ply := { s.ply with merged := bits.foldl (fun t e => tabPut (false, false) t e.1 e.2) s.ply.merged } }

/-- The peer's bits of an instance. -/
def peerBits (l : List (Nat × (Bool × Bool))) (x : Nat) : Option (Bool × Bool) := (l.find? (fun e => e.1 == x)).map (fun e => e.2)

/-- The OR of two plies' results. -/
def mergeBits (own peer : List (Nat × (Bool × Bool))) : List (Nat × (Bool × Bool)) :=
  own.map (fun e => let p := (peerBits peer e.1).getD (false, false); (e.1, (e.2.1 || p.1, e.2.2 || p.2)))

/-- Every armed bay has 100 agreeing frames in a row. -/
def State.shadowDone (s : State) : Bool :=
  (List.range 8).all (fun b => !s.bit A.PRT_STAT (24 + b) || s.fld (A.PLY_BAY b) F.PLY_BAY_SHADOW == 100)

/-- The shadow pass ends when it is done. -/
def State.shadowCheck (s : State) : State := if s.role = 3 ∧ s.jstep = 3 ∧ s.shadowDone then s.becomeFollower else s

/-- A follower or joiner compares a frame with the actor's (R387). -/
def State.agree (s : State) (b : Nat) (own peer : List (Nat × (Bool × Bool))) : State :=
  if s.role ≠ 2 ∧ s.role ≠ 3 then s
  else if own.all (fun e => peerBits peer e.1 == some e.2) then
    (s.setFld (A.PLY_BAY b) F.PLY_BAY_SHADOW (min 100 (s.fld (A.PLY_BAY b) F.PLY_BAY_SHADOW + 1))).shadowCheck
  else
    let s1 := (s.setFld (A.PLY_BAY b) F.PLY_BAY_SHADOW 0).incSat A.PLY_CNT_B F.PLY_CNT_B_DISAGREE Ev.PLY_CNT_SAT noIndex
    if s1.role = 2 then s1.raiseLim Ev.PLY_DISAGREE 0 b else s1

/-- Own and peer results of one frame are merged and published. -/
def State.mergeNow (s : State) (b wait : Nat) (own peer : List (Nat × (Bool × Bool))) : State :=
  let s1 : State := { s with ply := { s.ply with waiting := tabPut none s.ply.waiting b none } }
  let s2 := (s1.putMerged (mergeBits own peer)).setFld (A.PLY_BAY b) F.PLY_BAY_WAIT wait
  (s2.setFld (A.PLY_BAY b) F.PLY_BAY_CONSEC 0).agree b own peer

/-- Results of a bay that stand on its ring Q32–Q39 to the Ply link. -/
def State.plyRing (s : State) (b : Nat) : Nat :=
  (s.ply.sent.filter (fun m => match m with
    | .results c _ _ => c == b
    | _ => false)).length

/-- Results of a frame enter the bay's ring to the Ply link; one that four fill takes none, and they are missing at the peer (R18). -/
def State.sendResults (s : State) (b n : Nat) (bits : List (Nat × (Bool × Bool))) : State :=
  if 4 ≤ s.plyRing b then s else s.plySend (.results b n bits)

/-- Results go to the Ply link, refresh the claim watchdog, and are published, at once or after the merge (R375, R376). -/
def State.publish (s : State) (b n : Nat) (bits : List (Nat × (Bool × Bool))) : State :=
  let s1 : State := { s with ply := { s.ply with claimFed := s.tim.up } }
  if s1.role = 0 then s1.putMerged bits
  else
    let s2 := s1.sendResults b n bits
    let s3 : State := if s2.role = 3 then { s2 with ply := { s2.ply with shadowN := tabMod 0 s2.ply.shadowN b (· + 1) } } else s2
    if !s3.merging then s3.putMerged bits
    else match tabGet none s3.ply.early b with
      | some r =>
        let s4 : State := { s3 with ply := { s3.ply with early := tabPut none s3.ply.early b none } }
        if r.n = n then s4.mergeNow b 0 bits r.bits
        else { s4 with ply := { s4.ply with waiting := tabPut none s4.ply.waiting b (some { n := n, bits := bits, at_ := s4.tim.up }) } }
      | none => { s3 with ply := { s3.ply with waiting := tabPut none s3.ply.waiting b (some { n := n, bits := bits, at_ := s3.tim.up }) } }

/-! ### Takeover (R383, R388) -/

/-- Which values of a dataset are compared with the last shipped one: times and launch times are not. -/
def datasetMask : List PubMember → List (List GooseVal × BitVec 13) → List Bool
  | m :: l, c :: cs => (if m.kind = 6 then [false] else if m.kind = 8 then [false, false] else c.1.map (fun _ => true)) ++ datasetMask l cs
  | _, _ => []

/-- The dataset of a block is the last shipped one. -/
def State.sameDataset (s : State) (b : PubBlock) (core : List (List GooseVal × BitVec 13)) (shipped : List GooseVal) : Bool :=
  let own := s.pubVals 0 b.members core (core.map (fun _ => 0)) 0
  own.length == shipped.length &&
    (((datasetMask b.members core).zip (own.zip shipped)).all (fun e => !e.1 || decide (e.2.1 = e.2.2)))

/-- A new actor's GOOSE blocks: a dataset that differs from the last shipped one, or every block where the counters are stale, starts a
new state; the others continue their schedule. -/
def State.gooseTakeover (s : State) (fresh : Bool) : State :=
  s.forEach (List.range 32) (fun g s =>
    match s.pubBlock g with
    | none => s
    | some b =>
      let p := s.pub g
      if !s.pubOn g || !p.started then s
      else
        let core := s.pubCore b.members 0
        if fresh || !s.sameDataset b core p.shipped then s.newState g b 0
        else s.setPub g { p with core := core, changed := core.map (fun _ => p.t) })

/-- A new actor's Hank modules: joined ones go on being exchanged, the rest, or all where the counters are stale, join. -/
def State.hankTakeover (s : State) (fresh : Bool) : State :=
  s.forEach (List.range 64) (fun m s =>
    if (s.hankDecl m).isNone || !s.bit (A.HNK_MOD_CFG m) 31 then s
    else if s.modState m = 2 && !fresh then
      s.setMod m { s.hnkMod m with exchange := true, nextOut := s.hankNext m (s.tim.now + 20000) }
    else s.hankJoin m)

/-- The ply becomes ACTOR: it claims, and transmits its own content. With stale counters (ISOL) the PRP numbers advance by 32,768. -/
def State.becomeActor (s : State) : State :=
  let fresh := s.isol
  let s1 := ((s.setFld A.PLY_STAT F.PLY_STAT_JSTEP 0).setBit A.PLY_STAT 22 false).setBit A.PLY_STAT 23 false
  let s2 := s1.startClaim.setRole 1
  let s3 : State := if fresh then { s2 with net := { s2.net with
      prpSeq := [0, 1].foldl (fun t k => tabPut 0 t k ((tabGet 0 t k + 32768) % 65536)) s2.net.prpSeq } } else s2
  (s3.gooseTakeover fresh).hankTakeover fresh

/-- A follower or joiner takes over from an actor that failed or yielded. -/
def State.takeover (s : State) : State :=
  let joiner := s.role = 3
  let s1 := ((s.setReg64 A.PLY_LASTTO_LO A.PLY_LASTTO_HI s.tim.now).incWrap A.PLY_CNT_C F.PLY_CNT_C_TAKEOVERS).setBit A.PLY_STAT 19 joiner
  s1.becomeActor.raise Ev.PLY_TAKEOVER noIndex

/-- The ply may take over: FOLLOWER with TAKEOK, or JOINING once the actor has admitted it. -/
def State.mayTake (s : State) : Bool := (s.role == 2 && s.takeOk) || (s.role == 3 && Nat.ble 2 s.jstep)

/-! ### The copy (R385, R386) -/

/-- Octet lies in the retentive W words. -/
def State.retentive (s : State) (a : Nat) : Bool := Nat.ble wBase a && Nat.blt a (wBase + 2 * s.hdl.retn)

/-- Octet lies in the C area. -/
def inC (a : Nat) : Bool := Nat.ble cBase a && Nat.blt a kBase

/-- Register of the force table. -/
def inForce (a : Nat) : Bool := inArr (A.HDL_FRC_CFG 0) 4 1024 a

/-- Register of a live bin or tracker result. -/
def inBins (a : Nat) : Bool := Nat.ble (A.ALM_BIN 0) a && Nat.blt a (A.ALM_XL_MIN 1024)

/-- Online-changed values by tunable. -/
def State.onlineVals (s : State) : List (Nat × Word) := s.hdl.online.filterMap (fun e => e.2.map (fun w => (e.1, w)))

/-- The motor of a bay as saved and copied (R180). -/
def State.motorCopy (s : State) (b : Nat) : MotorCopy :=
  let m := s.motor b
  { state := m.state, thetaS := m.thetaS, thetaR := m.thetaR, dth := m.dth, starts := s.reg (A.PRT_MOT_STARTS b), startList := m.startList }

def State.motorCopies (s : State) : List MotorCopy := (List.range 8).map s.motorCopy

/-- The items of R386 as they stand. -/
def State.snapshotNow (s : State) : Snapshot :=
  { crcOk := true, retW := s.mem.filter (fun e => s.retentive e.1), cArea := s.mem.filter (fun e => inC e.1), online := s.onlineVals
    force := s.regs.filter (fun e => inForce e.1), logicMode := s.logicMode, overlay := s.fld A.CFG_OVL F.CFG_OVL_INFORCE
    motors := s.motorCopies
    loops := ((List.range 512).filter s.spnDecl).map (fun b => (b, (s.loopB b).values (s.spnOut b)))
    bins := s.regs.filter (fun e => inBins e.1), captureNext := s.reg A.CAP_NEXTREC
    prpSeqS := BitVec.ofNat 16 (tabGet 0 s.net.prpSeq 0), prpSeqP := BitVec.ofNat 16 (tabGet 0 s.net.prpSeq 1)
    gooseNums := ((List.range 32).filter (fun g => (s.pub g).started)).map (fun g => (g, (s.reg (A.NET_GP_STNUM g), s.reg (A.NET_GP_SQNUM g))))
    hankNums := ((List.range 64).filter (fun m => (s.hankDecl m).isSome)).map (fun m => (m, s.reg (A.HNK_MOD_SEQ m)))
    tlrn := (List.range 8).map (fun b => (b, s.reg (A.PEL_CC_TLRN b)))
    frameCounts := (List.range 8).map (fun b => (b, (s.bayChain b).n)), freqs := (List.range 8).map (fun b => (b, (s.bayChain b).ft)) }

/-- Replace the octets that satisfy `p`. -/
def State.putMem (s : State) (p : Nat → Bool) (l : List (Nat × Byte)) : State :=
  let s0 : State := { s with mem := s.mem.filter (fun e => !p e.1) }
  s0.forEach (l.filter (fun e => p e.1)) (fun e s => s.setOctet e.1 e.2)

/-- Replace the registers that satisfy `p`. -/
def State.putRegs (s : State) (p : Nat → Bool) (l : List (Nat × Word)) : State :=
  let s0 := s.forEach ((s.regs.map (fun e => e.1)).filter p) (fun a s => s.setReg a (regReset a))
  s0.forEach (l.filter (fun e => p e.1)) (fun e s => s.setReg e.1 e.2)

/-- The force table takes its entries at once, with FORCE_IND (R263). -/
def State.putForce (s : State) (l : List (Nat × Word)) : State :=
  let s1 := s.putRegs inForce l
  let s2 := s1.forEach (List.range 256) (fun e s =>
    if s.bit (A.HDL_FRC_CFG e) 31 && s.fld (A.HDL_FRC_CFG e) F.HDL_FRC_CFG_AREA == 2 then s.forceQ e else s)
  s2.forceSync

/-- Online-changed values are applied again. -/
def State.putOnline (s : State) (l : List (Nat × Word)) : State :=
  s.forEach l (fun e s =>
    match s.hdl.tunables[e.1]? with
    | some t =>
      let s1 := s.tunablePut t e.2
      { s1 with hdl := { s1.hdl with online := tabPut none s1.hdl.online e.1 (some e.2) } }
    | none => s)

/-- A bay's motor takes a copy. -/
def State.putMotor (s : State) (b : Nat) (c : MotorCopy) : State :=
  let s1 := s.setMotor b { s.motor b with state := c.state, thetaS := c.thetaS, thetaR := c.thetaR, dth := c.dth, startList := c.startList }
  let s2 := s1.setReg (A.PRT_MOT_STARTS b) c.starts
  match s2.thmOf b with
  | some t => s2.motorSync b t
  | none => s2

/-- A GOOSE block's numbers are copied. -/
def State.putPubNums (s : State) (g : Nat) (st sq : Word) : State :=
  ((s.setPub g { s.pub g with started := true }).setReg (A.NET_GP_STNUM g) st).setReg (A.NET_GP_SQNUM g) sq

/-- The joiner applies a snapshot as one unit, in place of its own save of these items. -/
def State.applyCopy (s : State) (c : Snapshot) : State :=
  let s1 := (s.putMem s.retentive c.retW).putMem inC c.cArea
  let s2 : State := { s1 with hdl := { s1.hdl with online := [] } }
  let s3 := ((s2.putOnline c.online).putForce c.force).putRegs inBins c.bins
  let s4 := if c.logicMode = 0 then s3.runLogic else s3.stopLogic
  let s5 := (s4.ovlSwitch c.overlay s4.tim.now none).setReg A.CAP_NEXTREC c.captureNext
  let s6 := s5.forEach c.motors.zipIdx (fun e s => s.putMotor e.2 e.1)
  let s7 : State := { s6 with
    spn := { s6.spn with rx := c.loops.foldl (fun t e => tabPut none t e.1 (some e.2)) s6.spn.rx }
    net := { s6.net with prpSeq := tabPut 0 (tabPut 0 s6.net.prpSeq 0 c.prpSeqS.toNat) 1 c.prpSeqP.toNat } }
  let s8 := s7.forEach c.gooseNums (fun e s => s.putPubNums e.1 e.2.1 e.2.2)
  let s9 := (s8.forEach c.hankNums (fun e s => s.setReg (A.HNK_MOD_SEQ e.1) e.2)).forEach c.tlrn (fun e s => s.setReg (A.PEL_CC_TLRN e.1) e.2)
  let s10 := s9.forEach c.frameCounts (fun e s => s.setBayChain e.1 { s.bayChain e.1 with n := e.2 })
  s10.forEach c.freqs (fun e s => s.setBayChain e.1 { s.bayChain e.1 with ft := e.2 })

/-- The entries of `new` that `old` does not hold, and `none` for keys that only `old` holds. -/
def changedIn {α : Type} [DecidableEq α] (old new : List (Nat × α)) : List (Nat × Option α) :=
  (new.filter (fun e => !old.contains e)).map (fun e => (e.1, some e.2)) ++
    (old.filter (fun e => !(new.any (fun x => x.1 == e.1)))).map (fun e => (e.1, none))

/-- What changed between two snapshots, as the actor streams it (R385). Loop values and tracking timelines travel in messages of their
own. -/
def streamChanges (old new : Snapshot) : List StreamedChange :=
  (changedIn (old.retW ++ old.cArea) (new.retW ++ new.cArea)).map (fun e => .mem e.1 (e.2.getD 0)) ++
  (changedIn (old.force ++ old.bins) (new.force ++ new.bins)).map (fun e => .reg e.1 (e.2.getD (regReset e.1))) ++
  (changedIn old.online new.online).filterMap (fun e => e.2.map (fun w => .online e.1 w)) ++
  (if old.overlay = new.overlay then [] else [.overlay new.overlay]) ++
  (if old.logicMode = new.logicMode then [] else [.mode new.logicMode]) ++
  ((old.motors.zip new.motors).zipIdx.filter (fun e => decide (e.1.1 ≠ e.1.2))).map (fun e => .motor e.2 e.1.2) ++
  (if old.captureNext = new.captureNext then [] else [.reg A.CAP_NEXTREC new.captureNext]) ++
  (if old.prpSeqS = new.prpSeqS ∧ old.prpSeqP = new.prpSeqP then [] else [.prp new.prpSeqS new.prpSeqP]) ++
  (new.gooseNums.filter (fun e => !old.gooseNums.contains e)).flatMap (fun e =>
    [.reg (A.NET_GP_STNUM e.1) e.2.1, .reg (A.NET_GP_SQNUM e.1) e.2.2]) ++
  (new.hankNums.filter (fun e => !old.hankNums.contains e)).map (fun e => .reg (A.HNK_MOD_SEQ e.1) e.2) ++
  (new.tlrn.filter (fun e => !old.tlrn.contains e)).map (fun e => .reg (A.PEL_CC_TLRN e.1) e.2)

/-- While its peer joins, the actor streams what changed since the snapshot or the last change sent. -/
def State.plyTick (s : State) : State :=
  let s0 : State := { s with ply := { s.ply with sent := [] } }
  match s0.ply.stream with
  | none => s0
  | some old =>
    if s0.role ≠ 1 ∨ s0.peerRole ≠ 3 then { s0 with ply := { s0.ply with stream := none } }
    else
      let new := s0.snapshotNow
      let l := streamChanges old new
      let s1 : State := { s0 with ply := { s0.ply with stream := some new } }
      s1.forEach l (fun c s => s.plySend (.change c))

end Sys2Proof.Machine
end

