-- ==== Sys2Proof/Machine/FrameStep.lean ====
section
/-! DEFINITION. FRAME_PROCESS: the engine takes the oldest frame of a bay's ring, measures it, evaluates the bay's instances and posts
the results (R119, R19–R21), published at once or after the merge of a twin (R376). -/

namespace Sys2Proof.Machine

/-- Steps 2 and 3 of R119 on a measured frame. -/
def State.evaluate (s : State) (cx : FrameCx) (ns : Nat) : State :=
  let b := cx.b
  let before := s.bayBits b
  let s1 := s.armSync b
  let s2 := s1.motorStep cx
  let s3 := (s2.forEach (s2.bayInsts b) (fun x s => s.evalInst cx x)).holdDefaults
  let s4 := match s3.thmOf b with
    | some t => (s3.motorSync b t).trstSync b
    | none => s3
  let bits := s4.bayBits b
  let s6 := (s4.interruptFrame b cx.fr.per).riseEvents b before bits
  let s7 := ((s6.imageBits bits).postResults cx bits).publish b cx.fr.n bits
  (s7.resultTime b cx.fr.engine ns).protUp

/-- FRAME_PROCESS: `resNs` is the time from the frame's close to its results. The frame completes on the engine it was posted to (R22),
once that engine's cluster is awake (R17). -/
def doFrameProcess (bay : Fin 8) (resNs : Nat) (s : State) : State :=
  let b := bay.val
  let c := s.bayChain b
  match c.ring with
  | [] => s
  | fr :: rest =>
    if 8 ≤ fr.engine || s.inWatchman || s.gateHolds (fr.engine / 4) then s
    else
      let s1 := (s.setBayChain b { c with ring := rest }).setFld (A.FLT_FRMRT b) F.FLT_FRMRT_FILL rest.length
      let s2 := (s1.wakeFor (fr.engine / 4)).prtBoundary b fr.n
      let (cx, s3) := s2.measure b fr
      s3.evaluate cx resNs

/-! ### Steps as executed -/

def execFrameProcess (bay : Fin 8) (resNs : Nat) (s : State) : Host.Outcome State Fault Refusal :=
  .next (s.awake (doFrameProcess bay resNs))

end Sys2Proof.Machine
end

