-- ==== Sys2Proof/Machine/LogicCheck.lean ====
section
/-! DEFINITION. The static checks of a logic program at image validation (R230). -/

namespace Sys2Proof.Machine

/-- How an instruction takes its operand: none, a bit, a word, a timer, a counter, a jump target, a call target or device parameters. -/
inductive OperandKind where
  | plain
  | bitOp
  | wordOp
  | timer
  | counter
  | jump
  | call
  | device
  deriving DecidableEq, Repr

/-- An opcode's operand kind, the areas it permits and whether it writes its operand (R231–R239). -/
def opcodeRow (opc : Nat) : Option (OperandKind × (List Nat × Bool)) :=
  match opc with
  | 0x01 => some (.bitOp, [1, 2, 3, 4, 5, 6], false)
  | 0x09 => some (.bitOp, [2, 3, 4], true)
  | 0x0A => some (.bitOp, [2, 3, 4], true)
  | 0x0B => some (.bitOp, [2, 3, 4], true)
  | 0x0E => some (.bitOp, [3], true)
  | 0x0F => some (.bitOp, [3], true)
  | 0x0C => some (.plain, [0], false)
  | 0x0D => some (.plain, [0], false)
  | 0x18 => some (.plain, [0], false)
  | 0x1B => some (.plain, [0], false)
  | 0x1C => some (.plain, [0], false)
  | 0x20 => some (.wordOp, [0, 1, 2, 3, 4, 5, 6, 7], false)
  | 0x21 => some (.wordOp, [2, 3, 4], true)
  | 0x22 => some (.plain, [0], false)
  | 0x23 => some (.plain, [0], false)
  | 0x2D => some (.plain, [0], false)
  | 0x2E => some (.plain, [0], false)
  | 0x2F => some (.plain, [0], false)
  | 0x33 => some (.plain, [0], false)
  | 0x44 => some (.plain, [0], false)
  | 0x45 => some (.plain, [0], false)
  | 0x46 => some (.plain, [0], false)
  | 0x47 => some (.plain, [0], false)
  | 0x50 => some (.jump, [0], false)
  | 0x51 => some (.jump, [0], false)
  | 0x52 => some (.jump, [0], false)
  | 0x53 => some (.jump, [0], false)
  | 0x54 => some (.jump, [0], false)
  | 0x58 => some (.call, [0], false)
  | 0x59 => some (.call, [0], false)
  | 0x5A => some (.plain, [0], false)
  | 0x5B => some (.plain, [0], false)
  | 0x60 => some (.timer, [5], true)
  | 0x61 => some (.timer, [5], true)
  | 0x7F => some (.plain, [0], false)
  | n =>
    if (Nat.ble 0x28 n && Nat.ble n 0x2C) || (Nat.ble 0x30 n && Nat.ble n 0x32) || n == 0x38 || (Nat.ble 0x40 n && Nat.ble n 0x43) then
      some (.wordOp, [0, 1, 2, 3, 4, 5, 6, 7], false)
    else if Nat.ble 0x34 n && Nat.ble n 0x37 then some (.plain, [0], false)
    else if Nat.ble 0x64 n && Nat.ble n 0x67 then some (.counter, [6], true)
    else if Nat.ble 0x70 n && Nat.ble n 0x75 then some (.device, [0], false)
    else none

/-- Octets of I that are not reserved (R224). -/
def iKnown (o : Nat) : Bool :=
  Nat.ble o 0x0C || (Nat.ble 0x10 o && Nat.ble o 0x93) || (Nat.ble 0xA0 o && Nat.ble o 0xB7) || (Nat.ble 0x100 o && Nat.ble o 0x10F) ||
    (Nat.ble 0x200 o && Nat.ble o 0x3FF) || (Nat.ble 0x1000 o && Nat.ble o 0x6FFF)

/-- No octet of an access of `n` octets to I or Q is reserved. -/
def rangeKnown (area o n : Nat) : Bool :=
  (List.range n).all (fun k => if area = 1 then iKnown (o + k) else if area = 2 then qKnown (o + k) else true)

/-- A direct operand lies in its area, aligned, outside reserved ranges. -/
def operandOk (k : OperandKind) (w : BitVec 64) : Bool :=
  let a := insAddr w
  let area := insArea w
  if insInd w then true
  else match k with
    | .bitOp => Nat.blt a (bitBound area) && rangeKnown area (a / 8) 1
    | .wordOp => area == 0 || (wordFault area (insSize w) a == 0 && rangeKnown area a (sizeOctets (insSize w)))
    | .timer => Nat.blt a tCount
    | .counter => Nat.blt a cCount
    | _ => true

/-- A block's instruction at index i. -/
def codeAt (code : List (BitVec 64)) (i : Nat) : BitVec 64 := code.getD i 0

/-- The stack of open groups before each instruction of a block, as the indices of their GRPs; or the index of the instruction where a
group is left open, closed without being opened, nested more than 16 deep or begun by a wrong instruction. -/
def groupStacks (code : List (BitVec 64)) (i : Nat) (open_ : List Nat) : Nat → Except Nat (List (List Nat))
  | 0 => if open_.isEmpty then .ok [] else .error (i - 1)
  | n + 1 =>
    let w := codeAt code i
    let opc := insOpc w
    if opc = 0x18 then
      if insComb w = 0 ∨ 16 ≤ open_.length then .error i
      else if insComb (codeAt code (i + 1)) ≠ 0 then .error (i + 1)
      else (groupStacks code (i + 1) (i :: open_) n).map (fun l => open_ :: l)
    else if opc = 0x1B then
      match open_ with
      | [] => .error i
      | _ :: t => (groupStacks code (i + 1) t n).map (fun l => open_ :: l)
    else if (opc = 0x5A ∨ opc = 0x5B) ∧ !open_.isEmpty then .error i
    else (groupStacks code (i + 1) open_ n).map (fun l => open_ :: l)

/-- One instruction of a block passes the checks that concern it alone, its jump and its call. -/
def insOk (L : LogicSection) (b : LogicBlock) (gs : List (List Nat)) (i : Nat) : Bool :=
  let w := codeAt L.code i
  match opcodeRow (insOpc w) with
  | none => false
  | some (k, areas, _) =>
    w.toNat / 2 ^ 40 % 128 == 0 && areas.contains (insArea w) && operandOk k w &&
    (match k with
     | .jump =>
       let t := insAddr w % 65536
       Nat.ble b.start t && Nat.blt t (b.start + b.length) && gs.getD (t - b.start) [] == gs.getD (i - b.start) []
     | .call => L.blocks.any (fun c => c.callable && c.start == insAddr w % 65536)
     | _ => true) &&
    insOpc w != (if b.callable then 0x5B else 0x5A)

/-- The block that instruction i calls. -/
def calleeAt (L : LogicSection) (i : Nat) : Option LogicBlock :=
  let w := codeAt L.code i
  if insOpc w = 0x58 ∨ insOpc w = 0x59 then L.blocks.find? (fun c => c.callable && c.start == insAddr w % 65536) else none

/-- The instructions of a block. -/
def blockIns (b : LogicBlock) : List Nat := (List.range b.length).map (b.start + ·)

/-- The static call depth below a block is at most `n`; a recursion exceeds every depth. -/
def callDepthOk (L : LogicSection) (b : LogicBlock) : Nat → Bool
  | 0 => (blockIns b).all (fun i => (calleeAt L i).isNone)
  | n + 1 => ((blockIns b).filterMap (calleeAt L)).all (fun c => callDepthOk L c n)

/-- The most groups that a block opens on any path, those of its calls included, `n` calls deep. -/
def groupMax (L : LogicSection) (b : LogicBlock) : Nat → Nat
  | 0 => 0
  | n + 1 => match groupStacks L.code b.start [] b.length with
    | .error _ => 0
    | .ok st => (blockIns b).foldl (fun m i =>
        let d := (st.getD (i - b.start) []).length
        max m (if insOpc (codeAt L.code i) = 0x18 then d + 1 else d + ((calleeAt L i).map (fun c => groupMax L c n)).getD 0)) 0

/-- The first instruction of a block that breaks R230, its calls left aside. -/
def blockFail (L : LogicSection) (b : LogicBlock) : Option Nat :=
  match groupStacks L.code b.start [] b.length with
  | .error i => some i
  | .ok st => (blockIns b).find? (fun i => !insOk L b st i)

/-- A block calls the block at `start`, itself or through up to `n` further calls. -/
def callsBlock (L : LogicSection) (start : Nat) (b : LogicBlock) : Nat → Bool
  | 0 => false
  | n + 1 => ((blockIns b).filterMap (calleeAt L)).any (fun c => c.start == start || callsBlock L start c n)

/-- The first call of a block that is recursive. -/
def recursionFail (L : LogicSection) (b : LogicBlock) : Option Nat :=
  (blockIns b).find? (fun i => match calleeAt L i with
    | none => false
    | some c => b.callable && (c.start == b.start || callsBlock L b.start c 9))

/-- The first call of a block whose depth exceeds 8, or with which more than 16 groups are open. -/
def callFail (L : LogicSection) (b : LogicBlock) : Option Nat :=
  match groupStacks L.code b.start [] b.length with
  | .error i => some i
  | .ok st => (blockIns b).find? (fun i => match calleeAt L i with
    | none => false
    | some c => !callDepthOk L c 7 || Nat.blt 16 ((st.getD (i - b.start) []).length + groupMax L c 8))

/-- The first instruction that no block holds and whose opcode is not listed, whose reserved field is not zero or whose operand is none of its
areas: R230 speaks of the program's words, not of its blocks alone. -/
def looseFail (L : LogicSection) : Option Nat :=
  (List.range L.code.length).find? (fun i =>
    let w := codeAt L.code i
    !L.blocks.any (fun b => Nat.ble b.start i && Nat.blt i (b.start + b.length)) &&
      match opcodeRow (insOpc w) with
      | none => true
      | some (k, areas, _) => !(w.toNat / 2 ^ 40 % 128 == 0 && areas.contains (insArea w) && operandOk k w))

/-- The instruction that breaks R230, or the first of a task entry whose instruction limit lies outside its range (R241). No rule rejects a
block whose last instruction is neither END nor RET nor a jump: an execution there goes on with the next word (assumption 68). -/
def logicBad (L : LogicSection) : Option Nat :=
  ((L.blocks.findSome? (fun b =>
    if !b.callable && (Nat.blt b.limit 1024 || Nat.blt 16777216 b.limit) then some b.start else blockFail L b)).or
    (looseFail L)).or ((L.blocks.findSome? (recursionFail L)).or (L.blocks.findSome? (callFail L)))

/-- A block entry that does not fit its layout or the program, or overlaps a block before it (R428, R230). -/
def blockMalformed (L : LogicSection) (n : Nat) (b : LogicBlock) : Bool :=
  Nat.blt b.length 1 || Nat.blt L.code.length (b.start + b.length) ||
    (if b.callable then b.heddle != 255 || b.task != 255
     else if b.heddle = 255 then b.task != 255 else Nat.ble 4 b.heddle || Nat.ble 32 b.task) ||
    ((b.callable || b.heddle != 255) && (b.tcfg != 0 || b.tphs != 0)) ||
    (L.blocks.take n).any (fun c => Nat.blt c.start (b.start + b.length) && Nat.blt b.start (c.start + c.length))

/-- The octet offset at which the LOGIC section is malformed (R428). -/
def logicMalformed (L : LogicSection) : Option Nat :=
  if L.blocks.length < 1 ∨ 4096 < L.blocks.length then some 0
  else if 8192 < L.retn then some 2
  else if L.code.length < 1 ∨ 65536 < L.code.length then some 4
  else ((L.blocks.zipIdx).find? (fun e => blockMalformed L e.2 e.1)).map (fun e => 16 + 32 * e.2)

/-- The program writes a bit of Q octets `o` to `o + n − 1` by a direct address. -/
def programWrites (L : LogicSection) (o n : Nat) : Bool :=
  L.code.any (fun w =>
    match opcodeRow (insOpc w) with
    | some (.bitOp, _, true) => insArea w == 2 && !insInd w && Nat.ble o (insAddr w / 8) && Nat.blt (insAddr w / 8) (o + n)
    | some (.wordOp, _, true) => insArea w == 2 && !insInd w && Nat.blt o (insAddr w + sizeOctets (insSize w)) && Nat.blt (insAddr w) (o + n)
    | _ => false)

/-- The program writes one bit of Q by a direct address. -/
def programWritesBit (L : LogicSection) (i : Nat) : Bool :=
  L.code.any (fun w =>
    match opcodeRow (insOpc w) with
    | some (.bitOp, _, true) => insArea w == 2 && !insInd w && insAddr w == i
    | some (.wordOp, _, true) => insArea w == 2 && !insInd w && Nat.ble (insAddr w) (i / 8) && Nat.blt (i / 8) (insAddr w + sizeOctets (insSize w))
    | _ => false)

/-- Targets of EVTT instructions: the instruction's index, Heddle and event task. -/
def evttTargets (L : LogicSection) : List (Nat × (Nat × Nat)) :=
  (L.code.zipIdx.filter (fun e => insOpc e.1 == 0x75)).map (fun e => (e.2, (insAddr e.1 / 16 % 4, insAddr e.1 % 16)))

end Sys2Proof.Machine
end

