-- ==== Sys2Proof/Machine/ElemRules.lean ====
section
/-! DEFINITION. Setting ranges and steps (R427): the FP32 settings of elements and bays, the rounding of a loaded value to its step,
and the checks of R155, R158, R168, R178, R182 and R192–R195 on a declared element instance. -/

namespace Sys2Proof.Machine

/-! ### FP32 settings -/

/-- A rational as the nearest binary32 pattern. -/
def fpWord (r : Rat) : Word := if r = 0 then 0 else fpRound (decide (r < 0)) r.num.natAbs r.den

/-- A range of an FP32 setting and its step (0: none stated). `zero` permits 0 beside the range. -/
structure FpRule where
  lo : Rat
  hi : Rat
  step : Rat
  zero : Bool

/-- The multiple of a step nearest a value. -/
def stepNear (step x : Rat) : Rat :=
  let q := x / step
  (roundDiv q.num q.den : Rat) * step

/-- A value lies in its range: on its step where one is stated. -/
def FpRule.ok (r : FpRule) (w : Word) : Bool :=
  fpIsFinite w &&
  (let x := fpVal w
   if r.zero && decide (x = 0) then true
   else if r.step = 0 then decide (fpVal (fpWord r.lo) ≤ x) && decide (x ≤ fpVal (fpWord r.hi))
   else decide (r.lo ≤ stepNear r.step x) && decide (stepNear r.step x ≤ r.hi))

/-- A loaded value rounded to its stated step. -/
def FpRule.round (r : FpRule) (w : Word) : Word := if r.step = 0 ∨ !fpIsFinite w then w else fpWord (stepNear r.step (fpVal w))

/-! ### Units (R126, R154, R181) -/

def Decl.instBay (d : Decl) (x : Nat) : Nat := d.fld (A.PRT_EI_CFG x) F.PRT_EI_CFG_BAY

/-- Full-load current of the bay's motor. -/
def Decl.ib (d : Decl) (b : Nat) : Rat :=
  match d.insts.find? (fun x => vType d.v x == 0x14 && d.instBay x == b) with
  | some x => fpVal (d.v (A.PRT_EX x 0))
  | none => 0

/-- A unit: 0 none, 1 In, 2 VNOM or Vph as the instance measures, 3 Vph, 4 IB, 5 VNOM, 6 three times Vph. -/
def Decl.unit (d : Decl) (x u : Nat) : Rat :=
  let b := d.instBay x
  let vnom := fpVal (d.v (A.PRT_VNOM b))
  let vph := vnom / realSqrt 3
  match u with
  | 1 => if d.bit (A.PRT_BAYCFG b) 28 then 5 else 1
  | 2 => if d.bit (A.PRT_EX x 0) 0 then vnom else vph
  | 3 => vph
  | 4 => d.ib b
  | 5 => vnom
  | 6 => 3 * vph
  | _ => 1

/-- A range written in a unit, both ends and the step in thousandths of it (hundred-thousandths for a unit of 0 with `fine`). -/
def Decl.rule (d : Decl) (x u lo hi step : Nat) : FpRule :=
  let k := d.unit x u / 1000
  { lo := lo * k, hi := hi * k, step := step * k, zero := false }

/-! ### Element types (R154, R181) -/

/-- A type's filters and curves, its Gs range (unit, thousandths), and whether it uses DR and TMS. An empty list of curves: none used. -/
structure TypeRow where
  filters : List Nat
  curves : List Nat
  gs : Option (Nat × Nat × Nat × Nat)
  dr : Bool
  tms : Bool

def allCurves : List Nat := [0, 1, 2, 3, 4, 5, 6, 7, 8]
def iecCurves : List Nat := [0, 1, 2, 3, 4, 8]

/-- The rows of the type tables; none for a code that is no type. -/
def typeRow (ty : Nat) : Option TypeRow :=
  match ty with
  | 0x01 => some ⟨[0, 1, 2], allCurves, some (1, 50, 40000, 10), true, true⟩
  | 0x02 => some ⟨[0, 2], allCurves, some (1, 10, 40000, 10), true, true⟩
  | 0x03 => some ⟨[0], allCurves, some (1, 50, 40000, 10), true, true⟩
  | 0x04 => some ⟨[0, 2], iecCurves, some (1, 5, 5000, 1), true, true⟩
  | 0x05 => some ⟨[0], allCurves, some (1, 50, 5000, 10), true, true⟩
  | 0x06 => some ⟨[0], allCurves, some (1, 50, 40000, 10), true, true⟩
  | 0x07 => some ⟨[0], [0, 8], some (2, 50, 1200, 1), true, true⟩
  | 0x08 => some ⟨[0], iecCurves, some (2, 500, 1500, 1), true, true⟩
  | 0x09 => some ⟨[0], iecCurves, some (3, 10, 3000, 1), true, true⟩
  | 0x0A => some ⟨[0], [0, 8], some (3, 10, 1000, 1), true, true⟩
  | 0x0B => some ⟨[3], [0], some (0, 40000, 70000, 10), false, true⟩
  | 0x0C => some ⟨[3], [0], some (0, 100, 10000, 10), true, true⟩
  | 0x0D => some ⟨[3], [0], some (1, 50, 2000, 10), false, true⟩
  | 0x0E => some ⟨[3], [], none, false, false⟩
  | 0x0F => some ⟨[0], [], some (1, 20, 500, 10), false, false⟩
  | 0x10 => some ⟨[3], [0], some (0, 50, 500, 10), true, true⟩
  | 0x11 => some ⟨[3], [0], none, false, true⟩
  | 0x12 => some ⟨[0], [0], some (7, 0, 0, 0), true, true⟩
  | 0x13 => some ⟨[0], [0], none, false, true⟩
  | 0x14 => some ⟨[3], [], some (0, 500, 1500, 10), true, false⟩
  | 0x15 => some ⟨[3], [], some (0, 500, 1000, 10), true, false⟩
  | 0x16 => some ⟨[0], [0], some (7, 0, 0, 0), false, true⟩
  | 0x17 => some ⟨[0], [0], some (4, 1000, 10000, 10), true, true⟩
  | 0x18 => some ⟨[0], [0], some (4, 1000, 10000, 10), true, true⟩
  | 0x19 => some ⟨[0], [0], some (7, 0, 0, 0), true, true⟩
  | 0x1A => some ⟨[3], [], some (0, 1000, 16000, 1000), false, false⟩
  | 0x1B => some ⟨[3], [0], none, false, true⟩
  | 0x1C => some ⟨[3], [0], some (1, 50, 1000, 10), true, true⟩
  | 0x1D => some ⟨[0], [0], some (0, 500, 1000, 10), true, true⟩
  | 0x1E => some ⟨[0], iecCurves, some (0, 50, 1000, 10), true, true⟩
  | 0x1F => some ⟨[3], [], some (1, 200, 40000, 10), false, false⟩
  | 0x20 => some ⟨[3], [], none, false, false⟩
  | _ => none

/-- Gs range of an instance, types with a MODE included (R173, R186, R189). -/
def Decl.gsRule (d : Decl) (x : Nat) : Option FpRule :=
  let mode := d.bit (A.PRT_EX x 0) 0
  match vType d.v x with
  | 0x04 => some (d.rule x 1 (if d.bit (A.PRT_EX x 2) 2 then 20 else 5) 5000 1)
  | 0x12 => some (if mode then d.rule x 0 100 1000 0 else d.rule x 1 50 2000 0)
  | 0x16 => if mode then some (d.rule x 0 1000 10000000 1000) else none
  | 0x19 => some (if mode then d.rule x 0 500 5000000 100 else d.rule x 4 50 1000 10)
  | ty => (typeRow ty).bind (fun r => r.gs.map (fun g => d.rule x g.1 g.2.1 g.2.2.1 g.2.2.2))

/-- TMS range by curve (R131); TCS has its own (R172). -/
def Decl.tmsRule (d : Decl) (x : Nat) : Option FpRule :=
  let c := d.fld (A.PRT_EI_TIM x) F.PRT_EI_TIM_CURVE
  if vType d.v x = 0x11 then some (d.rule x 0 100 60000 1)
  else if vType d.v x = 0x16 ∧ d.bit (A.PRT_EX x 0) 0 then none
  else if c = 0 then some (d.rule x 0 0 600000 1)
  else if c ≤ 4 then some (d.rule x 0 50 1500 10)
  else if c ≤ 7 then some (d.rule x 0 500 15000 100)
  else some (d.rule x 0 50 10000 10)

/-- The under elements of R129 take DR above 1, LOL too (R189). -/
def Decl.under (d : Decl) (x : Nat) : Bool := d.bit (A.PRT_EI_CFG x) 16 || vType d.v x == 0x19

/-- Range of a register of the instance's set, `k` its word: none where the field is not in use or no range is stated. DESIGN CHOICE
(assumption 64): the range and step that R133 gives TR bind where RESET = 1 holds H for TR, not where RESET = 2 takes TR as tr. -/
def Decl.setRule (d : Decl) (x k : Nat) : Option FpRule :=
  match typeRow (vType d.v x) with
  | none => none
  | some r =>
    match k with
    | 1 => d.gsRule x
    | 2 => if r.dr then some (if d.under x then d.rule x 0 1010 1500 10 else d.rule x 0 500 990 10) else none
    | 4 => if r.tms then d.tmsRule x else none
    | 5 => if r.tms && d.fld (A.PRT_EI_TIM x) F.PRT_EI_TIM_RESET == 1 then some (d.rule x 0 0 60000 1) else none
    | 6 => if r.tms then some (d.rule x 0 0 10000 1) else none
    | 7 => if r.tms && d.fld (A.PRT_EI_TIM x) F.PRT_EI_TIM_CURVE != 0 then some (d.rule x 0 1100 50000 0) else none
    | _ => none

/-- Range of a word of the extension block (R176 and the motor and wavefront types). -/
def Decl.exRule (d : Decl) (x w : Nat) : Option FpRule :=
  let r (u lo hi st : Nat) : Option FpRule := some (d.rule x u lo hi st)
  let deg (a : Rat) : Option FpRule := some { lo := -a, hi := a, step := 1, zero := false }
  match vType d.v x, w with
  | 0x03, 0 => deg 90
  | 0x03, 1 => r 0 80000 180000 1000
  | 0x03, 3 => r 5 10 500 10
  | 0x04, 0 => deg 180
  | 0x04, 1 => r 0 80000 180000 1000
  | 0x04, 3 => r 6 10 1000 0
  | 0x06, 0 => r 0 500 1000 10
  | 0x06, 1 => r 0 100 1000 10
  | 0x07, 1 => r 5 0 500 10
  | 0x0B, 0 => r 0 10 1000 10
  | 0x0B, 1 => r 3 200 900 10
  | 0x0C, 1 => r 3 200 900 10
  | 0x0F, 0 => r 0 1000 3600000 1000
  | 0x0F, 1 => r 0 100 600000 100
  | 0x0F, 2 => some { d.rule x 0 1000 5000 10 with zero := true }
  | 0x10, 0 => r 1 1000 40000 10
  | 0x10, 1 => r 0 0 2000 1
  | 0x12, 1 => if d.bit (A.PRT_EX x 0) 0 then r 3 10 200 0 else none
  | 0x12, 2 => if d.bit (A.PRT_EX x 0) 0 then r 1 50 1000 0 else none
  | 0x13, 0 => r 3 50 500 0
  | 0x13, 1 => r 1 20 500 0
  | 0x13, 2 => r 3 50 500 0
  | 0x13, 3 => r 1 50 1000 0
  | 0x14, 0 => r 1 200 2000 1
  | 0x14, 1 => r 0 1000 1500 10
  | 0x14, 2 => r 0 60000 36000000 1000
  | 0x14, 3 => r 0 1000 3600000 1000
  | 0x14, 4 => r 0 1000 10000 100
  | 0x14, 5 => r 0 0 10000 100
  | 0x14, 6 => r 0 1000 10000 100
  | 0x14, 7 => r 0 50 1000 10
  | 0x14, 8 => r 4 1100 5000 0
  | 0x14, 9 => r 4 20 500 0
  | 0x14, 10 => r 0 500 1000 10
  | 0x15, 0 => r 0 1000 2000 10
  | 0x15, 1 => r 0 50 900 10
  | 0x17, 1 => if d.bit (A.PRT_EX x 0) 0 then r 0 500 60000 100 else none
  | 0x18, 0 => r 0 0 600000 1000
  | 0x19, 1 => r 0 0 600000 1000
  | 0x1A, 0 => r 0 0 3600000 1000
  | 0x1C, 0 => r 0 500 2000 1
  | 0x1C, 2 => r 0 100 800 10
  | 0x1C, 3 => r 1 1000 10000 100
  | 0x1C, 4 => r 0 300 1500 10
  | 0x1C, 5 => r 1 2000 40000 100
  | 0x1C, 6 => r 0 100 1000 10
  | 0x1E, 0 => if d.ib (d.instBay x) = 0 then none else r 4 50 1000 0
  | 0x1F, 1 => some { lo := 1 / 10000, hi := 1 / 1000, step := 1 / 20000, zero := false }
  | 0x1F, 2 => r 3 50 500 10
  | 0x1F, 3 => r 0 20 200 1
  | 0x1F, 4 => r 0 5 100 1
  | 0x20, 0 => r 0 100000 300000 100
  | 0x20, 1 => r 0 100000 20000000 1000
  | 0x20, 2 => r 0 50 1000 10
  | _, _ => none

/-- The FP32 range of any register, where one is stated and the field is in use. -/
def Decl.fpRule (d : Decl) (a : Nat) : Option FpRule :=
  if inArr (A.PRT_EI_CFG 0) 4 8192 a then
    let x := (a - A.PRT_EI_CFG 0) / 64
    if d.has (A.PRT_EI_CFG x) then d.setRule x ((a - A.PRT_EI_CFG 0) / 4 % 16) else none
  else if inArr (A.PRT_EX 0 0) 4 8192 a then
    let x := (a - A.PRT_EX 0 0) / 64
    if d.has (A.PRT_EI_CFG x) then d.exRule x ((a - A.PRT_EX 0 0) / 4 % 16) else none
  else if inArr (A.PEL_CC_TNOM 0) 0x40 8 a then some { lo := 10, hi := 500, step := 0, zero := false }
  else none

/-- Loaded values rounded to their steps (R427). -/
def Decl.rounded (d : Decl) (l : List (Nat × Word)) : List (Nat × Word) :=
  l.map (fun e => match d.fpRule e.1 with
    | some r => (e.1, r.round e.2)
    | none => e)

/-! ### Checks -/

/-- A field outside its range: the parameter ID. -/
def Decl.outside (d : Decl) (a : Nat) (f : Fld) (lo hi : Nat) : Option Nat :=
  if lo ≤ d.fld a f ∧ d.fld a f ≤ hi then none else some (addrParam a)

/-- A breach at a register. -/
def breach (b : Bool) (a : Nat) : Option Nat := if b then some (addrParam a) else none

/-- Bits outside the defined ones are not zero (R3, R158). -/
def Decl.reservedSet (d : Decl) (a : Nat) : Option Nat :=
  match accessAt d.v a with
  | some (all, _) => breach ((d.v a) &&& ~~~(BitVec.ofNat 32 all) != 0) a
  | none => none

/-- An FP32 setting outside its range. -/
def Decl.fpOutside (d : Decl) (a : Nat) : Option Nat :=
  match d.fpRule a with
  | some r => breach (!r.ok (d.v a)) a
  | none => none

/-- The first breach of a list. -/
def firstBreach (l : List (Option Nat)) : Option Nat := l.findSome? id

/-- The bay declares a signal of a KIND. -/
def Decl.bayKind (d : Decl) (b k : Nat) : Bool :=
  d.signals.any (fun x => d.fld (A.FLT_SIG x) F.FLT_SIG_BAY == b && d.fld (A.FLT_SIG x) F.FLT_SIG_KIND == k)

/-- A lane feeds the bay's Watchman comparators and wavefront branch (R111). -/
def Decl.feedLane (d : Decl) (b x : Nat) : Bool :=
  let a := A.ACQ_LANE x
  d.fld a F.ACQ_LANE_SLICE == 2 * b && Nat.blt (d.fld a F.ACQ_LANE_MUX) 3 && d.fld a F.ACQ_LANE_GAIN == 0 && d.fld a F.ACQ_LANE_RATE_N == 3

/-- A block source names nothing that exists (R152). -/
def srcBad (src : Nat) : Bool :=
  let i := src % 4096
  match src / 4096 with
  | 0 => false
  | 1 => false
  | 2 => Nat.ble 1024 i
  | 3 => Nat.ble 32 i
  | 4 => false
  | 5 => Nat.ble 4 i
  | 6 => Nat.ble 4 i
  | _ => true

/-- Integer fields of the extension block outside their ranges. -/
def Decl.exBad (d : Decl) (x : Nat) : List (Option Nat) :=
  match vType d.v x with
  | 0x0C => [d.outside (A.PRT_EX x 0) ⟨1, 0⟩ 0 2]
  | 0x0D => [d.outside (A.PRT_EX x 0) ⟨1, 0⟩ 0 2]
  | 0x0E => [d.outside (A.PRT_EX x 0) ⟨12, 8⟩ 0 20]
  | 0x14 => [d.outside (A.PRT_EX x 11) ⟨1, 0⟩ 0 2]
  | 0x20 =>
    [if d.bit (A.PRT_EX x 3) 0 then breach (d.fld (A.PRT_EX x 3) ⟨12, 1⟩ % 2 != 0 || Nat.blt 4094 (d.fld (A.PRT_EX x 3) ⟨12, 1⟩)) (A.PRT_EX x 3)
     else none,
     if d.bit (A.PRT_EX x 4) 15 then
       let w := d.fld (A.PRT_EX x 4) ⟨8, 0⟩
       breach (!(d.has (A.PRT_EI_CFG w) && vType d.v w == 0x1F && d.instBay w == d.instBay x)) (A.PRT_EX x 4)
     else none]
  | _ => []

/-- The instance uses a phase-to-neutral or calculated residual voltage. -/
def Decl.usesPhaseVoltage (d : Decl) (x : Nat) : Bool :=
  match vType d.v x with
  | 0x07 => !d.bit (A.PRT_EX x 0) 0
  | 0x08 => !d.bit (A.PRT_EX x 0) 0
  | 0x09 => !d.bit (A.PRT_EX x 0) 0
  | 0x04 => !d.bit (A.PRT_EX x 2) 3
  | _ => false

/-- The KINDs an instance needs on its bay: IN, VN, or the second-end currents. -/
def Decl.kindsUsed (d : Decl) (x : Nat) : List Nat :=
  match vType d.v x with
  | 0x02 => if d.bit (A.PRT_EX x 0) 0 then [] else [3]
  | 0x04 => (if d.bit (A.PRT_EX x 2) 2 then [] else [3]) ++ (if d.bit (A.PRT_EX x 2) 3 then [7] else [])
  | 0x09 => if d.bit (A.PRT_EX x 0) 0 then [7] else []
  | 0x0D => if d.bit (A.PRT_EX x 0) 2 then [3] else []
  | 0x12 => if d.bit (A.PRT_EX x 0) 0 then [] else [3]
  | 0x1C => [8, 9, 10]
  | _ => []

/-- UNDER as the type requires (R155, R182). -/
def Decl.underBad (d : Decl) (x : Nat) : Bool :=
  let u := d.bit (A.PRT_EI_CFG x) 16
  let ty := vType d.v x
  if u then ty != 0x07 && ty != 0x0B else ty == 0x07

/-- The motor types that need a THM instance on their bay (R178). -/
def motorTypes : List Nat := [0x15, 0x16, 0x17, 0x18, 0x19, 0x1A, 0x1B]

/-- What a declared instance breaks, first breach first. -/
def Decl.instBad (d : Decl) (x : Nat) : Option Nat :=
  let a := A.PRT_EI_CFG x
  let b := d.instBay x
  let ty := vType d.v x
  match typeRow ty with
  | none => some (addrParam a)
  | some r =>
    let c := d.fld (A.PRT_EI_TIM x) F.PRT_EI_TIM_CURVE
    let rs := d.fld (A.PRT_EI_TIM x) F.PRT_EI_TIM_RESET
    let thm := d.insts.any (fun y => vType d.v y == 0x14 && d.instBay y == b)
    firstBreach
      ([breach (!d.bit (A.PRT_BAYCFG b) 31) a, breach (!r.filters.contains (d.fld a F.PRT_EI_CFG_FILTER)) a, breach (d.underBad x) a,
        breach (d.usesPhaseVoltage x && d.bit (A.PRT_BAYCFG b) 29) a, breach ((d.kindsUsed x).any (fun k => !d.bayKind b k)) a,
        breach (motorTypes.contains ty && !thm) a,
        breach (ty == 0x14 && d.insts.any (fun y => Nat.blt y x && vType d.v y == 0x14 && d.instBay y == b)) a,
        breach (ty == 0x0E && !d.lanes.any (d.feedLane b)) a, breach (ty == 0x1F && !d.bit (A.FLT_WFCFG b) 31) a,
        breach (if r.curves.isEmpty then c != 0 else !r.curves.contains c) (A.PRT_EI_TIM x),
        breach (rs == 3 || (rs == 2 && c == 0)) (A.PRT_EI_TIM x),
        breach (Nat.blt 64 (d.insts.filter (fun y => Nat.ble y x && d.instBay y == b)).length) a] ++
       [A.PRT_EI_BLK01 x, A.PRT_EI_BLK23 x].map (fun k => breach (srcBad (d.fld k ⟨15, 0⟩) || srcBad (d.fld k ⟨31, 16⟩)) k) ++
       ((List.range 10).map (fun k => a + 4 * k)).map d.reservedSet ++ ((List.range 16).map (A.PRT_EX x)).map d.reservedSet ++
       ((List.range 10).map (fun k => a + 4 * k)).map d.fpOutside ++ ((List.range 16).map (A.PRT_EX x)).map d.fpOutside ++ d.exBad x)

/-- User curve u, in use, breaks R132. -/
def Decl.curveBad (d : Decl) (u : Nat) : Option Nat :=
  let users := d.insts.filter (fun x => d.fld (A.PRT_EI_TIM x) F.PRT_EI_TIM_CURVE == 8 && d.fld (A.PRT_EI_TIM x) F.PRT_EI_TIM_UCURVE == u &&
    ((typeRow (vType d.v x)).map (fun r => r.curves.contains 8)).getD false)
  let m (i : Nat) : Rat := fpVal (d.v (A.PRT_UC_M u i))
  let t (i : Nat) : Rat := fpVal (d.v (A.PRT_UC_T u i))
  let under := users.any d.under
  let overs := users.any (fun x => !d.under x)
  firstBreach ((List.range 16).map (fun i =>
    if users.isEmpty then none
    else if !fpIsFinite (d.v (A.PRT_UC_M u i)) || (overs && !(decide (1 ≤ m i) && decide (m i ≤ 50))) ||
        (under && !(decide (0 ≤ m i) && decide (m i ≤ 1))) || (i != 0 && decide (m i ≤ m (i - 1))) then some (addrParam (A.PRT_UC_M u i))
    else if !fpIsFinite (d.v (A.PRT_UC_T u i)) || decide (t i < fpVal (fpWord (1 / 1000))) || decide (1000 < t i) ||
        (overs && i != 0 && decide (t (i - 1) < t i)) then some (addrParam (A.PRT_UC_T u i))
    else none))

end Sys2Proof.Machine
end

