-- ==== Sys2Proof/Machine/Validate.lean ====
section
/-! DEFINITION. The value rules of an image (R427): every "image validation rejects" and every stated range, on declared items. A breach
is a section type with the parameter ID or the item in that section. -/

namespace Sys2Proof.Machine

/-! ### Acquisition and the chain -/

/-- A lane (R35, R37, R57, R88, R92). -/
def Decl.laneBad (d : Decl) (x : Nat) : Option Nat :=
  let a := A.ACQ_LANE x
  let sl := d.fld a F.ACQ_LANE_SLICE
  let m := d.fld a F.ACQ_LANE_MUX
  let acc := A.ACQ_ACCCFG x
  let n19 := d.fld (A.FLT_BAYCFG (d.fld a F.ACQ_LANE_BAY)) F.FLT_BAYCFG_FIXED == 3
  let stages := (if n19 then 9 else 10) - d.fld a F.ACQ_LANE_RATE_N
  let design (k : Nat) : Nat := d.fld (A.FLT_LANE x) ⟨3 * k + 2, 3 * k⟩
  let set (c : Nat) : Bool := (c == 4 && d.fld A.FLT_HBU_CFG F.FLT_HBU_CFG_M0 == 0) || (c == 5 && d.fld A.FLT_HBU_CFG F.FLT_HBU_CFG_M1 == 0)
  let first := 7 - min 7 stages
  firstBreach
    [d.outside a F.ACQ_LANE_RATE_N 3 (if n19 && !d.bit a 7 then 9 else 10), breach (Nat.blt 16 sl || Nat.blt (if sl = 16 then 103 else 5) m) a,
     breach (sl == 16 && Nat.ble 96 m && d.fld a F.ACQ_LANE_GAIN != 0) a, breach (sl != 16 && d.bit a 29) a, d.reservedSet a, d.reservedSet acc,
     breach ((d.v (A.FLT_LANE x)) &&& 0xF0200000 != 0) (A.FLT_LANE x),
     if d.bit acc 31 then (if d.bit a 7 then some (addrParam acc) else d.outside acc F.ACQ_ACCCFG_CYCLES 1 32) else d.outside acc F.ACQ_ACCCFG_N 4 20,
     if d.bit a 7 then none
     else breach ((List.range 7).any (fun k => Nat.ble first k && (Nat.blt 5 (design k) || set (design k)))) (A.FLT_LANE x)]

/-- A half-band user set (R93). -/
def Decl.userSetBad (d : Decl) (k : Nat) : Option Nat :=
  let m := d.fld A.FLT_HBU_CFG (if k = 0 then F.FLT_HBU_CFG_M0 else F.FLT_HBU_CFG_M1)
  let c (i : Nat) : Int := (d.v (A.FLT_HBU k i)).toInt
  let sum := (List.range 16).foldl (fun a i => a + c i) 0
  if m = 0 then none
  else firstBreach
    [breach (Nat.blt m 2 || Nat.blt 16 m) A.FLT_HBU_CFG,
     (List.range 16).findSome? (fun i => breach (Nat.ble m i && c i != 0) (A.FLT_HBU k i)),
     breach (decide (2 ^ 11 < (sum - 2 ^ 29).natAbs)) (A.FLT_HBU k 0)]

/-- A signal (R96, R108, R520). -/
def Decl.signalBad (d : Decl) (x : Nat) : Option Nat :=
  let a := A.FLT_SIG x
  let b := d.fld a F.FLT_SIG_BAY
  let la := d.fld a F.FLT_SIG_LANE_A
  let lb := d.fld a F.FLT_SIG_LANE_B
  let kind := d.fld a F.FLT_SIG_KIND
  let laneOk (y : Nat) : Bool := d.has (A.ACQ_LANE y) && !d.bit (A.ACQ_LANE y) 7 && d.fld (A.ACQ_LANE y) F.ACQ_LANE_BAY == b
  let taps := d.fld a F.FLT_SIG_FIRLEN_M1 + 1
  let pair := d.fld (A.ACQ_LANE la) F.ACQ_LANE_SLICE == d.fld (A.ACQ_LANE lb) F.ACQ_LANE_SLICE &&
    d.fld (A.ACQ_LANE la) F.ACQ_LANE_MUX == d.fld (A.ACQ_LANE lb) F.ACQ_LANE_MUX &&
    Nat.blt (d.fld (A.ACQ_LANE la) F.ACQ_LANE_GAIN) (d.fld (A.ACQ_LANE lb) F.ACQ_LANE_GAIN)
  firstBreach
    [d.reservedSet a, breach (Nat.blt 10 kind && kind != 15) a, breach (!d.bit (A.PRT_BAYCFG b) 31) a,
     if d.bit a 27 then breach (!d.bit (A.NET_SVS_CFG (d.fld a ⟨25, 22⟩)) 31) a
     else breach (!laneOk la || (d.bit a 26 && (!laneOk lb || !pair))) a,
     breach (kind != 15 && d.signals.any (fun y => Nat.blt y x && d.fld (A.FLT_SIG y) F.FLT_SIG_BAY == b &&
       d.fld (A.FLT_SIG y) F.FLT_SIG_KIND == kind)) a,
     if d.bit a 27 then d.outside (A.FLT_BAYCFG b) F.FLT_BAYCFG_SVDLY 3 16
     else (List.range 64).findSome? (fun t => breach (Nat.ble taps t && d.v (A.FLT_FIR x t) != 0) (A.FLT_FIR x t))]

/-- A bay (R124, R152) and its trip-path settings. -/
def Decl.bayBad (d : Decl) (b : Nat) : Option Nat :=
  firstBreach [d.reservedSet (A.PRT_BAYCFG b), d.reservedSet (A.FLT_BAYCFG b), d.reservedSet (A.FLT_TRKCFG b), d.reservedSet (A.FLT_WFCFG b),
    d.outside (A.PRT_BAYCFG b) F.PRT_BAYCFG_ROCOF_WIN 1 50, d.outside (A.PRT_BAYCFG b) F.PRT_BAYCFG_REFSIG 0 10,
    if d.bit (A.FLT_WFCFG b) 31 then d.outside (A.FLT_WFCFG b) F.FLT_WFCFG_K 1 15 else none]

/-- Types whose operate no trip channel may take (R155, R182). -/
def noTripTypes : List Nat := [0x0F, 0x10, 0x11, 0x12, 0x13, 0x15, 0x1A, 0x1B, 0x20]

/-- Trip channel c (R139, R155, R182). -/
def Decl.channelBad (d : Decl) (c : Nat) : Option Nat :=
  firstBreach [d.reservedSet (A.PRT_TCH_CFG c), d.outside (A.PRT_TCH_CFG c) F.PRT_TCH_CFG_MINPULSE 20 500,
    (List.range 16).findSome? (fun w => d.reservedSet (A.PRT_TCH_SRC c (16 + w))),
    d.insts.findSome? (fun x => breach (noTripTypes.contains (vType d.v x) && d.bit (A.PRT_TCH_SRC c (x / 32)) (x % 32))
      (A.PRT_TCH_SRC c (x / 32)))]

/-- Settings of the device as a whole: cross-check, calibration, Watchman, time, local I/O, logic configuration, start overlay. -/
def Decl.globalBad (d : Decl) : Option Nat :=
  let lifechk := d.fld A.NET_CFG F.NET_CFG_SMODE == 0 || d.fld A.NET_CFG F.NET_CFG_PMODE == 0
  let tz := signExt 8 (d.fld A.ALM_CFG F.ALM_CFG_TZ)
  firstBreach
    ([d.outside A.ACQ_XCK_THR F.ACQ_XCK_THR_THR 1 100, d.outside A.CAL_ROT_CFG F.CAL_ROT_CFG_INTERVAL 5 100,
      d.outside A.CAL_OPEN_THR F.CAL_OPEN_THR_THR 10 10000, d.outside A.CAL_INJ_CTL F.CAL_INJ_CTL_PERIOD 10 255,
      d.outside A.CAL_PB_THR F.CAL_PB_THR_RATIO 50 95, breach (Nat.blt 100000 (d.v A.TIM_PPSDLY).toNat) A.TIM_PPSDLY,
      breach (Nat.blt (d.v A.TIM_STEPTHR).toNat 100000 || Nat.blt 100000000 (d.v A.TIM_STEPTHR).toNat) A.TIM_STEPTHR,
      if lifechk then d.outside A.NET_CFG F.NET_CFG_LIFECHK 500 10000 else none,
      d.outside A.HDL_CFG F.HDL_CFG_SCAN 0 2, d.outside A.HDL_CFG F.HDL_CFG_COMOVL 0 8, d.outside A.HDL_CFG F.HDL_CFG_BUDGET 250 1000000,
      d.outside A.CFG_START F.CFG_START_OVL 0 8, breach (decide (tz < -48) || decide (56 < tz)) A.ALM_CFG] ++
     (List.range 32).map (fun i => d.outside (A.LIO_BIN_CFG i) F.LIO_BIN_CFG_DEB 0 200) ++
     (List.range 32).map (fun i => d.reservedSet (A.LIO_BIN_CFG i)) ++
     [A.ACQ_XCK_THR, A.CAL_ROT_CFG, A.CAL_OPEN_THR, A.CAL_INJ_CTL, A.CAL_PB_THR, A.FLT_HBU_CFG, A.CAP_CFG, A.HDL_CFG, A.TIM_CFG, A.NET_CFG,
      A.NET_MACS_HI, A.NET_MACP_HI, A.NET_VLAN_GOOSE, A.NET_VLAN_SV, A.NET_VLAN_HANK, A.ALM_CFG, A.CFG_START, A.LIO_GOUT_CFG, A.TIM_UTCOFS].map d.reservedSet ++
     (List.range 8).map (fun k => d.reservedSet (A.CFG_OVLSRC (k + 1))) ++ (List.range 8).map (fun b => d.reservedSet (A.PRT_WM_THR b)) ++
     (List.range 4).map (fun j => d.reservedSet (A.PRT_WM_MAP j)))

/-! ### Capture -/

/-- A digital channel source names nothing that exists (R205). -/
def capSrcBad (src : Nat) : Bool :=
  match src / 4096 with
  | 7 => Nat.ble 32 (src % 4096)
  | 8 => Nat.ble 16 (src % 4096)
  | 9 => Nat.ble 16 (src % 4096)
  | _ => srcBad src

/-- A capture plan (R203, R205). -/
def Decl.planBad (d : Decl) (p : Nat) : Option Nat :=
  let a := A.CAP_PLAN_CFG p
  let entry (j : Nat) : Nat := d.fld (A.CAP_PLAN_SIGL p (j / 4)) ⟨8 * (j % 4) + 7, 8 * (j % 4)⟩
  let used := (List.range 16).filter (fun j => (entry j).testBit 7)
  let sigOk (x : Nat) : Bool := Nat.blt x 96 && d.bit (A.FLT_SIG x) 31 && d.fld (A.FLT_SIG x) F.FLT_SIG_BAY == d.fld a F.CAP_PLAN_CFG_BAY
  firstBreach
    ([d.reservedSet a, d.outside a F.CAP_PLAN_CFG_NSIG 1 16, d.outside (A.CAP_PLAN_WIN p) F.CAP_PLAN_WIN_PRE 0 2000,
      d.outside (A.CAP_PLAN_WIN p) F.CAP_PLAN_WIN_POST 10 8000, breach (!d.bit (A.PRT_BAYCFG (d.fld a F.CAP_PLAN_CFG_BAY)) 31) a,
      breach (used.length != d.fld a F.CAP_PLAN_CFG_NSIG) (A.CAP_PLAN_SIGL p 0),
      used.findSome? (fun j => breach (!sigOk (entry j % 128)) (A.CAP_PLAN_SIGL p (j / 4)))] ++
     (List.range 128).map (fun k => breach (capSrcBad (d.fld (A.CAP_DCH p k) ⟨15, 0⟩) || capSrcBad (d.fld (A.CAP_DCH p k) ⟨31, 16⟩)) (A.CAP_DCH p k)))

/-! ### Heddle tasks -/

/-- A task set's HDL_TCFG (R247, R267). -/
def taskCfgBad (t : Nat) (cfg : Word) : Bool :=
  let ev := bitGet cfg 30
  let per := fldGet F.HDL_TCFG_PERIOD cfg
  ev != Nat.ble 16 t || (if ev then per != 0 else Nat.blt per 1 || Nat.blt 10000 per)

/-- A task set's HDL_TPHS: the phase of a periodic task, the source of an event task (R247). -/
def taskPhsBad (cfg phs : Word) : Bool :=
  if bitGet cfg 30 then Nat.blt 6 (fldGet F.HDL_TPHS_SRC phs) else Nat.ble (fldGet F.HDL_TCFG_PERIOD cfg) (fldGet F.HDL_TPHS_PHASE phs)

def Decl.taskBad (d : Decl) (e : Nat × Nat) : Option Nat :=
  let cfg := d.v (A.HDL_TCFG e.1 e.2)
  firstBreach [d.reservedSet (A.HDL_TCFG e.1 e.2), d.reservedSet (A.HDL_TPHS e.1 e.2), breach (taskCfgBad e.2 cfg) (A.HDL_TCFG e.1 e.2),
    breach (taskPhsBad cfg (d.v (A.HDL_TPHS e.1 e.2))) (A.HDL_TPHS e.1 e.2)]

/-- A fixed task entry without its task set, or not alone on it (R428): octet offset of the entry. -/
def Decl.entriesBad (d : Decl) (L : LogicSection) : Option Nat :=
  ((L.blocks.zipIdx).find? (fun e => !e.1.callable && e.1.heddle != 255 &&
    (!d.bit (A.HDL_TCFG e.1.heddle e.1.task) 31 ||
      (L.blocks.filter (fun c => !c.callable && c.heddle == e.1.heddle && c.task == e.1.task)).length != 1))).map (fun e => 16 + 32 * e.2)

/-- A task set that no LOGIC entry serves. -/
def Decl.taskOrphan (d : Decl) (L : LogicSection) : Bool :=
  d.tasks.any (fun e => !L.blocks.any (fun b => !b.callable && b.heddle == e.1 && b.task == e.2))

/-- A device-placed task with a task set outside its ranges: its block's index. -/
def placedBad (L : LogicSection) : Option Nat :=
  ((L.blocks.zipIdx).find? (fun e => !e.1.callable && e.1.heddle == 255 &&
    (taskCfgBad (if bitGet e.1.tcfg 30 then 16 else 0) e.1.tcfg || taskPhsBad e.1.tcfg e.1.tphs))).map (·.2)

/-! ### Loop blocks -/

/-- Source i of a block. -/
def Decl.binSrc (d : Decl) (b i : Nat) : Nat := d.fld (if i < 2 then A.SPN_BIN01 b else A.SPN_BIN23 b) ⟨16 * (i % 2) + 15, 16 * (i % 2)⟩

def loopSrcBad (src : Nat) : Bool :=
  let i := src % 4096
  match src / 4096 with
  | 0 => false
  | 1 => Nat.ble 512 i
  | 2 => i % 2 == 1
  | 3 => false
  | 4 => Nat.ble 512 i
  | 5 => i != 0 && i != 1 && i != 3
  | _ => true

/-- Inputs a type uses (R280). -/
def loopInputs (ty : Nat) : List Nat :=
  match ty with
  | 1 => [0, 1, 2, 3]
  | 4 => [0, 1, 2, 3]
  | 9 => []
  | 10 => [3]
  | _ => [0, 3]

/-- Q octets of a destination. -/
def Decl.dstOctets (d : Decl) (b : Nat) : Option (Nat × Nat) :=
  let i := d.fld (A.SPN_BDST b) F.SPN_BDST_INDEX
  match d.fld (A.SPN_BDST b) F.SPN_BDST_KIND with
  | 2 => some (0x3000 + i, 2)
  | 3 => some (0x1000 + 4 * i, 4)
  | _ => none

/-- A selector of number above the PID's takes its output as an input (R282). -/
def Decl.ersFed (d : Decl) (b : Nat) : Bool :=
  d.blocks.any (fun c => d.fld (A.SPN_BCFG c) F.SPN_BCFG_TYPE == 4 && Nat.blt b c &&
    (List.range 4).any (fun i => d.binSrc c i == 4096 + b))

/-- A selector of lower number takes the PID's output. -/
def Decl.ersBelow (d : Decl) (b : Nat) : Bool :=
  d.blocks.any (fun c => d.fld (A.SPN_BCFG c) F.SPN_BCFG_TYPE == 4 && Nat.blt c b && (List.range 4).any (fun i => d.binSrc c i == 4096 + b))

/-- A loop block (R269, R274, R275, R278, R280, R282). -/
def Decl.blockBad (d : Decl) (L : Option LogicSection) (b : Nat) : Option Nat :=
  let a := A.SPN_BCFG b
  let ty := d.fld a F.SPN_BCFG_TYPE
  let dst := A.SPN_BDST b
  let kind := d.fld dst F.SPN_BDST_KIND
  let ix := d.fld dst F.SPN_BDST_INDEX
  let x (i : Nat) : Int := (d.v (A.SPN_CHR_X (d.fld a F.SPN_BCFG_CURVE) i)).toInt
  firstBreach
    [d.reservedSet a, d.outside a F.SPN_BCFG_TYPE 1 10, d.outside (A.SPN_BPER b) F.SPN_BPER_K 1 100000,
     breach (Nat.ble (d.fld (A.SPN_BPER b) F.SPN_BPER_K) (d.fld (A.SPN_BPER b) F.SPN_BPER_PHASE)) (A.SPN_BPER b),
     (loopInputs ty).findSome? (fun i => breach (loopSrcBad (d.binSrc b i)) (if i < 2 then A.SPN_BIN01 b else A.SPN_BIN23 b)),
     breach (ty == 1 && !(d.bit (A.SPN_BSH b) 11 && d.bit (A.SPN_BSH b) 29)) (A.SPN_BSH b), d.reservedSet (A.SPN_BSH b), d.reservedSet dst,
     breach (Nat.blt 3 kind || (kind == 1 && Nat.blt 3 ix) || (kind == 2 && ix % 2 == 1) || (kind == 3 && Nat.blt 2047 ix)) dst,
     breach (kind != 0 && d.blocks.any (fun c => Nat.blt c b && (d.v (A.SPN_BDST c)) == d.v dst)) dst,
     match L, d.dstOctets b with
     | some l, some o => breach (programWrites l o.1 o.2) dst
     | _, _ => none,
     breach (ty == 9 && !(b != 0 && d.has (A.SPN_BCFG (b - 1)) && d.fld (A.SPN_BCFG (b - 1)) F.SPN_BCFG_TYPE == 8 &&
       d.v (A.SPN_BPER (b - 1)) == d.v (A.SPN_BPER b))) a,
     if ty = 7 then (List.range 15).findSome? (fun i => breach (decide (x (i + 1) ≤ x i)) (A.SPN_CHR_X (d.fld a F.SPN_BCFG_CURVE) (i + 1))) else none,
     breach (ty == 1 && d.bit a 25 && (!d.ersFed b || d.ersBelow b)) a]

/-! ### Peal and controlled closing -/

/-- A GOUT is used for controlled closing. -/
def Decl.closesGout (d : Decl) (g : Nat) : Bool := d.closes.any (fun b => d.fld (A.PEL_CC_CFG b) F.PEL_CC_CFG_GOUT == g)

/-- A task that EVTT or Peal action 5 may name: declared, with a fixed Heddle (R448). -/
def Decl.fixedTask (d : Decl) (h t : Nat) : Bool := d.bit (A.HDL_TCFG h (16 + t)) 31

/-- A Peal entry (R310, R312, R448). -/
def Decl.pealBad (d : Decl) (L : Option LogicSection) (e : Nat) : Option Nat :=
  let a := A.PEL_CTL e
  let p0 := (d.v (A.PEL_P0 e)).toNat
  let lead := d.fld (A.PEL_P1 e) ⟨15, 0⟩
  firstBreach
    [d.reservedSet a, d.outside a F.PEL_CTL_ACTION 0 8,
     match d.fld a F.PEL_CTL_ACTION with
     | 1 => breach (d.closesGout (p0 % 8) || (match L with
         | some l => programWritesBit l (8 * 0x204 + p0 % 8)
         | none => false)) (A.PEL_P0 e)
     | 2 => breach (Nat.blt 8 (p0 % 16)) (A.PEL_P0 e)
     | 3 => breach (!d.has (A.CAP_PLAN_CFG (p0 % 16))) (A.PEL_P0 e)
     | 4 => breach (!(d.has (A.SPN_BCFG (p0 % 512)) && d.fld (A.SPN_BCFG (p0 % 512)) F.SPN_BCFG_TYPE == 10)) (A.PEL_P0 e)
     | 5 =>
       let h := p0 / 16 % 4
       let t := p0 % 16
       breach (!(d.fixedTask h t && d.fld (A.HDL_TPHS h (16 + t)) F.HDL_TPHS_SRC == 1 && d.fld (A.HDL_TPHS h (16 + t)) F.HDL_TPHS_INDEX == e)) (A.PEL_P0 e)
     | 6 => firstBreach [breach (!d.has (A.HNK_MOD_CFG (p0 % 64))) (A.PEL_P0 e), breach (lead == 0 || Nat.blt 10000 lead) (A.PEL_P1 e)]
     | 7 => firstBreach [breach (!d.has (A.NET_GP_CFG (p0 % 32))) (A.PEL_P0 e), breach (lead == 0 || Nat.blt 10000 lead) (A.PEL_P1 e)]
     | 8 => breach (!d.has (A.PEL_CC_CFG (p0 % 8))) (A.PEL_P0 e)
     | _ => none]

/-- A controlled-closing set (R314, R322). -/
def Decl.closeBad (d : Decl) (b : Nat) : Option Nat :=
  let a := A.PEL_CC_CFG b
  let k := d.fld (A.PEL_CC_TSRC b) F.PEL_CC_TSRC_SRC / 4096
  firstBreach [d.outside a F.PEL_CC_CFG_W 1 6, d.outside a F.PEL_CC_CFG_THETA 0 359, d.outside a F.PEL_CC_CFG_PULSE 2 100,
    d.outside a F.PEL_CC_CFG_REF 0 2, d.fpOutside (A.PEL_CC_TNOM b), breach (k != 0 && k != 2 && k != 3) (A.PEL_CC_TSRC b), d.reservedSet (A.PEL_CC_TSRC b)]

/-! ### Networks -/

/-- Largest encoded length of a member in allData. -/
def memberLen (k : Nat) : Nat :=
  match k with
  | 0 => 3
  | 1 => 6
  | 2 => 7
  | 3 => 3
  | 4 => 3
  | 5 => 5
  | 6 => 10
  | _ => 12

/-- A member names nothing that exists (R332). -/
def memberBad (m : PubMember) : Bool :=
  match m.kind with
  | 0 => Nat.ble 65536 m.index
  | 1 => Nat.ble 2048 m.index
  | 2 => Nat.ble 2048 m.index
  | 3 => Nat.ble 32 m.index
  | 4 => Nat.ble 1024 m.index
  | 5 => false
  | 6 => false
  | 7 => Nat.ble 8 m.index
  | 8 => false
  | _ => true

def sumNat (l : List Nat) : Nat := l.foldl (· + ·) 0

/-- A destination outside 01-0C-CD-01-00-00 to 01-0C-CD-01-01-FF (R331). -/
def gooseDstBad (d : BitVec 48) : Bool := Nat.blt d.toNat 0x010CCD010000 || Nat.blt 0x010CCD0101FF d.toNat

/-- A GOOSE publication block (R327, R331, R336). -/
def Decl.pubBad (d : Decl) (im : Image) (g : Nat) : Option Nat :=
  let a := A.NET_GP_CFG g
  let pb := im.goosePub.find? (fun b => b.g == g)
  let ms := (pb.map (·.members)).getD []
  let dst := pb.map (·.dst)
  firstBreach [d.reservedSet a, d.reservedSet (A.NET_GP_TIM g), d.outside (A.NET_GP_TIM g) F.NET_GP_TIM_TMIN 1 100,
    d.outside (A.NET_GP_TIM g) F.NET_GP_TIM_TMAX 100 60000, breach (d.bit a 29 && (d.bit a 30 || ms.any (fun m => m.kind == 3 || m.kind == 4))) a,
    breach (ms.any memberBad || Nat.blt 1472 (sumNat (ms.map (fun m => memberLen m.kind))) || dst.any gooseDstBad) a,
    breach (d.bit a 28 && d.fld A.NET_CFG F.NET_CFG_PMODE == 3) a]

/-- A GOOSE subscription (R338). -/
def Decl.subBad (d : Decl) (im : Image) (s : Nat) : Option Nat :=
  let a := A.NET_GS_CFG s
  let maps := ((im.gooseSub.find? (fun b => b.s == s)).map (·.maps)).getD []
  firstBreach [d.reservedSet a, breach (d.bit a 27 && d.fld A.NET_CFG F.NET_CFG_PMODE == 3) a,
    breach (Nat.blt 256 maps.length || maps.any (fun m => if m.type = 0 then Nat.ble 131072 m.target else if m.type = 4 then Nat.ble 4095 m.target
      else Nat.ble 4096 m.target)) a]

/-- A sampled-value publication, or subscription. -/
def Decl.svBad (d : Decl) : Option Nat :=
  firstBreach
    (d.svPubs.map (fun n => firstBreach [d.reservedSet (A.NET_SVP_CFG n), d.outside (A.NET_SVP_CFG n) F.NET_SVP_CFG_NOASDU 1 8,
       breach (d.fld A.NET_CFG F.NET_CFG_PMODE == 3 || !d.bit (A.PRT_BAYCFG n) 31) (A.NET_SVP_CFG n)]) ++
     d.svSubs.map (fun r => firstBreach [d.reservedSet (A.NET_SVS_CFG r), d.outside (A.NET_SVS_CFG r) F.NET_SVS_CFG_RATE 1 2,
       breach (d.fld A.NET_CFG F.NET_CFG_PMODE == 3) (A.NET_SVS_CFG r)]))

/-- A Hank module (R345, R350, R353). -/
def Decl.moduleBad (d : Decl) (m : Nat) : Option Nat :=
  let a := A.HNK_MOD_CFG m
  firstBreach [d.reservedSet a, d.reservedSet (A.HNK_MOD_WD m), d.outside a F.HNK_MOD_CFG_STALE 1 15, d.outside a F.HNK_MOD_CFG_ILEN 0 64,
    d.outside a F.HNK_MOD_CFG_OLEN 0 64, d.outside (A.HNK_MOD_CYC m) F.HNK_MOD_CYC_CYC 1 4000,
    breach (Nat.ble (d.fld (A.HNK_MOD_CYC m) F.HNK_MOD_CYC_CYC) (d.fld (A.HNK_MOD_CYC m) F.HNK_MOD_CYC_PHASE)) (A.HNK_MOD_CYC m),
    d.outside (A.HNK_MOD_WD m) F.HNK_MOD_WD_WDOG 1 60000, breach (d.fld A.NET_CFG F.NET_CFG_PMODE == 3) a]

/-- Octets a frame takes on the wire with tag, trailer, preamble and gap around `n` octets of payload. -/
def wireOctets (n : Nat) : Nat := 48 + max n 46

/-- Periodic traffic of a pair in bits per 1,000 s (R330): sampled values at their rate, Hank OUTPUTs at their cycles, GOOSE at TMAX. -/
def Decl.pairTraffic (d : Decl) (im : Image) (process : Bool) : Nat :=
  let goose := d.pubs.map (fun g =>
    if d.bit (A.NET_GP_CFG g) 28 != process then 0
    else
      let t := d.fld (A.NET_GP_TIM g) F.NET_GP_TIM_TMAX
      match im.goosePub.find? (fun b => b.g == g) with
      | some b => 1000000 * 8 * wireOctets (80 + b.gocbRef.length + b.datSet.length + b.goID.length +
          sumNat (b.members.map (fun m => memberLen m.kind))) / max t 1
      | none => 0)
  let sv := d.svPubs.map (fun n =>
    let rate := match d.fld (A.FLT_BAYCFG n) F.FLT_BAYCFG_FIXED with
      | 1 => 4000
      | 2 => 4800
      | 3 => 14400
      | _ => 0
    let k := max 1 (d.fld (A.NET_SVP_CFG n) F.NET_SVP_CFG_NOASDU)
    let id := ((im.svPub.find? (fun b => b.n == n)).map (fun b => b.svID.length)).getD 0
    1000 * rate * 8 * wireOctets (19 + k * (93 + id)) / k)
  let hank := d.modules.map (fun m =>
    let c := max 1 (d.fld (A.HNK_MOD_CYC m) F.HNK_MOD_CYC_CYC)
    1000 * 4000 * 8 * wireOctets (28 + d.fld (A.HNK_MOD_CFG m) F.HNK_MOD_CFG_OLEN) / c)
  sumNat goose + (if process then sumNat sv + sumNat hank else 0)

/-- Pairing and the network as a whole (R327, R330, R371, R375). -/
def Decl.netBad (d : Decl) (im : Image) : Option Nat :=
  firstBreach [d.svBad,
    breach (im.pairing.isSome && (d.fld A.NET_CFG F.NET_CFG_SMODE == 1 || d.fld A.NET_CFG F.NET_CFG_PMODE == 1)) A.NET_CFG,
    breach (Nat.blt 400000000000 (d.pairTraffic im false) || Nat.blt 400000000000 (d.pairTraffic im true)) A.NET_CFG]

/-! ### Almanac -/

/-- An Almanac source names nothing that exists (R394). -/
def almSrcBad (src : Nat) : Bool :=
  let i := src % 4096
  match src / 4096 with
  | 1 => Nat.ble 512 i
  | 2 => i % 2 == 1
  | 3 => false
  | 4 => Nat.ble 512 i
  | 5 => Nat.ble 512 i
  | 8 => Nat.ble 32 i || i % 4 == 3
  | 9 => Nat.ble 64 i
  | 11 => Nat.ble 512 i
  | 12 => Nat.ble 16 i
  | 14 => Nat.blt 16 i
  | _ => true

/-- A histogram plan (R393–R395). -/
def Decl.almPlanBad (d : Decl) (h : Nat) : Option Nat :=
  let a := A.ALM_PLAN_CFG h
  let mode := d.fld a F.ALM_PLAN_CFG_MODE
  let src := d.fld (A.ALM_PLAN_SRC h) F.ALM_PLAN_SRC_SRC
  let k := src / 4096
  let ranged := mode == 0 || mode == 1
  let lo := fpVal (d.v (A.ALM_PLAN_LO h))
  let hi := fpVal (d.v (A.ALM_PLAN_HI h))
  firstBreach [d.reservedSet a, d.reservedSet (A.ALM_PLAN_SRC h), d.outside a F.ALM_PLAN_CFG_NB 1 (if ranged then 509 else 1),
    d.outside a F.ALM_PLAN_CFG_INT 0 4, d.outside a F.ALM_PLAN_CFG_SEV 0 5, breach (almSrcBad src) (A.ALM_PLAN_SRC h),
    breach ((k == 8 || k == 9 || k == 11) && (mode == 0 || mode == 3)) a,
    breach (ranged && (!fpIsFinite (d.v (A.ALM_PLAN_LO h)) || !fpIsFinite (d.v (A.ALM_PLAN_HI h)) || decide (hi ≤ lo) ||
      (d.bit a 24 && decide (lo ≤ 0)))) (A.ALM_PLAN_LO h)]

def Decl.trackerBad (d : Decl) (t : Nat) : Option Nat :=
  let a := A.ALM_XT_CFG t
  firstBreach [d.reservedSet a, d.outside a F.ALM_XT_CFG_INT 0 4, d.outside a F.ALM_XT_CFG_SEV 0 5, breach (almSrcBad (d.fld a F.ALM_XT_CFG_SRC)) a]

/-- All bins of all plans (R393). -/
def Decl.bins (d : Decl) : Nat := sumNat (d.almPlans.map (fun h => d.fld (A.ALM_PLAN_CFG h) F.ALM_PLAN_CFG_NB + 3))

/-! ### All of it -/

/-- The first register value that breaks a rule; `kib` is the size of Keep memory. -/
def Decl.regsBad (d : Decl) (im : Image) (kib : Nat) : Option Nat :=
  firstBreach
    ([d.globalBad, d.userSetBad 0, d.userSetBad 1] ++ d.lanes.map d.laneBad ++ d.bays.map d.bayBad ++ d.signals.map d.signalBad ++
     d.insts.map d.instBad ++ (List.range 64).map d.curveBad ++ (List.range 32).map d.channelBad ++ d.plans.map d.planBad ++ d.tasks.map d.taskBad ++
     d.blocks.map (d.blockBad im.logic) ++ d.peals.map (d.pealBad im.logic) ++ d.closes.map d.closeBad ++ d.pubs.map (d.pubBad im) ++
     d.subs.map (d.subBad im) ++ d.modules.map d.moduleBad ++ [d.netBad im] ++ d.almPlans.map d.almPlanBad ++ d.trackers.map d.trackerBad ++
     [breach (Nat.blt 16384 d.bins) (A.ALM_PLAN_CFG 0), breach (Nat.blt kib 4096) A.ALM_CFG])

/-- Section items that have no register (R428, R230, R264, R345, R368): section type and item, an instruction's index in LOGIC. -/
def Decl.itemsBad (d : Decl) (im : Image) : Option (Nat × Nat) :=
  let logic : Option (Nat × Nat) := match im.logic with
    | none => none
    | some L =>
      match logicBad L with
      | some i => some (4, i)
      | none => match placedBad L with
        | some i => some (4, i)
        | none => ((evttTargets L).find? (fun e => !d.fixedTask e.2.1 e.2.2)).map (fun e => (4, e.1))
  let tun : Option (Nat × Nat) := ((im.tunables.zipIdx).find? (fun e =>
      Nat.ble (if e.1.area = 7 then kCount else if e.1.w32 then wWords - 1 else wWords) e.1.index ||
        (e.1.area == 4 && e.1.w32 && e.1.index % 2 == 1))).map (fun e => (6, e.2))
  let pair : Option (Nat × Nat) := match im.pairing with
    | some p => if p.alone < 1 ∨ 60 < p.alone ∨ p.claimWd < 1 ∨ 20 < p.claimWd ∨ 3 < p.ownerPair then some (12, 0) else none
    | none => none
  [logic, tun, pair].findSome? id

/-- A member count other than NMEMB + 1, or a kind that does not exist (R428, R332). -/
def Decl.pubMalformed (d : Decl) (b : PubBlock) : Bool :=
  b.members.length != d.fld (A.NET_GP_CFG b.g) F.NET_GP_CFG_NMEMB + 1 || b.members.any (fun m => Nat.blt 8 m.kind)

/-- A member type that does not exist, or a map that names no member, or one of another type (R428, R338). -/
def subMalformed (b : SubBlock) : Bool :=
  Nat.blt 256 b.maps.length || b.types.any (fun t => Nat.blt 5 t) ||
    b.maps.any (fun m => Nat.ble b.types.length m.member || Nat.blt 4 m.type || b.types.getD m.member 5 != m.type)

/-- Initial values or stop runs beyond their areas (R223, R428). -/
def dataMalformed (l : LogicData) : Bool :=
  Nat.blt kCount l.k.length || Nat.blt wWords l.w.length || Nat.blt cCount l.c.length ||
    l.qstop.any (fun r => Nat.blt 0x6000 (r.octet + r.data.length))

/-- Section content that is malformed as R428 has it: section type, and its octet offset where the decoded image determines it. Declared
items have exactly one entry, and every entry names a declared item. -/
def Decl.entryMismatch (d : Decl) (im : Image) : Option (Nat × Option Nat) :=
  let differ (l : List Nat) (e : List Nat) : Bool := l.any (fun i => (e.filter (· == i)).length != 1) || e.any (fun i => !l.contains i)
  let signals : Option (Nat × Option Nat) :=
    if im.signals.length ≠ 96 then some (2, none)
    else ((im.signals.zipIdx).find? (fun e => !d.bit (A.FLT_SIG e.2) 31 &&
      (e.1.primary != 0 || e.1.svScale != 0 || e.1.injGain != 0 || e.1.injTau != 0))).map (fun e => (2, some (16 * e.2)))
  let logic : Option (Nat × Option Nat) := match im.logic with
    | none => if d.tasks.isEmpty then none else some (4, none)
    | some L => match logicMalformed L with
      | some o => some (4, some o)
      | none => match d.entriesBad L with
        | some o => some (4, some o)
        | none => if d.taskOrphan L then some (4, none) else none
  let bad (c : Bool) (ty : Nat) : Option (Nat × Option Nat) := if c then some (ty, none) else none
  [signals, logic, bad ((im.logicData.map dataMalformed).getD false) 5,
   (if 1024 < im.tunables.length then some (6, some 0)
    else ((im.tunables.zipIdx).find? (fun e => e.1.area != 4 && e.1.area != 7)).map (fun e => (6, some (4 + 16 * e.2)))),
   bad (differ d.pubs (im.goosePub.map (·.g)) || im.goosePub.any d.pubMalformed) 7,
   bad (differ d.subs (im.gooseSub.map (·.s)) || im.gooseSub.any subMalformed) 8,
   bad (differ d.svPubs (im.svPub.map (·.n))) 9, bad (differ d.svSubs (im.svSub.map (·.n))) 10,
   bad (differ d.modules (im.hank.map (·.m)) || im.hank.any (fun h => Nat.blt 1024 h.param.length || h.safe.length != 64 || h.subst.length != 64)) 11
  ].findSome? id

end Sys2Proof.Machine
end

