-- ==== Sys2Proof/Machine/Reels.lean ====
section
/-! DEFINITION. Placement of Reels: composed Reels (R44), the rules of explicit Reels (R37–R43, R45) and their codes (R46). -/

namespace Sys2Proof.Machine

/-- A placement failure: code and CFG_FAILITEM. -/
structure PlaceFail where
  code : Nat
  item : Nat
  deriving DecidableEq, Repr

/-- CFG_FAILITEM of a slice with a lane, an entry of an explicit Reel, or neither (R445). -/
def laneItem (k x : Nat) : Nat := k * 2 ^ 24 + x
def entryItem (k e : Nat) : Nat := k * 2 ^ 24 + 65536 + e
def sliceItem (k : Nat) : Nat := k * 2 ^ 24 + 0xFFFF

/-! ### Slots of a composed cycle (L = 256): each slot an entry word -/

def openSlot : Word := 0x40000000
def cshSlot : Word := 0x10000000

def isOpen (w : Word) : Bool := bitGet w 30
def isCsh (w : Word) : Bool := bitGet w 28
def isXck (w : Word) : Bool := bitGet w 29
/-- A slot converts a lane or a diagnostic position. -/
def isConv (w : Word) : Bool := !(isOpen w || isCsh w || isXck w)
def slotMux (w : Word) : Nat := w.toNat / 2 ^ 17 % 128
def slotGain (w : Word) : Nat := w.toNat / 2 ^ 24 % 4

/-- The entry word of a lane's conversion. -/
def laneSlot (mux gain : Nat) : Word := BitVec.ofNat 32 (gain * 2 ^ 24 + mux * 2 ^ 17)

/-- Every 32 consecutive slots of the looping cycle hold an open slot: no run of 32 or more slots without one, over two turns. -/
def openRule (l : List Word) : Bool :=
  ((l ++ l).foldl (fun (acc : Nat × Bool) w => if isOpen w then (0, acc.2) else (acc.1 + 1, acc.2 || Nat.ble 31 acc.1)) (0, false)).2 == false

/-- A slice before its lanes: on S0–S15 every sixteenth slot is CSH. -/
def emptyCycle (spare : Bool) : List Word := (List.range 256).map (fun s => if !spare && s % 16 == 15 then cshSlot else openSlot)

/-- The slots of a phase. -/
def phaseSlots (n p : Nat) : List Nat := (List.range 256).filter (fun s => s % 2 ^ n == p)

/-- Put a lane on a phase. -/
def putPhase (l : List Word) (n p : Nat) (w : Word) : List Word := l.zipIdx.map (fun e => if e.2 % 2 ^ n == p then w else e.1)

/-- A phase is free, and taking it keeps the open-slot rule. -/
def phaseOk (l : List Word) (n p : Nat) (w : Word) : Bool :=
  (phaseSlots n p).all (fun s => isOpen (l.getD s cshSlot)) && openRule (putPhase l n p w)

/-- A lane to be placed. -/
structure LaneRow where
  x : Nat
  mux : Nat
  gain : Nat
  n : Nat

def Decl.laneRow (d : Decl) (x : Nat) : LaneRow :=
  let a := A.ACQ_LANE x
  { x := x, mux := d.fld a F.ACQ_LANE_MUX, gain := d.fld a F.ACQ_LANE_GAIN, n := d.fld a F.ACQ_LANE_RATE_N }

/-- The order of the third step: rate descending, position and gain ascending. -/
def LaneRow.before (a b : LaneRow) : Bool :=
  Nat.blt a.n b.n || (a.n == b.n && (Nat.blt a.mux b.mux || (a.mux == b.mux && Nat.ble a.gain b.gain)))

def insertLane (r : LaneRow) : List LaneRow → List LaneRow
  | [] => [r]
  | q :: l => if r.before q then r :: q :: l else q :: insertLane r l

def sortLanes (l : List LaneRow) : List LaneRow := l.foldr insertLane []

/-- Declared lanes of a slice. -/
def Decl.sliceLanes (d : Decl) (k : Nat) : List LaneRow :=
  (d.lanes.filter (fun x => d.fld (A.ACQ_LANE x) F.ACQ_LANE_SLICE == k)).map d.laneRow

/-- A high-range lane on positions 0–2. -/
def LaneRow.high (r : LaneRow) : Bool := r.gain == 0 && r.n == 3 && Nat.blt r.mux 3

/-- Place a lane at the first phase that passes. -/
def placeLane (k : Nat) (phases : List Nat) (r : LaneRow) (l : List Word) : Except PlaceFail (List Word) :=
  match phases.find? (fun p => phaseOk l r.n p (laneSlot r.mux r.gain)) with
  | some p => .ok (putPhase l r.n p (laneSlot r.mux r.gain))
  | none => .error { code := 0x0210, item := laneItem k r.x }

/-- Place lanes in order, each at its lowest free phase. -/
def placeLanes (k : Nat) : List LaneRow → List Word → Except PlaceFail (List Word)
  | [], l => .ok l
  | r :: rs, l => match placeLane k (List.range (2 ^ r.n)) r l with
    | .ok l1 => placeLanes k rs l1
    | .error e => .error e

/-- Further lanes on position 0: a phase open on the previous slice first. -/
def placePosZero (k : Nat) (prev : List Word) : List LaneRow → List Word → Except PlaceFail (List Word)
  | [], l => .ok l
  | r :: rs, l =>
    let all := List.range (2 ^ r.n)
    let pref := all.filter (fun p => (phaseSlots r.n p).all (fun s => isOpen (prev.getD s cshSlot)))
    match placeLane k (pref ++ all) r l with
    | .ok l1 => placePosZero k prev rs l1
    | .error e => .error e

/-- A lane of a slice whose conversions do not fit the cycle of 256 slots. -/
def slowLane (k : Nat) (lanes : List LaneRow) : Option PlaceFail :=
  (lanes.find? (fun r => Nat.ble 9 r.n)).map (fun r => { code := 0x0214, item := laneItem k r.x })

/-- Compose slice k after the previous one. -/
def Decl.composeLanes (d : Decl) (k : Nat) (prev : List Word) : Except PlaceFail (List Word) :=
  let lanes := d.sliceLanes k
  let high := lanes.filter LaneRow.high
  let zero := sortLanes (lanes.filter (fun r => !r.high && r.mux == 0))
  let rest := sortLanes (lanes.filter (fun r => !r.high && r.mux != 0))
  let l0 := high.foldl (fun l r => putPhase l 3 r.mux (laneSlot r.mux r.gain)) (emptyCycle false)
  match placePosZero k prev zero l0 with
  | .error e => .error e
  | .ok l1 => placeLanes k rest l1

/-- Slice k, where no lane is too slow. -/
def Decl.composeSlice (d : Decl) (k : Nat) (prev : List Word) : Except PlaceFail (List Word) :=
  match slowLane k (d.sliceLanes k) with
  | some e => .error e
  | none => d.composeLanes k prev

/-- Compose S0–S15 in ascending order. -/
def Decl.composeFrom (d : Decl) : Nat → Nat → List Word → Except PlaceFail (List (List Word))
  | 0, _, _ => .ok []
  | n + 1, k, prev => match d.composeSlice k prev with
    | .error e => .error e
    | .ok l => match d.composeFrom n (k + 1) l with
      | .error e => .error e
      | .ok ls => .ok (l :: ls)

/-- The lanes of S16 take CSH slot indices. -/
def placeSpare : List LaneRow → List Word → Except PlaceFail (List Word)
  | [], l => .ok l
  | r :: rs, l =>
    match (List.range (2 ^ r.n)).find? (fun p => (phaseSlots r.n p).all (fun s => s % 16 == 15 && isOpen (l.getD s cshSlot))) with
    | some p => placeSpare rs (putPhase l r.n p (laneSlot r.mux r.gain))
    | none => .error { code := 0x0212, item := laneItem 16 r.x }

/-- Replace one slot. -/
def putSlot (l : List Word) (s : Nat) (w : Word) : List Word := l.zipIdx.map (fun e => if e.2 == s then w else e.1)

/-- The XCK slot of slice k, against the next slice. -/
def withXck (l next : List Word) : List Word :=
  match (List.range 256).find? (fun s =>
      let w := next.getD s openSlot
      isConv w && slotMux w == 0 && isOpen (l.getD s cshSlot) && openRule (putSlot l s (0x200C0000 + laneSlot 0 (slotGain w)))) with
  | some s => putSlot l s (0x200C0000 + laneSlot 0 (slotGain (next.getD s openSlot)))
  | none => l

/-- One more slot of a cycle: it lengthens the last entry where both are open or both CSH and it is not full. Entries are held last
first. -/
def mergeSlot (acc : List Word) (w : Word) : List Word :=
  match acc with
  | [] => [w]
  | e :: es =>
    if (isOpen w || isCsh w) && (e.toNat / 2 ^ 28 == w.toNat / 2 ^ 28) && Nat.blt (e.toNat / 2 ^ 11 % 64) 63 then (e + 2 ^ 11) :: es
    else w :: e :: es

/-- Entries of a cycle: runs of open or CSH slots merged, at most 64 slots an entry. -/
def mergeSlots (l : List Word) : List Word := (l.foldl mergeSlot []).reverse

/-- EOC on the last entry. -/
def withEoc : List Word → List Word
  | [] => []
  | [w] => [bitPut w 31 true]
  | w :: l => w :: withEoc l

/-- Two declared lanes of one slice, position and gain; more than 128 cannot be declared. -/
def Decl.sameLane (d : Decl) : Option Nat :=
  d.lanes.find? (fun x => d.lanes.any (fun y => Nat.blt y x && (d.v (A.ACQ_LANE x)).toNat / 2 ^ 15 % 2 ^ 14 == (d.v (A.ACQ_LANE y)).toNat / 2 ^ 15 % 2 ^ 14))

/-- All 17 composed Reels. -/
def Decl.composeReels (d : Decl) : Except PlaceFail (List (List Word)) :=
  let sl (x : Nat) : Nat := d.fld (A.ACQ_LANE x) F.ACQ_LANE_SLICE
  match d.sameLane with
  | some x => .error { code := 0x0213, item := laneItem (sl x) x }
  | none =>
    match d.composeFrom 16 0 (emptyCycle false) with
    | .error e => .error e
    | .ok ls =>
      match slowLane 16 (d.sliceLanes 16) with
      | some e => .error e
      | none =>
        match placeSpare (sortLanes (d.sliceLanes 16)) (emptyCycle true) with
        | .error e => .error e
        | .ok sp =>
          let done := (ls.zipIdx.map (fun e => withXck e.1 (ls.getD ((e.2 + 1) % 16) []))) ++ [sp]
          let reels := done.map (fun l => withEoc (mergeSlots l))
          match (List.range 17).find? (fun k => Nat.blt 256 (reels.getD k []).length) with
          | some k => .error { code := 0x0211, item := sliceItem k }
          | none => .ok reels

/-! ### Explicit Reels -/

/-- The entries of a Reel up to and including the first with EOC. -/
def reelUsed : List Word → List Word
  | [] => []
  | w :: l => if bitGet w 31 then [w] else w :: reelUsed l

/-- First slots of the entries of a Reel. -/
def entryStarts : Nat → List Word → List (Nat × Word)
  | _, [] => []
  | s, w :: l => (s, w) :: entryStarts (s + entrySlots w) l

/-- An entry's fields are of R38, R39 and R41: the lane it belongs to, if it is a lane's. -/
def Decl.entryBad (d : Decl) (k : Nat) (w : Word) : Bool :=
  let flags := (isOpen w).toNat + (isXck w).toNat + (isCsh w).toNat
  let m := slotMux w
  let rep := w.toNat / 2 ^ 11 % 64 + 1
  let lane := d.lanes.any (fun x => d.fld (A.ACQ_LANE x) F.ACQ_LANE_SLICE == k && (d.laneRow x).mux == m && (d.laneRow x).gain == slotGain w)
  w.toNat / 2 ^ 26 % 4 != 0 || w.toNat / 2 ^ 8 % 8 != 0 || Nat.blt 1 flags ||
  (if isOpen w || isCsh w then m != 0 || slotGain w != 0
   else if isXck w then m != 6 || rep != 1 || k == 16
   else if k < 16 then
     (if m < 6 then !lane || !([1, 2, 4, 8, 16, 32, 64].contains rep) else Nat.blt 10 m || m == 6)
   else if m < 104 then !lane || !([1, 2, 4, 8, 16, 32, 64].contains rep) else Nat.blt 107 m)

/-- A lane's conversions are 2ⁿ slots apart round the cycle. -/
def Decl.spacingBad (d : Decl) (l : Nat) (es : List (Nat × Word)) (x : Nat) : Bool :=
  let r := d.laneRow x
  let ss := (es.filter (fun e => isConv e.2 && slotMux e.2 == r.mux && slotGain e.2 == r.gain)).map (·.1)
  let p := ss.headD 0 % 2 ^ r.n
  Nat.blt l (2 ^ r.n) || ss != (List.range (l / 2 ^ r.n)).map (fun j => p + j * 2 ^ r.n)

/-- The entry that starts at or covers a slot. -/
def entryAt (es : List (Nat × Word)) (s : Nat) : Option Word :=
  (es.find? (fun e => Nat.ble e.1 s && Nat.blt s (e.1 + e.2.toNat / 2 ^ 11 % 64 + 1))).map (·.2)

/-- First failure of explicit Reels, in ascending slice. The table of R46 names three causes in no row: a Reel without EOC counts as one of no
length (0x0215), non-zero entries after EOC as invalid entries (0x0216), a list that is not 256 entries long as 0x0211 (assumption 58). -/
def Decl.explicitBad (d : Decl) (reels : List (List Word)) : Option PlaceFail :=
  let used (k : Nat) : List Word := reelUsed (reels.getD k [])
  let len (k : Nat) : Nat := sumNat ((used k).map entrySlots)
  let l := len 0
  let starts (k : Nat) : List (Nat × Word) := entryStarts 0 (used k)
  let slice (k : Nat) : Option PlaceFail :=
    let es := starts k
    if Nat.blt 256 (used k).length || (reels.getD k []).length != 256 then some { code := 0x0211, item := sliceItem k }
    else if len k ≠ l ∨ l < 16 ∨ 65536 % l ≠ 0 ∨ !(used k).any (fun w => bitGet w 31) then some { code := 0x0215, item := sliceItem k }
    else
      match (List.range (used k).length).find? (fun e => d.entryBad k ((used k).getD e 0)) with
      | some e => some { code := 0x0216, item := entryItem k e }
      | none =>
        match (reels.getD k []).zipIdx.find? (fun e => Nat.ble (used k).length e.2 && e.1 != 0) with
        | some e => some { code := 0x0216, item := entryItem k e.2 }
        | none =>
          match (d.sliceLanes k).find? (fun r => d.spacingBad l es r.x) with
          | some r => some { code := 0x0214, item := laneItem k r.x }
          | none =>
            match (d.sliceLanes k).find? (fun r => k % 2 == 0 && k != 16 && r.high && ((es.find? (fun e => isConv e.2 && slotMux e.2 == r.mux &&
                slotGain e.2 == 0)).map (fun e => e.1 % 8)) != some r.mux) with
            | some r => some { code := 0x0219, item := laneItem k r.x }
            | none =>
              match es.zipIdx.find? (fun e => isXck e.1.2 && (match entryAt (starts ((k + 1) % 16)) e.1.1 with
                  | some w => !(isConv w && slotMux w == 0 && slotGain w == slotGain e.1.2)
                  | none => true)) with
              | some e => some { code := 0x0217, item := entryItem k e.2 }
              | none =>
                if k = 16 then
                  (es.zipIdx.find? (fun e => isConv e.1.2 && Nat.blt (slotMux e.1.2) 104 && (List.range 16).any (fun j => (List.range (e.1.2.toNat / 2 ^ 11 % 64 + 1)).any
                    (fun i => ((entryAt (starts j) (e.1.1 + i)).map isCsh).getD false == false)))).map (fun e => { code := 0x0218, item := entryItem 16 e.2 })
                else none
  match d.sameLane with
  | some x => some { code := 0x0213, item := laneItem (d.fld (A.ACQ_LANE x) F.ACQ_LANE_SLICE) x }
  | none => (List.range 17).findSome? slice

/-- The Reels an image places: the explicit ones up to their EOC, or composed ones. -/
def Decl.placeReels (d : Decl) (explicit : Option (List (List Word))) : Except PlaceFail (List (List Word)) :=
  match explicit with
  | none => d.composeReels
  | some rs =>
    match d.explicitBad rs with
    | some e => .error e
    | none => .ok ((List.range 17).map (fun k => reelUsed (rs.getD k [])))

end Sys2Proof.Machine
end

