-- ==== Sys2Proof/Machine/Placement.lean ====
section
/-! DEFINITION. Placement (R245, R246, R269, R445–R449): bays on protection engines, Heddle tasks, loop blocks, capture rings, Almanac
bins and cluster floors, with the codes that stop a slot. -/

namespace Sys2Proof.Machine

/-! ### Bays (R446, R447) -/

/-- Cycles per frame of an instance by type (R447). -/
def typeCycles (ty : Nat) : Nat :=
  match ty with
  | 0x0E => 0
  | 0x1F => 150
  | 0x20 => 150
  | 0x03 => 400
  | 0x04 => 400
  | 0x06 => 400
  | 0x0D => 400
  | 0x0F => 400
  | 0x10 => 400
  | 0x12 => 400
  | 0x13 => 400
  | 0x14 => 400
  | 0x17 => 400
  | 0x1C => 900
  | _ => 250

/-- What a bay asks of an engine: cycles of a harmonic frame, four times the mean, octets of local memory, whether it has a WFD. -/
structure BayCost where
  fh : Nat
  fa4 : Nat
  mem : Nat
  wfd : Bool

def Decl.bayCost (d : Decl) (b : Nat) : BayCost :=
  let sig := (d.signals.filter (fun x => d.fld (A.FLT_SIG x) F.FLT_SIG_BAY == b)).length
  let xs := d.insts.filter (fun x => d.instBay x == b)
  let base := 2000 + 400 * sig + sumNat (xs.map (fun x => typeCycles (vType d.v x)))
  { fh := base + 1100 * sig, fa4 := 4 * base + 1100 * sig, mem := 24 * 1024 + 256 * xs.length
    wfd := xs.any (fun x => vType d.v x == 0x1F) }

/-- Bays on one engine meet the deadline and the headroom at a clock in MHz (R446): 50 µs, and 0.80 × 1.190 ms. -/
def timeOk (l : List BayCost) (mhz : Nat) : Bool :=
  Nat.ble (sumNat (l.map (·.fh)) + (if l.any (·.wfd) then 5000 else 0)) (50 * mhz) && Nat.ble (sumNat (l.map (·.fa4))) (4 * 952 * mhz)

/-- They fit in its local memory. -/
def memOk (l : List BayCost) : Bool := Nat.ble (96 * 1024 + sumNat (l.map (·.mem))) (256 * 1024)

/-- Bays with their engines so far. -/
abbrev BayMap := List (Nat × Nat)

def Decl.onEngine (d : Decl) (m : BayMap) (e : Nat) : List BayCost := (m.filter (fun p => p.2 == e)).map (fun p => d.bayCost p.1)

/-- An engine can take a bay. -/
def Decl.engineTakes (d : Decl) (m : BayMap) (b e : Nat) : Bool :=
  timeOk (d.bayCost b :: d.onEngine m e) 1000 && memOk (d.bayCost b :: d.onEngine m e)

/-- The engine of most headroom among candidates, the lowest number on a tie. -/
def Decl.roomiest (d : Decl) (m : BayMap) : List Nat → Option Nat
  | [] => none
  | e :: l => match d.roomiest m l with
    | none => some e
    | some f => if sumNat ((d.onEngine m e).map (·.fa4)) ≤ sumNat ((d.onEngine m f).map (·.fa4)) then some e else some f

/-- The engine a bay goes to (R446); `engines` the healthy ones. -/
def Decl.bayEngine (d : Decl) (engines : List Nat) (m : BayMap) (b : Nat) : Option Nat :=
  if engines.contains b && d.engineTakes m b b then some b else d.roomiest m (engines.filter (d.engineTakes m b))

/-- Bays in ascending order. -/
def Decl.placeBays (d : Decl) (engines : List Nat) : List Nat → BayMap → Except PlaceFail BayMap
  | [], m => .ok m
  | b :: l, m =>
    match d.bayEngine engines m b with
    | some e => d.placeBays engines l (m ++ [(b, e)])
    | none =>
      let alone := timeOk [d.bayCost b] 1000
      let code := if !alone then 0x0310
        else if !memOk [d.bayCost b] || engines.any (fun e => timeOk (d.bayCost b :: d.onEngine m e) 1000) then 0x0312 else 0x0311
      .error { code := code, item := b }

/-- Clock of an operating point P1–P4 (R449). -/
def pointMhz (p : Nat) : Nat := 200 + 200 * p
/-- Its voltage in mV. -/
def pointMv (p : Nat) : Nat :=
  match p with
  | 1 => 650
  | 2 => 700
  | 3 => 775
  | _ => 850

/-- The floor of C0 or C1: the lowest point at which every engine of the cluster meets R446. -/
def Decl.clusterFloor (d : Decl) (m : BayMap) (c : Nat) : Nat :=
  ((List.range 4).map (· + 1)).find? (fun p => (List.range 4).all (fun i => timeOk (d.onEngine m (4 * c + i)) (pointMhz p))) |>.getD 4

/-! ### Heddle tasks (R245, R246, R448) -/

/-- A task as the schedulability test sees it: worst-case cycles, period or least inter-release time in cycles at 800 MHz, priority,
periodic or event. -/
structure TaskLoad where
  cyc : Nat
  per : Nat
  prio : Nat
  event : Bool

/-- A task entry's load under its task set. -/
def taskLoad (b : LogicBlock) (cfg : Word) : TaskLoad :=
  let ev := bitGet cfg 30
  { cyc := b.wcet, per := if ev then b.minInterUs * 800 else fldGet F.HDL_TCFG_PERIOD cfg * 800000
    prio := fldGet F.HDL_TCFG_PRIO cfg, event := ev }

/-- Utilisation. -/
def TaskLoad.util (t : TaskLoad) : Rat := if t.per = 0 then (t.cyc : Rat) else (t.cyc : Rat) / t.per

def sumRat (l : List Rat) : Rat := l.foldl (· + ·) 0

/-- Response time by repeated counting of the releases of higher priority; none where it passes the limit. -/
def response (hp : List TaskLoad) (c limit : Nat) : Nat → Nat → Option Nat
  | 0, _ => none
  | n + 1, r =>
    let r1 := c + sumNat (hp.map (fun t => (r + t.per - 1) / max t.per 1 * t.cyc))
    if limit < r1 then none else if r1 = r then some r else response hp c limit n r1

/-- The test of R246 on one Heddle. -/
def schedulable (l : List TaskLoad) : Bool :=
  l.all (fun t => t.per != 0) && decide (sumRat (l.map TaskLoad.util) ≤ 85 / 100) &&
    l.all (fun t => t.event || (response (l.filter (fun u => Nat.blt u.prio t.prio)) t.cyc t.per 4096 t.cyc).isSome)

/-- A task put on a Heddle: LOGIC block index, Heddle, task number, its set and whether the device placed it. -/
structure TaskPlace where
  block : Nat
  h : Nat
  t : Nat
  cfg : Word
  phs : Word
  placed : Bool

/-- The loads on a Heddle. -/
def loadsOn (L : LogicSection) (ps : List TaskPlace) (h : Nat) : List TaskLoad :=
  (ps.filter (fun p => p.h == h)).filterMap (fun p => (L.blocks[p.block]?).map (fun b => taskLoad b p.cfg))

/-- Insert a block index in descending utilisation, the earlier index first on a tie. -/
def insertTask (L : LogicSection) (i : Nat) : List Nat → List Nat
  | [] => [i]
  | j :: l =>
    let u (k : Nat) : Rat := ((L.blocks[k]?).map (fun b => (taskLoad b b.tcfg).util)).getD 0
    if u j ≤ u i then i :: j :: l else j :: insertTask L i l

/-- The Heddle of lowest utilisation among candidates, the lowest number on a tie. -/
def lightest (L : LogicSection) (ps : List TaskPlace) : List Nat → Option Nat
  | [] => none
  | h :: l => match lightest L ps l with
    | none => some h
    | some g => if sumRat ((loadsOn L ps h).map TaskLoad.util) ≤ sumRat ((loadsOn L ps g).map TaskLoad.util) then some h else some g

/-- Fixed tasks in block order; `test` applies R246. -/
def Decl.placeFixed (d : Decl) (L : LogicSection) (heddles : List Nat) (test : Bool) : List Nat → List TaskPlace → Except PlaceFail (List TaskPlace)
  | [], ps => .ok ps
  | i :: l, ps =>
    match L.blocks[i]? with
    | none => d.placeFixed L heddles test l ps
    | some b =>
      if b.callable || b.heddle == 255 then d.placeFixed L heddles test l ps
      else
        let p : TaskPlace := { block := i, h := b.heddle, t := b.task, cfg := d.v (A.HDL_TCFG b.heddle b.task)
                               phs := d.v (A.HDL_TPHS b.heddle b.task), placed := false }
        if !heddles.contains b.heddle || (test && !schedulable (loadsOn L (ps ++ [p]) b.heddle)) then .error { code := 0x0A10, item := i }
        else d.placeFixed L heddles test l (ps ++ [p])

/-- Lowest free task number of a kind on a Heddle. -/
def Decl.freeTask (d : Decl) (ps : List TaskPlace) (h : Nat) (ev : Bool) : Option Nat :=
  ((List.range 16).map (· + (if ev then 16 else 0))).find? (fun t => !d.bit (A.HDL_TCFG h t) 31 && !ps.any (fun p => p.h == h && p.t == t))

/-- Tasks that the device places, in the order given. -/
def Decl.placeFree (d : Decl) (L : LogicSection) (heddles : List Nat) (test : Bool) : List Nat → List TaskPlace → Except PlaceFail (List TaskPlace)
  | [], ps => .ok ps
  | i :: l, ps =>
    match L.blocks[i]? with
    | none => d.placeFree L heddles test l ps
    | some b =>
      let at_ (h : Nat) : Option TaskPlace := (d.freeTask ps h (bitGet b.tcfg 30)).map (fun t =>
        { block := i, h := h, t := t, cfg := bitPut b.tcfg 31 true, phs := b.tphs, placed := true })
      let fits (h : Nat) : Bool := match at_ h with
        | some p => !test || schedulable (loadsOn L (ps ++ [p]) h)
        | none => false
      match (lightest L ps (heddles.filter fits)).bind at_ with
      | some p => d.placeFree L heddles test l (ps ++ [p])
      | none => .error { code := 0x0A10, item := i }

/-- The block indices of device-placed tasks, in descending utilisation. -/
def freeOrder (L : LogicSection) : List Nat :=
  ((List.range L.blocks.length).filter (fun i => match L.blocks[i]? with
    | some b => !b.callable && b.heddle == 255
    | none => false)).foldr (insertTask L) []

/-- All tasks, under the test or without it. -/
def Decl.placeTasks (d : Decl) (L : LogicSection) (heddles : List Nat) (test : Bool) : Except PlaceFail (List TaskPlace) :=
  match d.placeFixed L heddles test (List.range L.blocks.length) [] with
  | .error e => .error e
  | .ok ps => d.placeFree L heddles test (freeOrder L) ps

/-- Instructions of the task entry and callable blocks. -/
def programSize (L : LogicSection) : Nat := sumNat (L.blocks.map (·.length))

/-- The model and the tasks (R245): free-run or tasked. -/
def Decl.placeLogic (d : Decl) (L : LogicSection) (heddles : List Nat) : Except PlaceFail (Bool × List TaskPlace) :=
  let scan := d.fld A.HDL_CFG F.HDL_CFG_SCAN
  let free : Except PlaceFail (Bool × List TaskPlace) := (d.placeTasks L heddles false).map (fun ps => (true, ps))
  if scan = 2 then free
  else if 32768 < programSize L then (if scan = 1 then .error { code := 0x0A11, item := programSize L } else free)
  else match d.placeTasks L heddles true with
    | .ok ps => .ok (false, ps)
    | .error e => if scan = 1 then .error e else free

/-! ### Loop blocks (R269, R448) -/

/-- Cycles of a block type (R280). -/
def blockCycles (ty : Nat) : Nat :=
  match ty with
  | 1 => 96
  | 2 => 24
  | 3 => 12
  | 4 => 16
  | 5 => 16
  | 6 => 12
  | 7 => 40
  | 8 => 24
  | 9 => 24
  | 10 => 160
  | _ => 0

/-- Utilisation of a block at 800 MHz. -/
def Decl.blockUtil (d : Decl) (b : Nat) : Rat :=
  (blockCycles (d.fld (A.SPN_BCFG b) F.SPN_BCFG_TYPE) : Rat) / (80000 * max 1 (d.fld (A.SPN_BPER b) F.SPN_BPER_K) : Nat)

/-- Blocks chained directly: one takes the other's output, at one period and phase. -/
def Decl.chained (d : Decl) (b c : Nat) : Bool :=
  d.v (A.SPN_BPER b) == d.v (A.SPN_BPER c) &&
    (List.range 4).any (fun i => d.binSrc b i == 4096 + c || d.binSrc c i == 4096 + b)

/-- Grow a chain group from `grp` by the blocks left. -/
def Decl.growGroup (d : Decl) : Nat → List Nat → List Nat → List Nat × List Nat
  | 0, grp, left => (grp, left)
  | n + 1, grp, left =>
    let more := left.filter (fun c => grp.any (d.chained c))
    if more.isEmpty then (grp, left) else d.growGroup n (grp ++ more) (left.filter (fun c => !more.contains c))

/-- The chain groups of the declared blocks. -/
def Decl.chainGroups (d : Decl) : Nat → List Nat → List (List Nat)
  | 0, _ => []
  | _, [] => []
  | n + 1, b :: l =>
    let (g, left) := d.growGroup 512 [b] l
    g :: d.chainGroups n left

def Decl.groupUtil (d : Decl) (g : List Nat) : Rat := sumRat (g.map d.blockUtil)

/-- Insert a group in descending utilisation. -/
def Decl.insertGroup (d : Decl) (g : List Nat) : List (List Nat) → List (List Nat)
  | [] => [g]
  | h :: l => if d.groupUtil h ≤ d.groupUtil g then g :: h :: l else h :: d.insertGroup g l

/-- Blocks with their Spindles. -/
abbrev LoopMap := List (Nat × Nat)

def onSpindle (m : LoopMap) (s : Nat) : List Nat := (m.filter (fun p => p.2 == s)).map (·.1)

/-- The Spindle of lowest utilisation among candidates. -/
def Decl.lightSpindle (d : Decl) (m : LoopMap) : List Nat → Option Nat
  | [] => none
  | s :: l => match d.lightSpindle m l with
    | none => some s
    | some t => if d.groupUtil (onSpindle m s) ≤ d.groupUtil (onSpindle m t) then some s else some t

/-- Groups in order. -/
def Decl.placeGroups (d : Decl) (spindles : List Nat) : List (List Nat) → LoopMap → Except PlaceFail LoopMap
  | [], m => .ok m
  | g :: l, m =>
    if 128 < g.length then .error { code := 0x0B11, item := g.headD 0 }
    else
      let takes (s : Nat) : Bool := Nat.ble ((onSpindle m s).length + g.length) 128 && decide (d.groupUtil (onSpindle m s) + d.groupUtil g ≤ 80 / 100)
      match d.lightSpindle m (spindles.filter takes) with
      | some s => d.placeGroups spindles l (m ++ g.map (fun b => (b, s)))
      | none => .error { code := 0x0B10, item := g.headD 0 }

/-! ### Capture rings and Almanac bins -/

/-- Ring blocks of a plan (R204). -/
def Decl.planRing (d : Decl) (p : Nat) : Nat :=
  let cfg := A.CAP_PLAN_CFG p
  let fc := if d.fld (A.FLT_BAYCFG (d.fld cfg F.CAP_PLAN_CFG_BAY)) F.FLT_BAYCFG_FIXED = 3 then 19200 else 9600
  (d.fld (A.CAP_PLAN_WIN p) F.CAP_PLAN_WIN_PRE * fc * (4 * d.fld cfg F.CAP_PLAN_CFG_NSIG + 32) + 65535999) / 65536000 + 1

/-- The first enabled plan whose ring passes 320 blocks. -/
def Decl.capFail (d : Decl) : List Nat → Nat → Option Nat
  | [], _ => none
  | p :: l, n =>
    let n1 := if d.bit (A.CAP_PLAN_CFG p) 31 then n + d.planRing p else n
    if 320 < n1 then some p else d.capFail l n1

/-- First bin of each Almanac plan. -/
def Decl.almBases (d : Decl) : List Nat → Nat → List (Nat × Nat)
  | [], _ => []
  | h :: l, n => (h, n) :: d.almBases l (n + d.fld (A.ALM_PLAN_CFG h) F.ALM_PLAN_CFG_NB + 3)

/-! ### All steps -/

/-- What placement answers. -/
structure Placed where
  reels : List (List Word)
  bays : BayMap
  freeRun : Bool
  tasks : List TaskPlace
  loops : LoopMap
  bases : List (Nat × Nat)
  floor0 : Nat
  floor1 : Nat

/-- Healthy engines of a group of SUP_HEALTH bits. -/
def healthyIn (mask lo n : Nat) : List Nat := (List.range n).filter (fun i => mask.testBit (lo + i))

/-- Placement of an image on the healthy engines of a SUP_HEALTH mask (R445). -/
def Decl.place (d : Decl) (im : Image) (healthy : Nat) : Except PlaceFail Placed :=
  match d.placeReels im.reels with
  | .error e => .error e
  | .ok reels => match d.placeBays (healthyIn healthy 0 8) d.bays [] with
    | .error e => .error e
    | .ok bays => match (match im.logic with
        | some L => d.placeLogic L (healthyIn healthy 8 4)
        | none => .ok (false, [])) with
      | .error e => .error e
      | .ok lg => match d.placeGroups (healthyIn healthy 12 4) ((d.chainGroups 512 d.blocks).foldr d.insertGroup []) [] with
        | .error e => .error e
        | .ok loops => match d.capFail d.plans 0 with
          | some p => .error { code := 0x0410, item := p }
          | none => .ok { reels := reels, bays := bays, freeRun := lg.1, tasks := lg.2, loops := loops, bases := d.almBases d.almPlans 0
                          floor0 := d.clusterFloor bays 0, floor1 := d.clusterFloor bays 1 }

end Sys2Proof.Machine
end

