-- ==== Sys2Proof/Machine/Ply.lean ====
section
/-! DEFINITION. The steps of a twin (chapter 14): the Ply link, admission, the claim line, results of every frame, shipped frames,
joining. -/

namespace Sys2Proof.Machine

/-! ### Admission (R369, R462) -/

/-- An owner slot is WRITTEN and not REVOKED. -/
def State.slotUsable (s : State) (k : Nat) : Bool := s.bit A.SEC_STAT (k % 4) && !s.bit A.SEC_STAT (4 + k % 4)

/-- SEC_LASTERR's cause of a pairing token for a digest and a side under the pairing record, 0 where it is valid (R461, R468). -/
def State.pairingCause (s : State) (r : Pairing) (k : PairingToken) (digest : BitVec 384) (sideB : Bool) : Nat :=
  if !k.formatOk then 1
  else if !s.slotUsable r.ownerPair || k.signSlot != r.ownerPair then 2
  else if sigCause k.sig ≠ 0 then sigCause k.sig
  else if k.identity ≠ digest ∨ k.yarn ≠ r.yarn ∨ k.sideB ≠ sideB then 5 else 0

/-- A pairing token is there and is valid. -/
def State.pairingOk (s : State) (r : Pairing) (t : Option PairingToken) (digest : BitVec 384) (sideB : Bool) : Bool :=
  t.any (fun k => s.pairingCause r k digest sideB == 0)

/-- A pairing token that the adoptive policy refuses is counted, shown and raised. -/
def State.refusePairing (s : State) (r : Pairing) (t : Option PairingToken) (digest : BitVec 384) (sideB : Bool) : State :=
  match t with
  | none => s
  | some k =>
    let c := s.pairingCause r k digest sideB
    if r.adoptive = false ∨ c = 0 then s else s.refuseObject 1 c

/-- This ply's strap. -/
def State.sideB (s : State) : Bool := s.side == 1

/-- The image in use. -/
def State.image (s : State) : Option Image := s.cfg.image

/-- Own identity passes the record. -/
def State.ownAdmissible (s : State) (r : Pairing) : Bool :=
  if r.adoptive then s.pairingOk r (s.cfg.boot.bind (fun b => b.token)) s.ownDigest s.sideB
  else decide (s.ownDigest = if s.sideB then r.digB else r.digA)

/-- The peer's identity passes the record. -/
def State.peerAdmissible (s : State) (r : Pairing) (p : PeerIdentity) : Bool :=
  p.certOk && (if r.adoptive then s.pairingOk r p.token p.certDigest (!s.sideB)
    else decide (p.certDigest = if s.sideB then r.digA else r.digB))

/-- The peer is turned away. -/
def State.turnAway (s : State) (reason : Nat) : State :=
  ((s.setBit A.PLY_PEERST 28 false).setFld A.PLY_PEERST F.PLY_PEERST_QREASON reason).raise Ev.PLY_QUARANTINE reason

/-- The peer is admitted: PLY_PEERID, and a replacement where another peer was admitted last. -/
def State.admitPeer (s : State) (p : PeerIdentity) : State :=
  let s1 := (s.setBit A.PLY_PEERST 28 true).setFld A.PLY_PEERST F.PLY_PEERST_QREASON 0
  let s2 := s1.forEach (List.range 12) (fun w s => s.setReg (A.PLY_PEERID w) (hashWord p.certDigest w))
  if s2.ply.lastPeer = p.certDigest then s2
  else
    let old := s2.ply.lastPeer
    let s3 : State := { s2 with ply := { s2.ply with lastPeer := p.certDigest } }
    if old = 0 then s3
    else ((s3.setBit A.PLY_PEERST 27 true).raise Ev.PLY_PEER_REPLACED noIndex).note 6
      ((List.range 12).map (fun w => hashWord p.certDigest w))

/-- What an admitted peer's role means for this ply (R371, R385). -/
def State.meet (s : State) (p : PeerIdentity) : State :=
  if s.role = 3 then
    if s.jstep ≤ 1 then
      if p.role = 1 then (s.setFld A.PLY_STAT F.PLY_STAT_JSTEP 2).plySend .copyRequest
      else if p.role = 3 ∧ !s.sideB then s.becomeActor
      else s
    else s
  else if s.role = 1 then
    if p.role = 3 then { s with ply := { s.ply with copyAt := some s.tApply, lost := true } }
    else if p.role = 2 then
      (if s.ply.lost then { s with ply := { s.ply with lost := false } }.raise Ev.PLY_PEER_JOINED noIndex else s)
    else if p.role = 1 ∧ s.sideB then ((s.stopClaim).netStop).startJoin
    else s
  else if s.role = 2 ∧ p.role = 1 ∧ s.ply.lost then { s with ply := { s.ply with lost := false } }.raise Ev.PLY_PEER_JOINED noIndex
  else s

/-- PEER_IDENTITY_RECEIVE: the checks of R369 in the table's order. -/
def doPeerIdentityReceive (p : PeerIdentity) (s : State) : State :=
  if !s.linkUp then s
  else
    let s0 : State := { s with ply := { s.ply with peer := some p } }
    let s1 := (s0.setFld A.PLY_PEERST F.PLY_PEERST_PROLE p.role).setBit A.PLY_PEERST 26 p.sideB
    match s1.image, s1.image.bind (fun i => i.pairing) with
    | some im, some r =>
      if s1.role = 0 ∨ s1.role = 4 ∨ s1.role = 7 then s1
      else if im.hash ≠ p.imageHash then
        (if s1.role ≠ 1 && (p.role == 1 || s1.sideB) then s1.quarantine 1
         else if s1.role = 1 && p.role == 1 && s1.sideB then s1.quarantine 1 else s1.turnAway 1)
      else if !s1.ownAdmissible r then (s1.refusePairing r (s1.cfg.boot.bind (fun b => b.token)) s1.ownDigest s1.sideB).quarantine 5
      else if !s1.peerAdmissible r p then
        ((s1.refusePairing r p.token p.certDigest (!s1.sideB)).turnAway (if r.adoptive then 3 else 2)).plySend .refusal
      else if p.sideB = s1.sideB then (if p.certDigest.toNat < s1.ownDigest.toNat then s1.quarantine 6 else s1.turnAway 6)
      else (s1.admitPeer p).meet p
    | _, _ => s1

/-- PEER_REFUSAL_RECEIVE: the refused ply becomes QUARANTINED. -/
def doPeerRefusalReceive (s : State) : State :=
  if s.role = 0 ∨ s.role = 4 ∨ s.role = 7 ∨ !s.linkUp then s else s.quarantine 4

/-! ### The link (R367, R377, R384) -/

/-- PLY_LINK_UP: the exchange starts; a follower that was cut off rejoins, a joiner begins again. -/
def doPlyLinkUp (s : State) : State :=
  if s.linkUp then s
  else
    let s1 := ((s.setBit A.PLY_STAT 24 true).setBit A.PLY_LINKSTAT 31 true).setBit A.PLY_LINKSTAT 30 true
    let s2 : State := { s1 with ply := { s1.ply with linkDown := none } }
    let s3 := (s2.raise Ev.PLY_LINK 1).spnTwin
    if (s3.role = 2 ∧ s3.isol) ∨ s3.role = 3 then s3.startJoin else s3.sendIdentity

/-- PLY_LINK_DOWN: the peer is counted lost; where it no longer claims, a follower or joiner takes over (R374). -/
def doPlyLinkDown (s : State) : State :=
  if !s.linkUp then s
  else
    let s1 := ((s.setBit A.PLY_STAT 24 false).setBit A.PLY_LINKSTAT 31 false).setBit A.PLY_LINKSTAT 30 false
    let s2 : State := { s1 with ply := { s1.ply with linkDown := some s1.tim.up, peer := none, copyAt := none, stream := none, waiting := []
                                                     early := [] } }
    let s3 := (s2.incSat A.PLY_CNT_C F.PLY_CNT_C_LINKLOSS Ev.PLY_CNT_SAT noIndex).raise Ev.PLY_LINK 0
    let s4 := ((s3.setFld A.PLY_PEERST F.PLY_PEERST_PROLE 7).setBit A.PLY_PEERST 28 false).peerLost.spnTwin
    let s5 := s4.forEach s.ply.waiting (fun e s =>
      match e.2 with
      | some w => s.putMerged w.bits
      | none => s)
    if s5.mayTake && !s5.peerClaims then s5.takeover else s5

/-- ISOLATION_TIMEOUT: 5 µs without the link while the actor goes on claiming. -/
def doIsolationTimeout (s : State) : State :=
  match s.ply.linkDown with
  | none => s
  | some t =>
    if s.role ≠ 2 ∨ s.isol ∨ s.linkUp ∨ !s.peerClaims ∨ s.tim.up < t + 5000 then s
    else ((s.setBit A.PLY_STAT 23 true).netStop).spnTwin

/-- ALONE_TIMEOUT: no peer on the link and a static claim line for ALONE after ACQ_REEL_SWITCH. -/
def doAloneTimeout (s : State) : State :=
  match s.cfg.switched with
  | none => s
  | some t =>
    if s.role ≠ 3 ∨ s.linkUp ∨ s.peerClaims ∨ s.tim.up < t + s.fld A.PLY_CFG F.PLY_CFG_ALONE * 500000000 then s
    else s.becomeActor

/-! ### The claim line (R372, R374) -/

/-- PEER_CLAIM_START: an edge on a static PLY_CLAIM_I. Two claims that begin within 3 µs of each other both stop; an ACTOR that yielded
becomes FOLLOWER. -/
def doPeerClaimStart (s : State) : State :=
  if s.peerClaims then s
  else
    let s1 := (s.setBit A.PLY_STAT 26 true).gateSync
    let both := s1.claiming && (s1.ply.claimAt.map (fun t => decide (s1.tim.up ≤ t + 3000))).getD false
    if both then
      let s2 := s1.stopClaim
      if s2.sideB then (s2.netStop).startJoin
      else { s2 with ply := { s2.ply with backoff := some s2.tim.up } }
    else if s1.role = 1 ∧ !s1.claiming ∧ s1.ply.backoff.isNone then s1.netStop.becomeFollower
    else s1

/-- PEER_CLAIM_SILENT: no edge for 3 µs. `linkStopped` tells that the link reports the peer's claim as stopped. -/
def doPeerClaimSilent (linkStopped : Bool) (s : State) : State :=
  if !s.peerClaims then s
  else
    let s1 := (s.setBit A.PLY_STAT 26 false).gateSync
    if s1.mayTake && (!s1.linkUp || linkStopped) then s1.takeover else s1

/-- CLAIM_DISAGREE_TIMEOUT: the claim line and the link have disagreed for 10 µs; a ply that is not the actor tells it. -/
def doClaimDisagreeTimeout (s : State) : State :=
  if !s.linkUp ∨ s.role = 0 ∨ s.role = 7 then s
  else
    let s1 := (s.setBit A.PLY_STAT 20 true).raise Ev.PLY_CLAIM_FAULT noIndex
    if s1.role = 1 then s1 else s1.plySend .claimFault

/-- CLAIM_BACKOFF_END: Ply A claims again 2 µs after both stopped. -/
def doClaimBackoffEnd (s : State) : State :=
  match s.ply.backoff with
  | none => s
  | some t => if s.tim.up < t + 2000 then s else s.startClaim

/-! ### Results of every frame (R376, R377) -/

/-- PEER_RESULTS_RECEIVE: merged with the ply's own results of the same frame, kept where they come first, counted where late. -/
def doPeerResultsReceive (bay : Fin 8) (n : Nat) (bits : List (Nat × (Bool × Bool))) (s : State) : State :=
  let b := bay.val
  if !s.merging then s
  else match tabGet none s.ply.waiting b with
    | some w =>
      if w.n = n then s.mergeNow b (min (s.tim.up - w.at_) 25000) w.bits bits
      else if w.n < n then { s with ply := { s.ply with early := tabPut none s.ply.early b (some { n := n, bits := bits, at_ := s.tim.up }) } }
      else s.incSat A.PLY_CNT_A F.PLY_CNT_A_LATE Ev.PLY_CNT_SAT noIndex
    | none =>
      if ((s.bayProt b).hist.head?.map (fun fr => decide (n ≤ fr.n))).getD false then
        s.incSat A.PLY_CNT_A F.PLY_CNT_A_LATE Ev.PLY_CNT_SAT noIndex
      else { s with ply := { s.ply with early := tabPut none s.ply.early b (some { n := n, bits := bits, at_ := s.tim.up }) } }

/-- MERGE_WINDOW_END: 25 µs have passed; the ply's own results are published, and the third miss in a row of a bay loses the peer. -/
def doMergeWindowEnd (bay : Fin 8) (s : State) : State :=
  let b := bay.val
  match tabGet none s.ply.waiting b with
  | none => s
  | some w =>
    if s.tim.up < w.at_ + 25000 then s
    else
      let s0 : State := { s with ply := { s.ply with waiting := tabPut none s.ply.waiting b none } }
      let c := min 3 (s0.fld (A.PLY_BAY b) F.PLY_BAY_CONSEC + 1)
      let s1 := ((s0.putMerged w.bits).setFld (A.PLY_BAY b) F.PLY_BAY_WAIT 25000).setFld (A.PLY_BAY b) F.PLY_BAY_CONSEC c
      let s2 := s1.incSat A.PLY_CNT_A F.PLY_CNT_A_MISSES Ev.PLY_CNT_SAT noIndex
      if c < 3 then s2
      else
        let s3 := s2.peerLost
        if s3.role = 2 ∨ s3.role = 3 then (s3.netStop).startJoin else s3

/-- PEER_TRIP_STATE_RECEIVE: the peer's trip channel states. -/
def doPeerTripStateReceive (w : Word) (s : State) : State := { s with trip := { s.trip with peerState := w } }

/-- SHADOW_PASS_TIMEOUT: a bay has not agreed on 100 frames in a row within 1,000 frames. -/
def doShadowPassTimeout (s : State) : State :=
  if s.role = 3 ∧ s.jstep = 3 ∧ (List.range 8).any (fun b =>
      s.bit A.PRT_STAT (24 + b) && Nat.ble 1000 (tabGet 0 s.ply.shadowN b) && s.fld (A.PLY_BAY b) F.PLY_BAY_SHADOW != 100) then
    ((s.setBit A.PLY_STAT 21 true).becomeFollower).raiseLim Ev.PLY_DISAGREE 0 noIndex
  else s

/-! ### Shipped frames (R378, R382) -/

/-- The newer of two 16-bit sequence numbers. -/
def newerSeq (a b : BitVec 16) : BitVec 16 := if (b.toNat + 65536 - a.toNat) % 65536 < 32768 then b else a

/-- The follower's counters follow a shipped frame. -/
def State.copyCounters (s : State) (f : TxFrame) : State :=
  let s1 : State := match f.prpSeq with
    | some q => { s with net := { s.net with prpSeq := tabPut 0 s.net.prpSeq (pairIx f.process) ((q.toNat + 1) % 65536) } }
    | none => s
  match f.body with
  | .goose m =>
    let p := s1.pub m.g
    let i := m.tal / 2
    let t := (m.t + (signExt 16 (s1.fld A.TIM_UTCOFS F.TIM_UTCOFS_OFFSET)) * 1000000000).toNat
    (s1.setPub m.g { p with shipped := m.vals, interval := i, tmax := s1.fld (A.NET_GP_TIM m.g) F.NET_GP_TIM_TMAX, t := t
                            nextTx := some (s1.tim.up + i * 1000000), launch := 0, hold := none }).putPubNums m.g m.stNum m.sqNum
  | .hank d =>
    let x := s1.hnkMod d.m
    let y : ModSt := if d.typ = 4 then { x with exchange := true, anySeq := x.anySeq || !x.exchange, outSeq := d.seq.toNat } else x
    (s1.setMod d.m { y with rxSeq := newerSeq x.rxSeq d.ack }).setFld (A.HNK_MOD_SEQ d.m) F.HNK_MOD_SEQ_SEQTX d.seq.toNat
  | _ => s1

/-- A shipped frame on the follower's own port: a full ring discards it. -/
def State.relay (s : State) (f : TxFrame) : State :=
  s.forEach (s.pairPorts f.process) (fun p s =>
    if (s.txRing ((if f.high then 8 else 9) + 2 * p)).length < 64 then s.enqueue f p else s)

/-- SHIPPED_FRAME_RECEIVE: counters, acknowledgement, and the frame unchanged on the follower's own LAN. -/
def doShippedFrameReceive (f : TxFrame) (s : State) : State :=
  if s.role ≠ 2 ∨ s.isol ∨ !s.linkUp then s else ((s.copyCounters f).plySend .ack).relay f

/-- SHIP_ACK_RECEIVE: the oldest frame waiting goes to the actor's own port. -/
def doShipAckReceive (s : State) : State :=
  match s.ply.unacked with
  | [] => s
  | u :: l => { s with ply := { s.ply with unacked := l } }.enqueuePair u.1

/-- SHIP_ACK_TIMEOUT: 4 µs without an acknowledgement. -/
def doShipAckTimeout (s : State) : State :=
  match s.ply.unacked with
  | [] => s
  | u :: l =>
    if s.tim.up < u.2 + 4000 then s
    else
      let s1 : State := { s with ply := { s.ply with unacked := l } }
      (s1.incSat A.PLY_CNT_B F.PLY_CNT_B_ACKTO Ev.PLY_CNT_SAT noIndex).enqueuePair u.1

/-! ### The copy (R385, R386) -/

/-- COPY_SNAPSHOT_TAKE: at T_copy the actor sends the snapshot; every later change is streamed. -/
def doCopySnapshotTake (s : State) : State :=
  match s.ply.copyAt with
  | none => s
  | some t =>
    if s.tim.now < t ∨ s.role ≠ 1 then s
    else
      let c := s.snapshotNow
      { s with ply := { s.ply with copyAt := none, stream := some c } }.plySend (.snapshot c)

/-- COPY_SNAPSHOT_RECEIVE: a sound snapshot is applied and the shadow pass begins; a bad one starts the join again. -/
def doCopySnapshotReceive (c : Snapshot) (s : State) : State :=
  if s.role ≠ 3 ∨ s.jstep ≠ 2 then s
  else if !c.crcOk then s.startJoin
  else
    let s1 := s.applyCopy c
    let s2 : State := { s1 with ply := { s1.ply with lost := false, waiting := [], early := [], shadowN := [] } }
    (s2.setFld A.PLY_STAT F.PLY_STAT_JSTEP 3).shadowCheck

/-- One streamed change. The actor's timeline for a frame the ply has not yet come to waits until it has closed the one before (R12). -/
def State.applyChange (s : State) : StreamedChange → State
  | .mem a b => if s.retentive a || inC a then s.setOctet a b else s
  | .reg a w =>
    if inForce a then s.putForce ((s.regs.filter (fun e => inForce e.1 && e.1 != a)) ++ [(a, w)])
    else s.setReg a w
  | .online i w => s.putOnline [(i, w)]
  | .overlay k => s.ovlSwitch k s.tim.now none
  | .motor b m => s.putMotor b m
  | .prp x y => { s with net := { s.net with prpSeq := tabPut 0 (tabPut 0 s.net.prpSeq 0 x.toNat) 1 y.toNat } }
  | .mode m => if m = 0 then s.runLogic else s.stopLogic
  | .timeline b n at_ ft =>
    let c := s.bayChain b
    let next : Rat := (s.smpTime at_ : Rat)
    if n = c.n + 1 then s.setBayChain b { c with steer := some (n, next, ft) }
    else if n < c.n ∧ s.role = 2 then s
    else s.setBayChain b ({ c with n := n, ft := ft, next := next, steer := none }.place (s.chainRate b))

/-- STREAMED_CHANGE_RECEIVE: applied while the ply joins; the actor's timeline is followed in FOLLOWER as well (R12). -/
def doStreamedChangeReceive (c : StreamedChange) (s : State) : State :=
  match c with
  | .timeline .. => if s.role = 2 ∨ (s.role = 3 ∧ s.jstep = 3) then s.applyChange c else s
  | _ => if s.role = 3 ∧ s.jstep = 3 then s.applyChange c else s

/-! ### Steps as executed -/

def execPeerIdentityReceive (p : PeerIdentity) (s : State) : Host.Outcome State Fault Refusal := .next (s.awake (doPeerIdentityReceive p))
def execPeerRefusalReceive (s : State) : Host.Outcome State Fault Refusal := .next (s.awake doPeerRefusalReceive)
def execPlyLinkUp (s : State) : Host.Outcome State Fault Refusal := .next (s.awake doPlyLinkUp)
def execPlyLinkDown (s : State) : Host.Outcome State Fault Refusal := .next (s.awake doPlyLinkDown)
def execIsolationTimeout (s : State) : Host.Outcome State Fault Refusal := .next (s.awake doIsolationTimeout)
def execAloneTimeout (s : State) : Host.Outcome State Fault Refusal := .next (s.awake doAloneTimeout)
def execPeerClaimStart (s : State) : Host.Outcome State Fault Refusal := .next (doPeerClaimStart s)
def execPeerClaimSilent (linkStopped : Bool) (s : State) : Host.Outcome State Fault Refusal := .next (doPeerClaimSilent linkStopped s)
def execClaimDisagreeTimeout (s : State) : Host.Outcome State Fault Refusal := .next (s.awake doClaimDisagreeTimeout)
def execClaimBackoffEnd (s : State) : Host.Outcome State Fault Refusal := .next (s.awake doClaimBackoffEnd)
def execPeerResultsReceive (bay : Fin 8) (n : Nat) (bits : List (Nat × (Bool × Bool))) (s : State) : Host.Outcome State Fault Refusal :=
  .next (s.awake (doPeerResultsReceive bay n bits))
def execMergeWindowEnd (bay : Fin 8) (s : State) : Host.Outcome State Fault Refusal := .next (s.awake (doMergeWindowEnd bay))
def execPeerTripStateReceive (w : Word) (s : State) : Host.Outcome State Fault Refusal := .next (s.awake (doPeerTripStateReceive w))
def execShadowPassTimeout (s : State) : Host.Outcome State Fault Refusal := .next (s.awake doShadowPassTimeout)
def execShippedFrameReceive (f : TxFrame) (s : State) : Host.Outcome State Fault Refusal := .next (s.awake (doShippedFrameReceive f))
def execShipAckReceive (s : State) : Host.Outcome State Fault Refusal := .next (s.awake doShipAckReceive)
def execShipAckTimeout (s : State) : Host.Outcome State Fault Refusal := .next (s.awake doShipAckTimeout)
def execCopySnapshotTake (s : State) : Host.Outcome State Fault Refusal := .next (s.awake doCopySnapshotTake)
def execCopySnapshotReceive (c : Snapshot) (s : State) : Host.Outcome State Fault Refusal := .next (s.awake (doCopySnapshotReceive c))
def execStreamedChangeReceive (c : StreamedChange) (s : State) : Host.Outcome State Fault Refusal := .next (s.awake (doStreamedChangeReceive c))

end Sys2Proof.Machine
end

