-- ==== Sys2Proof/Machine/Restart.lean ====
section
/-! DEFINITION. Starts (R440, R444): what the keep-alive domain and the memories outside keep, the trip matrix over a restart (R521), OTP as
it is read (R459, R460), and the steps that reset the device or change its supply. -/

namespace Sys2Proof.Machine

/-! ### OTP (R459) -/

def otpBase : Nat := 0x0F800000

/-- `n` octets of OTP at an offset. -/
def State.otp (s : State) (o n : Nat) : Nat := s.octetsLE (otpBase + o) n

/-- Owner slot `k`: where it lies, its status word, and what the word says. -/
def slotAt (k : Nat) : Nat := 0x60 + 0x80 * k
def State.slotWritten (s : State) (k : Nat) : Bool := (s.otp (slotAt k + 96) 4).testBit 0
def State.slotRevoked (s : State) (k : Nat) : Bool := (s.otp (slotAt k + 96) 4).testBit 1
def State.slotTorn (s : State) (k : Nat) : Bool := s.otp (slotAt k) 96 != 0 && !s.slotWritten k

/-- Bits of a property of the four slots. -/
def slotBits (f : Nat → Bool) : Nat := [0, 1, 2, 3].foldl (fun a k => a + (if f k then 2 ^ k else 0)) 0

/-- SEC_STAT shows what OTP holds (R468). -/
def State.secSync (s : State) : State :=
  let s1 := ((s.setFld A.SEC_STAT F.SEC_STAT_WRITTEN (slotBits s.slotWritten)).setFld A.SEC_STAT F.SEC_STAT_REVOKED
    (slotBits s.slotRevoked)).setFld A.SEC_STAT F.SEC_STAT_TORN (slotBits s.slotTorn)
  let lock := s.otp 0x2A0 4
  (s1.setBit A.SEC_STAT 29 (lock.testBit 0)).setBit A.SEC_STAT 30 (lock.testBit 1)

/-- A new debug challenge (R466). -/
def State.newChallenge (s : State) : State :=
  s.forEach [0, 1, 2, 3] (fun w s => let (k, s1) := s.nextFree; s1.setReg (A.SEC_DBG_CHAL w) (Config.freeWord k))

/-- The Watchman defaults (R460) are loaded. -/
def State.loadOtpWatchman (s : State) : State :=
  let s1 := s.forEach (List.range 8) (fun b s => s.setFld (A.PRT_WM_THR b) F.PRT_WM_THR_THR (s.otp (0x280 + 2 * b) 2))
  let s2 := s1.forEach [0, 1, 2, 3] (fun j s => s.setFld (A.PRT_WM_MAP j) F.PRT_WM_MAP_BAYS (s.otp (0x290 + j) 1))
  s2.forEach (List.range 16) (fun p s =>
    s.setReg (A.PRT_TOUT p) (BitVec.ofNat 32 ([0, 1, 2, 3].foldl (fun a j => a + (if (s.otp (0x294 + 2 * j) 2).testBit p then 2 ^ j else 0)) 0)))

/-! ### What every start keeps -/

/-- Registers of the keep-alive domain, of OTP and of Boot memory, and the levels at input pins. -/
def keptReg (a : Nat) : Bool :=
  [A.SUP_RSTCAUSE, A.SUP_HEALTH, A.SUP_RETIRED, A.ALM_OPSEC, A.ALM_PWRCYC, A.ALM_TALLY, A.PRT_LIGHT].contains a || inArr (A.SEC_ID 0) 4 12 a

/-- A save that a reset or the loss of a rail cuts short may be left incomplete: it takes up to 3 ms on MRAM and FRAM, 120 ms on NOR
(R262). -/
def State.cutSave (s : State) : State :=
  match s.keep.saveAt with
  | none => s
  | some t =>
    let s1 : State := { s with keep := { s.keep with saveAt := none } }
    if t + (if s.keep.media = 3 then 120000000 else 3000000) ≤ s.tim.up then s1
    else
      let (k, s2) := s1.nextFree
      { s2 with keep := { s2.keep with saveBad := bitGet (Config.freeWord k) 0 } }

/-- Keep memory holds the learned closing times and the breaker changes as they last changed (R316). -/
def State.keepClose (s : State) : KeepSt :=
  if s.cfg.image.isNone then s.keep
  else { s.keep with tlrn := (List.range 8).foldl (fun t b => tabPut none t b (some (s.reg (A.PEL_CC_TLRN b)))) [], cbLast := s.peal.cbLast }

/-- Converters that a start leaves retired: those retired before it, unless it is cold, which it is without a complete save (R74, R263). -/
def State.retiredKept (s : State) : List Nat :=
  if s.keep.save.isNone || s.keep.saveBad then [] else (List.range 17).filter (fun n => s.convState n == 3)

/-- The device as a reset leaves it, before the start: the keep-alive domain, OTP and the memories outside keep what they hold. A degraded
store is lost, and no save can follow it (R408). -/
def State.kept (s0 : State) : State :=
  let s := s0.cutSave
  let deg := s.fld A.ALM_STAT F.ALM_STAT_STATE == 2
  let r := State.reset
  let s1 : State := { r with
    pending := s.pending, freeSeq := s.freeSeq
    mem := s.mem.filter (fun e => Nat.ble otpBase e.1)
    regs := s.regs.filter (fun e => keptReg e.1)
    tim := { timInit with up := s.tim.up, upStart := s.tim.up, rtc := s.tim.rtc, rtcBad := s.tim.rtcBad, rtcSlow := s.tim.rtcSlow
                          opFrac := s.tim.opFrac
                          now := if s.tim.rtcBad then 0 else s.tim.rtc
                          lastSec := if s.tim.rtcBad then 0 else s.tim.rtc / 1000000000 }
    cfg := { cfgInit with boot := s.cfg.boot }
    pwr := { pwrInit with on := s.pwr.on, goodAt := s.tim.up, spiMode := s.pwr.spiMode, sideB := s.pwr.sideB, refclk := s.pwr.refclk
                          pfw := s.pwr.pfw, pfwAt := s.pwr.pfwAt, onVbat := s.pwr.onVbat }
    alm := { almInit with store := s.alm.store.filter (fun e => e.area != 3), seq := s.alm.seq, tally := s.alm.tally
                          tallied := s.alm.tallied, counterLost := s.alm.counterLost
                          held := if deg then some (s.areaCount 3) else s.alm.held }
    keep := if deg then { s.keep with save := none, prev := none } else s.keepClose
    ply := { plyInit with lastPeer := s.ply.lastPeer } }
  let s2 := s1.forEach (s.retiredKept) (fun n t => t.setConvState n 3)
  ((s2.setBit A.PWR_DOMAIN_STAT 0 (s.bit A.PWR_DOMAIN_STAT 0)).setBit A.PLY_STAT 26 s.peerClaims).setFld A.LIO_TOUT F.LIO_TOUT_FB
    (s.fld A.LIO_TOUT F.LIO_TOUT_FB)

/-- Channels asserted. -/
def State.assertedChannels (s : State) : List Nat := (List.range 32).filter (fun c => s.bit A.PRT_TCH_STATE c)

/-- The trip matrix keeps its state over causes 1–4: channels, minimum pulses, latches and the pin masks in force (R521). -/
def State.carryTrips (s old : State) : State :=
  let on := old.assertedChannels
  let masks := (List.range 16).foldl (fun t p => tabPut 0 t p (BitVec.ofNat 32
    (on.foldl (fun a c => a + (if bitGet (old.toutMask c p) c then 2 ^ c else 0)) 0))) []
  let s1 : State := { s with trip := { s.trip with
    pulseEnd := old.trip.pulseEnd, carried := on, carriedLatch := on.filter old.channelLatched, carriedTout := masks, pinOff := old.trip.pinOff } }
  (((s1.setReg A.PRT_TCH_STATE (old.reg A.PRT_TCH_STATE)).setReg A.PRT_TCH_PULSE (old.reg A.PRT_TCH_PULSE)).setReg A.PRT_TCH_LATCHED
    (old.reg A.PRT_TCH_LATCHED)).setFld A.LIO_TOUT F.LIO_TOUT_OUT (old.fld A.LIO_TOUT F.LIO_TOUT_OUT)

/-! ### The start begins (R440) -/

/-- The device comes out of reset with the straps, OTP and the RTC read; C3 runs the start. -/
def State.beginStart (s : State) (cause : Nat) : State :=
  let s1 := (s.setFld A.SUP_RSTCAUSE F.SUP_RSTCAUSE_CAUSE cause).setFld A.SUP_TSTART F.SUP_TSTART_TPROT 0xFFFF
  let s2 := (s1.setFld A.HST_STAT F.HST_STAT_MODE (if s.pwr.spiMode then 2 else 1)).setBit A.PWR_DOMAIN_STAT 3 true
  let s3 := (s2.setBit A.PLY_STAT 28 s.pwr.sideB).setBit A.TIM_STAT 24 (s.tim.rtcBad || (cause == 0 && s.tim.rtcSlow))
  let s4 := s3.setReg (A.PWR_CLUSTER 3) (BitVec.ofNat 32 (850 * 2 ^ 16 + 1000 * 16))
  let s5 := (s4.secSync.newChallenge).loadOtpWatchman
  let s6 : State := { s5 with tim := { s5.tim with smp := s5.tim.now } }
  ((s6.setReg64 A.TIM_NOW_LO A.TIM_NOW_HI s6.tim.now).drivePins).gateGout

/-- A restart by one of the causes 1–4: every domain but the keep-alive domain is reset, and the start begins (R444, R505). -/
def State.restart (s : State) (cause : Nat) : State := ((s.kept).carryTrips s).beginStart cause

/-- The counters and the RTC were lost with VDD_KA and VBAT (R407, R445). -/
def State.keepAliveLost (s : State) : State :=
  let s1 : State := { s with
    tim := { s.tim with rtc := 0, rtcBad := true, now := 0, lastSec := 0, opFrac := 0 }
    alm := { s.alm with counterLost := true } }
  (((s1.setReg A.ALM_OPSEC 0).setReg A.ALM_PWRCYC 0).setReg A.SUP_RETIRED 0).setBit A.PWR_DOMAIN_STAT 0 false

/-- With the crystal stopped the RTC ran through the outage at an unknown rate: its value is free (R518). -/
def State.rtcDrift (s : State) : State :=
  if !s.tim.rtcSlow || s.tim.rtcBad then s
  else
    let (k, s1) := s.nextFree
    { s1 with tim := { s1.tim with rtc := Config.freeNat k, now := Config.freeNat k, lastSec := Config.freeNat k / 1000000000 } }

/-- POWER_GOOD: the power-on reset releases (cause 0). Every channel is released, the straps are sampled, the engines tested, the power cycle
is counted and the start begins. -/
def doPowerGood (p : PowerIn) (s : State) : State :=
  let s1 := s.kept
  let s2 := (if p.vbatLost then s1.keepAliveLost else s1).rtcDrift
  let s3 : State := { s2 with
    cfg := { s2.cfg with boot := some p.boot }
    pwr := { s2.pwr with on := true, spiMode := p.spiMode, sideB := p.sideB, refclk := p.refclk, pfw := p.pfw, pfwAt := s2.tim.up
                         onVbat := false }
    alm := { s2.alm with tallied := [] }
    keep := { s2.keep with media := p.keepMedia, kib := p.keepKiB } }
  let ids := (List.range 12).map (fun w => hashWord Config.identityDigest w)
  let s4 := (s3.setReg A.SUP_HEALTH (BitVec.ofNat 32 p.healthy.toNat)).putList ids (fun w x s => s.setReg (A.SEC_ID w) x)
  (s4.incSat A.ALM_PWRCYC ⟨31, 0⟩ Ev.ALM_CNT_SAT noIndex).beginStart 0

/-! ### Steps that reset the device -/

/-- RESTART_RESET: 1 ms after RESTART was accepted (R444, R484). COLD invalidates the saved data, CLRRET clears the retired engines. -/
def doRestartReset (s : State) : State :=
  match s.host.restartAt with
  | none => s
  | some (t, w) =>
    if s.tim.up < t + 1000000 then s
    else
      let s1 : State := if bitGet w 0 then { s with keep := { s.keep with saveBad := true, prev := none } } else s
      (if bitGet w 1 then s1.setReg A.SUP_RETIRED 0 else s1).restart 1

/-- RESET_N_ASSERT: Boot memory may have been written while the device was held (R416, R505). -/
def doResetNAssert (boot : Option Boot) (s : State) : State :=
  if !s.pwr.on then s
  else
    let s1 : State := match boot with
      | some b => { s with cfg := { s.cfg with boot := some b } }
      | none => s
    s1.restart 4

/-- A fatal fault: the claim stops and the device resets with cause 2 (R375, R444, R450). -/
def State.fatal (s : State) : State := s.restart 2

/-- SUPERVISOR_WATCHDOG_EXPIRY. -/
def doSupervisorWatchdogExpiry (s : State) : State := if s.pwr.on then s.fatal else s

/-- CLAIM_WATCHDOG_EXPIRE: CLAIMWD ms without a refresh while an ACTOR claims (R375). -/
def doClaimWatchdogExpire (s : State) : State :=
  if s.role ≠ 1 || !s.claiming || Nat.blt s.tim.up (s.ply.claimFed + s.fld A.PLY_CFG F.PLY_CFG_CLAIMWD * 1000000) then s else s.restart 2

/-- RAIL_OUT_OF_RANGE: a power-on reset without a save; the keep-alive domain runs on, and no pin is driven (R514, R518). -/
def doRailOutOfRange (s : State) : State :=
  if !s.pwr.on then s
  else
    let k := s.kept
    { k with pwr := { k.pwr with on := false } }

/-! ### The keep-alive supply and crystal -/

/-- KEEP_ALIVE_TO_VBAT (R26, R505). -/
def doKeepAliveToVbat (s : State) : State :=
  ({ s with pwr := { s.pwr with onVbat := true } } : State).setBit A.PWR_DOMAIN_STAT 0 true

/-- KEEP_ALIVE_TO_VDD_KA (R505). -/
def doKeepAliveToVddKa (s : State) : State := { s with pwr := { s.pwr with onVbat := false } }

/-- CRYSTAL_STOP: the keep-alive domain runs on its internal oscillator, so the RTC is invalid at the next power-good after an outage. -/
def doCrystalStop (s : State) : State := { s with tim := { s.tim with rtcSlow := true } }

/-! ### Steps as executed -/

def execPowerGood (p : PowerIn) (s : State) : Host.Outcome State Fault Refusal := .next (doPowerGood p s)
def execRestartReset (s : State) : Host.Outcome State Fault Refusal := .next (doRestartReset s)
def execResetNAssert (boot : Option Boot) (s : State) : Host.Outcome State Fault Refusal := .next (doResetNAssert boot s)
def execSupervisorWatchdogExpiry (s : State) : Host.Outcome State Fault Refusal := .next (doSupervisorWatchdogExpiry s)
def execClaimWatchdogExpire (s : State) : Host.Outcome State Fault Refusal := .next (doClaimWatchdogExpire s)
def execRailOutOfRange (s : State) : Host.Outcome State Fault Refusal := .next (doRailOutOfRange s)
def execKeepAliveToVbat (s : State) : Host.Outcome State Fault Refusal := .next (doKeepAliveToVbat s)
def execKeepAliveToVddKa (s : State) : Host.Outcome State Fault Refusal := .next (doKeepAliveToVddKa s)
def execCrystalStop (s : State) : Host.Outcome State Fault Refusal := .next (doCrystalStop s)

end Sys2Proof.Machine
end

