-- ==== Sys2Proof/Machine/ImageCheck.lean ====
section
/-! DEFINITION. Checking what Boot memory holds (R417, R418, R429–R432): the directory, the firmware and image slots, the sections, the
values, the overlays. -/

namespace Sys2Proof.Machine

/-! ### Directory and firmware (R417, R418, R461) -/

/-- `b` is newer than `a`. -/
def seqNewer (a b : Word) : Bool := let d := (b - a).toNat; Nat.ble 1 d && Nat.ble d 0x7FFFFFFF

/-- The directory copy in use. -/
def bootDirectory (m : Boot) : Option Directory :=
  if m.dir0.valid && m.dir1.valid then some (if seqNewer m.dir0.seq m.dir1.seq then m.dir1 else m.dir0)
  else if m.dir0.valid then some m.dir0
  else if m.dir1.valid then some m.dir1 else none

/-- A slot is not empty and lies within Boot memory. -/
def slotInside (size : Nat) (e : Nat × Nat) : Bool := e.2 != 0 && Nat.ble (e.1 + e.2) size

/-- What is wrong with a firmware slot: start code and SEC_LASTERR's cause (0: nothing to verify). -/
def fwFail (size : Nat) (e : Nat × Nat) (f : Option Firmware) : Option (Nat × Nat) :=
  if !slotInside size e then some (0x0102, 0)
  else match f with
    | none => some (0x0103, 1)
    | some x => if sigCause x.sig = 0 then none else some (0x0103, sigCause x.sig)

/-! ### An image up to its values (R419–R428) -/

/-- Why a slot stops: code, manifest index or 0xFFFF, the item of R429 where the decoded image determines it, and SEC_LASTERR's cause. -/
structure ImageFail where
  code : Nat
  sect : Nat
  item : Option Nat
  cause : Nat

def failAt (code sect item : Nat) : Option ImageFail := some { code := code, sect := sect, item := some item, cause := 0 }

/-- Manifest index of a section. -/
def imSect (im : Image) (ty : Nat) : Nat := ((im.manifest.zipIdx.find? (fun e => e.1.type == ty)).map (·.2)).getD 0xFFFF
def imOverlay (im : Image) (k : Nat) : Nat :=
  ((im.manifest.zipIdx.find? (fun e => e.1.type == 0x10 && e.1.inst == k)).map (·.2)).getD 0xFFFF

/-- Section types that the device knows (R424). -/
def knownType (t : Nat) : Bool := (Nat.ble 1 t && Nat.ble t 12) || t == 0x10

/-- A manifest entry breaks a rule of R421 or R424: `prev` is the end of the section before, `seen` the known sections before. -/
def entryBad (e : ManifestEntry) (prev : Nat) (seen : List (Nat × Nat)) : Bool :=
  e.offset % 8 != 0 || Nat.blt e.offset prev || !e.digestOk ||
    (if knownType e.type then seen.contains (e.type, e.inst) || (if e.type = 0x10 then e.inst == 0 || Nat.blt 8 e.inst else e.inst != 0)
     else !e.optional)

/-- The first bad entry of a manifest. -/
def manifestScan (i prev : Nat) (seen : List (Nat × Nat)) : List ManifestEntry → Option Nat
  | [] => none
  | e :: l => if entryBad e prev seen then some i else manifestScan (i + 1) (e.offset + e.length) ((e.type, e.inst) :: seen) l

/-- Sections as the manifest gives them (0x0105). -/
def imManifestFail (im : Image) : Option ImageFail :=
  match manifestScan 0 (256 + 64 * im.manifest.length) [] im.manifest with
  | some i => failAt 0x0105 i i
  | none =>
    if imSect im 1 = 0xFFFF ∨ imSect im 2 = 0xFFFF then failAt 0x0105 0xFFFF 0xFFFF
    else if imSect im 5 ≠ 0xFFFF ∧ imSect im 4 = 0xFFFF then failAt 0x0105 (imSect im 5) (imSect im 5) else none

/-- Header, signatures and compatibility (0x0102–0x0104); `usable` tells whether an owner slot may sign. -/
def imHeadFail (im : Image) (usable : Nat → Bool) (offset : Nat) (fw : Word) : Option ImageFail :=
  if !im.magicOk || im.deviceType != 0x6480 || Nat.blt im.manifest.length 2 || Nat.blt 32 im.manifest.length then failAt 0x0102 0xFFFF offset
  else
    let c := if Nat.ble im.ownerPair 3 && usable im.ownerPair then sigCause im.sig else 2
    if c ≠ 0 then some { code := 0x0103, sect := 0xFFFF, item := some im.ownerPair, cause := c }
    else if im.major ≠ 1 then failAt 0x0104 0xFFFF im.major
    else if fw.toNat < im.minFw.toNat then failAt 0x0104 0xFFFF im.minFw.toNat else none

/-- The values that PARAM loads, rounded to their steps, by address (R425, R427). -/
def imLoaded (im : Image) : List (Nat × Word) :=
  let l := atAddrs (paramVals im.params)
  ({ v := viewOf regReset l, named := l.map (·.1) } : Decl).rounded l

/-- What the image declares (R519). -/
def imDecl (im : Image) : Decl := { v := viewOf regReset (imLoaded im), named := (imLoaded im).map (·.1) }

/-- Section formats, parameter IDs and values (0x0106–0x0108). The octet offset of an item missing from a section, or beyond those
declared, is left open. -/
def imContentFail (im : Image) (kib : Nat) : Option ImageFail :=
  let d := (imDecl im)
  match im.badSection with
  | some (i, o) => failAt 0x0106 i o
  | none => match d.entryMismatch im with
    | some (ty, o) => some { code := 0x0106, sect := imSect im ty, item := o, cause := 0 }
    | none => match paramBad (viewOf regReset (atAddrs (paramVals im.params))) im.params with
      | some id => failAt 0x0107 (imSect im 1) id
      | none => match d.regsBad im kib with
        | some id => failAt 0x0108 (imSect im 1) id
        | none => match d.itemsBad im with
          | some (ty, i) => failAt 0x0108 (imSect im ty) i
          | none => none

/-! ### Overlays (R431, R432) -/

/-- The first repeated ID. -/
def repeated : List Nat → Option Nat
  | [] => none
  | i :: l => if l.contains i then some i else repeated l

/-- An entry names no register with an OV field, or one of an item that is not declared. -/
def Decl.entryUnfit (d : Decl) (id : Nat) : Bool :=
  match paramAddr id with
  | none => true
  | some a => match accessAt d.v a with
    | some (_, ov) => ov == 0 || !d.declares a
    | none => true

/-- A value differs from the base outside OV fields. -/
def Decl.beyondOv (d : Decl) (e : Nat × Word) : Bool :=
  ((e.2 ^^^ d.v e.1) &&& ~~~(BitVec.ofNat 32 ((accessAt d.v e.1).getD (0, 0)).2)) != 0

/-- The rounded entries of an overlay, by ID, where it is usable; else the ID or item at fault. -/
def Decl.overlayCheck (d : Decl) (im : Image) (kib : Nat) (o : OverlaySection) : Except Nat (List (Nat × Word)) :=
  let ids := o.entries.map (·.1)
  match (if 2045 < ids.length then some (ids.getD 2045 0) else none), repeated ids, ids.find? d.entryUnfit with
  | some i, _, _ => .error i
  | none, some i, _ => .error i
  | none, none, some i => .error i
  | none, none, none =>
    let l := atAddrs o.entries
    let l1 := ({ d with v := viewOf d.v l } : Decl).rounded l
    let d1 : Decl := { d with v := viewOf d.v l1 }
    match l1.find? d.beyondOv, d1.regsBad im kib, d1.itemsBad im with
    | some e, _, _ => .error (addrParam e.1)
    | none, some i, _ => .error i
    | none, none, some (_, i) => .error i
    | none, none, none => .ok ((ids.zip l1).map (fun e => (e.1, e.2.2)))

/-- Usable overlays with their rounded entries, and the first overlay that fails with its item. -/
def Decl.overlaysOf (d : Decl) (im : Image) (kib : Nat) : List OverlaySection → List OverlaySection × Option (Nat × Nat)
  | [] => ([], none)
  | o :: l =>
    let (ok, bad) := d.overlaysOf im kib l
    match d.overlayCheck im kib o with
    | .ok es => ({ o with entries := es } :: ok, bad)
    | .error i => (ok, some (o.number, i))

/-! ### A slot (R418, R429) -/

/-- What a slot that passes gives. -/
structure Chosen where
  slot : Nat
  im : Image
  d : Decl
  pl : Placed

/-- All checks of an image slot, placement last (R429). `healthy` is the mask of engines that placement may use. -/
def checkSlot (usable : Nat → Bool) (kib healthy size slot : Nat) (e : Nat × Nat) (im : Option Image) (fw : Word) : Except ImageFail Chosen :=
  if !slotInside size e then .error { code := 0x0102, sect := 0xFFFF, item := some e.1, cause := 0 }
  else match im with
    | none => .error { code := 0x0102, sect := 0xFFFF, item := some e.1, cause := 0 }
    | some im => match imHeadFail im usable e.1 fw with
      | some f => .error f
      | none => match (imManifestFail im) with
        | some f => .error f
        | none => match imContentFail im kib with
          | some f => .error f
          | none => match (imDecl im).place im healthy with
            | .error p => .error { code := p.code, sect := 0xFFFF, item := some p.item, cause := 0 }
            | .ok pl => .ok { slot := slot, im := im, d := (imDecl im), pl := pl }

end Sys2Proof.Machine
end

