-- ==== Sys2Proof/Machine/Load.lean ====
section
/-! DEFINITION. What a start loads (R440, R445): the slots chosen, the registers and memories of the image, the placement, Keep memory. -/

namespace Sys2Proof.Machine

/-! ### The slots (R418, R429, R430) -/

/-- The failure registers. They keep the first failure of a start. -/
def State.cfgFail (s : State) (code sect item : Nat) : State :=
  if s.fld A.CFG_FAIL F.CFG_FAIL_CODE ≠ 0 then s
  else (s.setReg A.CFG_FAIL (BitVec.ofNat 32 (code * 65536 + sect))).setReg A.CFG_FAILITEM (BitVec.ofNat 32 item)

/-- An image slot fails. -/
def State.imageFails (s : State) (f : ImageFail) : State :=
  let s1 := if f.cause = 0 then s else s.lastErr 2 f.cause
  match f.item with
  | some i => s1.cfgFail f.code f.sect i
  | none =>
    let (k, s2) := s1.nextFree
    s2.cfgFail f.code f.sect (Config.freeNat k % 2 ^ 32)

/-- The first slot that passes, with the failures of those before it. -/
def firstSlot {α : Type} (try_ : Nat → State → Option α × State) (s : State) : List Nat → Option (Nat × α) × State
  | [] => (none, s)
  | k :: l => match try_ k s with
    | (some a, s1) => (some (k, a), s1)
    | (none, s1) => firstSlot try_ s1 l

/-- The slots in order of trial. -/
def slotOrder (pref : Bool) : List Nat := if pref then [1, 0] else [0, 1]

/-- A firmware slot. -/
def tryFw (m : Boot) (d : Directory) (k : Nat) (s : State) : Option Firmware × State :=
  let f := if k = 0 then m.fw0 else m.fw1
  match fwFail m.size (d.fwSlots.getD k (0, 0)) f with
  | none => (f, s)
  | some (code, cause) => (none, (if cause = 0 then s else s.lastErr 1 cause).cfgFail code 0xFFFF 0)

/-- Engines that placement may use (R445). -/
def State.healthyMask (s : State) : Nat := (s.reg A.SUP_HEALTH &&& ~~~s.reg A.SUP_RETIRED).toNat

/-- An image slot. -/
def tryImage (m : Boot) (d : Directory) (fw : Firmware) (k : Nat) (s : State) : Option Chosen × State :=
  match checkSlot s.slotUsable s.keep.kib s.healthyMask m.size k (d.imgSlots.getD k (0, 0)) (if k = 0 then m.img0 else m.img1) fw.version with
  | .ok c => (some c, s)
  | .error f => (none, s.imageFails f)

/-- The start fails (R430): the device stays with the OTP Watchman and the default Reels. -/
def State.startFails (s : State) (st : Nat) : State := (s.setFld A.CFG_STAT F.CFG_STAT_STATE st).setFld A.SUP_STAT F.SUP_STAT_PHASE 9

/-! ### Registers and memories of the image -/

/-- Registers that change at ACQ_REEL_SWITCH, with the Watchman's source (R146). -/
def atSwitch (a : Nat) : Bool := inArr (A.PRT_WM_THR 0) 4 8 a || inArr (A.PRT_WM_MAP 0) 4 4 a || inArr (A.PRT_TOUT 0) 4 16 a

/-- A register as an image loads it: the fields that are the device's own and the reserved ones stay as they are (R2, R3). -/
def loadWord (v : View) (a : Nat) (old new : Word) : Word :=
  let m : Word := BitVec.ofNat 32 (((accessAt v a).map (fun p => p.1)).getD allBits)
  (old &&& ~~~m) ||| (new &&& m)

/-- PARAM's values (R425). A bay of 19.2 kS/s shows it (R91). -/
def State.loadParam (s : State) (im : Image) : State :=
  let v := (imDecl im).v
  let s1 := s.forEach ((imLoaded im).filter (fun e => !atSwitch e.1)) (fun e s => s.setReg e.1 (loadWord v e.1 (s.reg e.1) e.2))
  s1.forEach (List.range 8) (fun b s =>
    if s.fld (A.FLT_BAYCFG b) F.FLT_BAYCFG_FIXED = 3 then s.setBit (A.FLT_BAYCFG b) 0 true else s)

/-- What the registers of CFG and SEC show of the image and firmware. -/
def State.loadIdentity (s : State) (im : Image) (fw : Firmware) (fwSlot slot : Nat) (fallback : Bool) : State :=
  let s1 := ((s.setFld A.CFG_STAT F.CFG_STAT_STATE 1).setFld A.CFG_STAT F.CFG_STAT_IMGSLOT slot).setFld A.CFG_STAT F.CFG_STAT_FWSLOT fwSlot
  let s2 := ((s1.setBit A.CFG_STAT 27 fallback).setReg A.CFG_SERIAL im.serial).setReg A.SEC_FWVER fw.version
  { s2 with sec := { s2.sec with fw := some fw } }.forEach (List.range 12) (fun w s => s.setReg (A.CFG_HASH w) (hashWord im.hash w))

/-- The overlays: those that pass are usable; the first that fails shows in CFG_FAIL (R432). -/
def State.loadOverlays (s : State) (d : Decl) (im : Image) : State :=
  let (ok, bad) := d.overlaysOf im s.keep.kib im.overlays
  let addrs := (ok.flatMap (fun o => atAddrs o.entries)).map (fun e => e.1)
  let base := addrs.eraseDups.foldl (fun t a => tabPut none t a (some (d.v a))) []
  let mask := ok.foldl (fun a o => a + 2 ^ (o.number - 1)) 0
  let s1 : State := { s with cfg := { s.cfg with image := some { im with overlays := ok }, base := base } }
  let s2 := s1.setFld A.CFG_OVL F.CFG_OVL_USABLE mask
  match bad with
  | some (k, i) => s2.cfgFail 0x0108 (imOverlay im k) i
  | none => s2

/-- The pairing record (R368, R428). -/
def State.loadPairing (s : State) (im : Image) : State :=
  match im.pairing with
  | none => s
  | some p =>
    let w := p.adoptive.toNat * 2 ^ 31 + 2 ^ 30 + p.alone % 64 * 2 ^ 24 + p.claimWd % 256 * 65536
    (s.setReg A.PLY_CFG (BitVec.ofNat 32 w)).setReg A.PLY_YARN p.yarn

/-- K, the retentive words of W and C take the image's values; other words of W are cleared at every start (R428, R263). -/
def State.loadData (s : State) (l : LogicData) : State :=
  let s1 := s.putList l.k (fun i w s => s.setOctetsLE (kBase + 4 * i) 4 w.toNat)
  let s2 := s1.putList (l.w.take s.hdl.retn) (fun i w s => s.setOctetsLE (wBase + 2 * i) 2 w.toNat)
  s2.putList l.c (fun i w s => s.setOctetsLE (cBase + 16 * i) 4 w.toNat)

/-- The program with its blocks, constants and stop values; Q holds its stop values until the first output write (R254, R428). -/
def State.loadLogic (s : State) (im : Image) (freeRun : Bool) (tasks : List TaskPlace) : State :=
  match im.logic with
  | none => s
  | some L =>
    let stops := ((im.logicData.map (·.qstop)).getD []).foldl (fun t r =>
      r.data.zipIdx.foldl (fun t e => tabPut 0 t (r.octet + e.2) e.1) t) []
    let entries := tasks.foldl (fun t p => match L.blocks[p.block]? with
      | some b => tabPut taskEntryInit t (32 * p.h + p.t)
          { start := b.start, length := b.length, limit := b.limit, minUs := b.minInterUs }
      | none => t) []
    let s1 : State := { s with hdl := { s.hdl with
      code := L.code, callable := (L.blocks.filter (·.callable)).map (fun b => (b.start, b.length)), entries := entries, retn := L.retn
      qstop := stops, tunables := im.tunables } }
    let s2 := match im.logicData with
      | some l => s1.loadData l
      | none => s1
    let s3 := s2.forEach (tasks.filter (·.placed)) (fun p s => (s.setReg (A.HDL_TCFG p.h p.t) p.cfg).setReg (A.HDL_TPHS p.h p.t) p.phs)
    (s3.setFld A.HDL_STAT F.HDL_STAT_MODEL freeRun.toNat).qStop

/-! ### What placement shows (R445–R449) -/

/-- A cluster's operating point and state. -/
def State.putCluster (s : State) (c point st : Nat) : State :=
  s.setReg (A.PWR_CLUSTER c) (BitVec.ofNat 32 (if st = 3 then 3 else pointMv point * 65536 + pointMhz point * 16 + st))

/-- F_a load of an engine at a clock, % (R446, R457). -/
def Decl.loadPct (d : Decl) (m : BayMap) (e mhz : Nat) : Nat := sumNat ((d.onEngine m e).map (·.fa4)) * 100 / (4 * 1190 * mhz)

/-- What the registers show of the items declared: Hank modules, loop blocks, and each lane's half-band stages (R88). -/
def State.loadDeclared (s : State) (d : Decl) : State :=
  let s1 := (s.setFld A.HNK_STAT F.HNK_STAT_DECL d.modules.length).setFld A.SPN_STAT F.SPN_STAT_BLOCKS d.blocks.length
  s1.forEach (d.lanes.filter (fun x => !d.bit (A.ACQ_LANE x) 7)) (fun x s =>
    let m := s.laneStages x
    (s.setFld (A.FLT_LANE x) F.FLT_LANE_NSTAGE m.length).setFld (A.FLT_LANE x) F.FLT_LANE_ENTRY (m.headD 0))

/-- Pairs whose Reels hold no cross-check slot stand in NOCHK, each with its event (R44, R67). -/
def State.placeXck (s : State) (reels : List (List Word)) : State :=
  let l := (List.range 16).filter (fun k => !((reels.getD k []).any isXck))
  (s.setFld A.ACQ_XCK_STAT F.ACQ_XCK_STAT_NOCHK (l.foldl (fun a k => a + 2 ^ k) 0)).forEach l (fun k s => s.raise Ev.ACQ_XCK_OMITTED k)

/-- Bays' engines, loops' Spindles, bins' places, the cluster floors, the Reels. FLT_FRMRT shows 0xF0 before placement and the engine from
then on, as its table and R24 say; R23's text has every frame register read 0 until the first frame (assumption 59). -/
def State.loadPlaces (s : State) (d : Decl) (p : Placed) (explicit : Bool) : State :=
  let s1 := s.forEach p.bays (fun e s => s.setFld (A.FLT_FRMRT e.1) F.FLT_FRMRT_ENGINE e.2)
  let s2 := s1.forEach (List.range 8) (fun e s =>
    let mask := ((p.bays.filter (fun x => x.2 == e)).foldl (fun a x => a + 2 ^ x.1) 0)
    (s.setFld (A.SUP_PE e) F.SUP_PE_BAYS mask).setFld (A.SUP_PE e) F.SUP_PE_LOAD
      (d.loadPct p.bays e (pointMhz (if e < 4 then p.floor0 else p.floor1))))
  let s3 := s2.forEach p.loops (fun e s => s.setFld (A.SPN_BSTAT e.1) F.SPN_BSTAT_SPINDLE e.2)
  let s4 := s3.forEach p.bases (fun e s => s.setFld (A.ALM_PLAN_SRC e.1) F.ALM_PLAN_SRC_BASE e.2)
  let floors := pointMhz p.floor0 / 10 + pointMhz p.floor1 / 10 * 256 + 80 * 65536 + 100 * 2 ^ 24
  let st (work : Bool) : Nat := if work then 0 else 3
  let s5 := (s4.setReg A.SUP_CLFLOOR (BitVec.ofNat 32 floors)).putCluster 0 p.floor0 (st (p.bays.any (fun x => Nat.blt x.2 4)))
  let s6 := s5.putCluster 1 p.floor1 (st (p.bays.any (fun x => Nat.ble 4 x.2)))
  let s7 : State := { s6.putCluster 2 3 (st (!p.tasks.isEmpty || !p.loops.isEmpty)) with pwr := { s6.pwr with placed := true } }
  ({ s7 with acq := { s7.acq with imgReels := p.reels, imgReelsExplicit := explicit } }.placeXck p.reels).gateGout

/-! ### Keep memory (R263, R180, R316, R404, R407, R408) -/

/-- A motor after a time without supply: the thermal states fall with their stopped time constants. -/
def State.coolMotor (s : State) (b : Nat) (dt : Rat) (m : MotorCopy) : MotorCopy :=
  match s.thmOf b with
  | none => m
  | some t =>
    let fall (theta tau : Rat) : Rat := thetaStep theta 0 dt (s.exf t 4 * tau)
    { m with thetaS := fall m.thetaS (s.exf t 2), thetaR := fall m.thetaR (s.exf t 3) }

/-- Start-list entries older than 3,600 s go. -/
def State.youngStarts (s : State) (m : MotorCopy) : MotorCopy :=
  { m with startList := m.startList.filter (fun t => Nat.blt (s.reg A.ALM_OPSEC).toNat (t + 3600)) }

/-- The Almanac intervals of a save go on; one whose boundary passed in the outage ends at the operating seconds of PFW, with OUTAGE set. -/
def State.almResume (s : State) (k : SaveData) : State :=
  let s1 : State := { s with alm := { s.alm with plans := k.plans, trackers := k.trackers, staged := k.staged ++ s.alm.staged, nextB := k.nextB } }
  let s2 := (s1.putRegs inBins k.bins).forEach [0, 1, 2, 3, 4] (fun i s =>
    match tabGet none s.alm.nextB i with
    | some t => if t ≤ s.tim.now then s.almEnd i t (BitVec.ofNat 32 k.opsec) 128 true else s
    | none => s)
  s2.almRearm

/-- A motor as a warm restart takes it up: one that was STARTING stands STOPPED (R202). -/
def motorStopped (m : MotorCopy) : MotorCopy := if m.state = 1 then { m with state := 0 } else m

/-- Warm: the saved items return (R263). -/
def State.warmStart (s : State) (k : SaveData) : State :=
  let s1 := (s.putMem s.retentive k.mem).putMem inC k.mem
  let s2 := (s1.putOnline (k.online.filterMap (fun e => e.2.map (fun w => (e.1, w))))).putForce k.force
  let lost := s2.tim.rtcBad
  let dt : Rat := if lost then 0 else ((s2.tim.rtc - k.rtc : Nat) : Rat) / 1000000000
  let s3 := s2.forEach k.motors.zipIdx (fun e s => s.putMotor e.2 (s.youngStarts (motorStopped (if lost then e.1 else s.coolMotor e.2 dt e.1))))
  let s4 := ((s3.setReg A.CAP_NEXTREC k.captureNext).setBit A.HDL_SAVE 29 lost).setBit A.HDL_STAT 26 true
  s4.almResume k

/-- Cold: THM.INIT sets the thermal states (R180). -/
def State.coldStart (s : State) : State :=
  s.forEach (List.range 8) (fun b s => match s.thmOf b with
    | none => s
    | some t =>
      let k := s.exf t 1
      let init := s.exn t 11 F.EX_THM_INIT
      let (a, r) : Rat × Rat := if init = 0 then (0, 0) else if init = 1 then (1 / (k * k), s.exf t 7 / (k * k)) else (1, 1)
      (s.setMotor b { s.motor b with thetaS := a, thetaR := r }).motorSync b t)

/-- The save is read and the restart type decided: where the newest is incomplete, the earlier half of R404 counts if it matches (R455,
R518). SIZE is not stated: free. -/
def State.restoreSave (s : State) (im : Image) : State :=
  let (n, s0) := s.nextFree
  let done (s : State) (result : Nat) : State :=
    let s1 := (s.setFld A.HDL_SAVE F.HDL_SAVE_RESULT result).setFld A.HDL_SAVE F.HDL_SAVE_SIZE (if result = 0 then 0 else Config.freeNat n)
    (s1.raise Ev.HDL_RESTART (s1.fld A.HDL_STAT F.HDL_STAT_WARM)).note 4 [BitVec.ofNat 32 (s1.fld A.HDL_STAT F.HDL_STAT_WARM), BitVec.ofNat 32 result]
  match s0.keep.save with
  | none => done s0.coldStart 0
  | some k =>
    if s0.keep.saveBad then
      match s0.keep.prev with
      | some p =>
        if p.hash = im.hash then
          done ({ s0 with keep := { s0.keep with save := some p, saveBad := false, prev := none } }.warmStart p) 1
        else done s0.coldStart 2
      | none => done s0.coldStart 2
    else if k.hash = im.hash then done (s0.warmStart k) 1
    else done s0.coldStart 3

/-- Controlled-closing data of the same image return; with another image T_lrn starts at TNOM (R316). -/
def State.restoreClose (s : State) (im : Image) : State :=
  let same := decide (s.keep.ccHash = im.hash)
  let s1 := s.forEach (List.range 8) (fun b s =>
    let kept := if same then tabGet none s.keep.tlrn b else none
    s.setReg (A.PEL_CC_TLRN b) (kept.getD (s.reg (A.PEL_CC_TNOM b))))
  if same then { s1 with peal := { s1.peal with cbLast := s1.keep.cbLast } }
  else { s1 with keep := { s1.keep with ccHash := im.hash, tlrn := [], cbLast := [] } }

/-- Keep memory's media and capacity; without Keep memory, or with other media than declared, the store fails at the start. -/
def State.loadAlmanac (s : State) : State :=
  let m := s.keep.media
  let sectors := (s.keep.kib - 1932) / 4
  let cap := if m = 0 then 0 else 15 * (if m = 3 then sectors - 2 else sectors)
  let s1 := (s.setFld A.ALM_STAT F.ALM_STAT_MEDIA m).setReg A.ALM_CAP (BitVec.ofNat 32 cap)
  if m = 0 then s1.almFail 3 true 0 else if m ≠ s1.fld A.ALM_CFG F.ALM_CFG_MEDIA then s1.almFail 5 true 0 else s1

/-- The network domain is powered while a port or the Ply link, which a pairing enables, is enabled (R14, R26). -/
def State.netPower (s : State) : State :=
  s.setBit A.PWR_DOMAIN_STAT 2 ((List.range 4).any s.portPowered || (s.cfg.image.bind (fun i => i.pairing)).isSome)

/-- A CLP with STARTCOLD is started at device start: its bay counts as cold (R169). -/
def State.clpCold (s : State) : State :=
  s.forEach ((List.range 512).filter (fun x => s.eiType x == 0x0F && s.exb x 3 0)) (fun x s => s.setInst x { s.inst x with flag := true })

/-- Everything a chosen image loads. -/
def State.loadImage (s : State) (c : Chosen) (fw : Firmware) (fwSlot : Nat) (fallback : Bool) : State :=
  let s1 := (((s.loadIdentity c.im fw fwSlot c.slot fallback).loadParam c.im).loadPairing c.im).clpCold
  let s2 := (((s1.loadDeclared c.d).loadOverlays c.d c.im).loadPlaces c.d c.pl c.im.reels.isSome).loadLogic c.im c.pl.freeRun c.pl.tasks
  let s3 := s2.forEach c.im.gooseSub (fun b s => if s.bit (A.NET_GS_CFG b.s) 31 then s.applyMaps b (fun m => some (mapDefault m)) else s)
  (((s3.loadAlmanac).restoreSave c.im).restoreClose c.im).netPower

end Sys2Proof.Machine
end

