-- ==== Sys2Proof/Machine/Time.lean ====
section
/-! DEFINITION. The time base (R296–R307): sources, servo, holdover, steps and leap seconds, with the steps SECOND_BOUNDARY,
PTP_SYNC_RECEIVE, PTP_FOLLOW_UP_RECEIVE, PTP_ANNOUNCE_RECEIVE, PTP_ANNOUNCE_TIMEOUT, PTP_PDELAY_REQ_SEND, PTP_PDELAY_REQ_RECEIVE,
PTP_PDELAY_RESP_RECEIVE, PPS_EDGE, IRIGB_FRAME, SOURCE_SWITCH, HOLDOVER_EXPIRE, LEAP_SECOND and TIME_SOURCE_LOSS. -/

namespace Sys2Proof.Machine

/-! ### State and sources -/

/-- TIM_STAT.STATE: 0 FREE, 1 ACQUIRING, 2 LOCKED, 3 HOLDOVER. -/
def State.timState (s : State) : Nat := s.fld A.TIM_STAT F.TIM_STAT_STATE

/-- The source in use: 0 none, 1 PTP, 2 1PPS, 3 IRIG-B. -/
def State.timSrc (s : State) : Nat := s.fld A.TIM_STAT F.TIM_STAT_SRC

/-- Priority of a source (R302). -/
def srcRank (k : Nat) : Nat := if k = 1 then 3 else if k = 3 then 2 else if k = 2 then 1 else 0

/-- A source is enabled. -/
def State.srcEnabled (s : State) (k : Nat) : Bool :=
  (k == 1 && s.bit A.TIM_CFG 31) || (k == 2 && s.bit A.TIM_CFG 30) || (k == 3 && s.bit A.TIM_CFG 29)

/-- Since when a source is present. -/
def State.srcSince (s : State) (k : Nat) : Option Nat := tabGet none s.tim.present k

/-- Frequency correction in ppb. -/
def State.fcorr (s : State) : Int := (s.reg A.TIM_FCORR).toInt

/-- The mean correction of the last 60 s of the most recent lock (R304). -/
def State.meanCorr (s : State) : Int :=
  match s.tim.corrs with
  | [] => s.fcorr
  | l => roundDiv (l.foldl (fun a e => a + e.2) 0) l.length

/-- Entry into a time state, with what each state shows and steers to. -/
def State.timEnter (s : State) (st : Nat) : State :=
  let was := s.timState
  let s1 := s.setFld A.TIM_STAT F.TIM_STAT_STATE st
  let s2 : State := if was = 2 ∧ st ≠ 2 then { s1 with tim := { s1.tim with lockEnd := some s1.tim.up } } else s1
  match st with
  | 0 => { s2 with tim := { s2.tim with target := 0 } }
  | 1 => { s2.setBit A.TIM_STAT 26 false with tim := { s2.tim with lockCount := 0, outCount := 0, offsets := [], holdStart := none } }.setReg
      A.TIM_HOLDT 0
  | 2 =>
    let s3 := (s2.setBit A.TIM_STAT 25 false).setBit A.TIM_STAT 24 false
    { s3 with tim := { s3.tim with corrs := [], outCount := 0 } }.raise Ev.TIM_LOCKED noIndex
  | _ =>
    let s3 : State := { s2 with tim := { s2.tim with target := s2.meanCorr, holdStart := some s2.tim.up } }
    let s4 := (s3.setReg A.TIM_HOLDT 0).raise Ev.TIM_HOLDOVER noIndex
    if Nat.blt (s4.tim.lockEnd.getD 0 + 60000000000) s4.tim.up then (s4.setBit A.TIM_STAT 26 true).raise Ev.TIM_HOLD_EXPIRED noIndex else s4

/-- The source in use changes. -/
def State.useSource (s : State) (k : Nat) : State :=
  if s.timSrc = k then s else (s.setFld A.TIM_STAT F.TIM_STAT_SRC k).raise Ev.TIM_SRC_CHANGE k

/-- The present source of highest priority; 0 where none is. -/
def State.bestSource (s : State) : Nat :=
  match [1, 3, 2].find? (fun k => s.srcEnabled k && (s.srcSince k).isSome) with
  | some k => k
  | none => 0

/-- Acquisition of a source begins. -/
def State.acquire (s : State) (k : Nat) : State := (s.useSource k).timEnter 1

/-- A source shows a sign of itself: while none is in use, the best present is taken at once (R302). -/
def State.srcSeen (s : State) (k : Nat) : State :=
  let s1 : State := { s with tim := { s.tim with
    present := (if (s.srcSince k).isSome then s.tim.present else tabPut none s.tim.present k (some s.tim.up)) } }
  if s1.timSrc = 0 ∧ s1.bestSource ≠ 0 then s1.acquire s1.bestSource else s1

/-- A best master is selected: identity, quality and port are shown. -/
def State.selectGm (s : State) (b : BitVec 64 × Nat × Nat × Nat × Nat) : State :=
  let s1 : State := { s with tim := { s.tim with best := some b } }
  let differs := s1.reg64 A.TIM_GMID_LO A.TIM_GMID_HI ≠ b.1.toNat
  let q := b.2.1 % 256 * 2 ^ 24 + b.2.2.1 % 256 * 65536 + b.2.2.2.1 % 65536
  let s2 := (s1.setReg64 A.TIM_GMID_LO A.TIM_GMID_HI b.1.toNat).setFld A.TIM_STAT F.TIM_STAT_PORT (b.2.2.2.2 % 2)
  (if differs then s2.raise Ev.TIM_GM_CHANGE noIndex else s2).setReg A.TIM_GMQ (BitVec.ofNat 32 q)

/-- The master heard on the other port, while its Announces keep coming. -/
def State.altMaster (s : State) : Option ((BitVec 64 × Nat × Nat × Nat × Nat) × (Nat × Nat)) :=
  s.tim.alt.filter (fun x => Nat.blt s.tim.up (x.2.1 + 3 * x.2.2 * 1000000))

/-- The device changes port: PTP goes on from the other port's master, and the servo absorbs the change (R300). -/
def State.changePort (s : State) (x : (BitVec 64 × Nat × Nat × Nat × Nat) × (Nat × Nat)) : State :=
  let s1 := s.selectGm x.1
  { s1 with tim := { s1.tim with annAt := some x.2.1, annMs := x.2.2, alt := none, syncWait := none, outCount := 0 } }

/-- A source is absent; the loss of the one in use follows R304. -/
def State.srcGone (s : State) (k : Nat) : State :=
  let s1 : State := { s with tim := { s.tim with present := tabPut none s.tim.present k none } }
  if s1.timSrc ≠ k ∨ k = 0 then s1
  else
    let s2 := s1.incSat A.TIM_CNT F.TIM_CNT_LOSSES Ev.TIM_CNT_SAT noIndex
    let s3 := if s2.bit A.TIM_STAT 25 then s2.timEnter 0 else if s2.timState = 3 then s2 else s2.timEnter 3
    let b := s3.bestSource
    if b = 0 then s3.useSource 0 else s3.acquire b

/-- A source is lost; PTP goes on from the other port of the pair where its master is heard there (R300). -/
def State.srcLost (s : State) (k : Nat) : State :=
  if k = 1 then
    match s.altMaster with
    | some x => s.changePort x
    | none => s.srcGone 1
  else s.srcGone k

/-! ### Steps of device time (R305, R306) -/

/-- The loops' releases after a step. -/
def State.loopRearm (s : State) : State :=
  s.forEach (List.range 512) (fun b s =>
    if (s.loopB b).next.isSome then s.setLoopB b { s.loopB b with next := some (gridFrom s.tim.now (s.loopPeriod b) (s.loopPhase b)) } else s)

/-- The published streams' numbers jump by the step (R306). -/
def State.svShift (s : State) (d : Int) : State :=
  s.forEach (List.range 8) (fun b s =>
    match (tabGet svPubInit s.net.svp b).next with
    | some n =>
      let n1 := ((n : Int) + d * (s.fixedRate b : Int) / 50).toNat
      { s with net := { s.net with svp := tabPut svPubInit s.net.svp b { next := some n1 } } }
    | none => s)

/-- The capture grids' numbers jump by the step. -/
def State.capShift (s : State) (d : Int) : State :=
  s.forEach (List.range 16) (fun p s =>
    let x := s.capPlan p
    let j (n : Nat) : Nat := ((n : Int) + d * (s.chainRate (s.fld (A.CAP_PLAN_CFG p) F.CAP_PLAN_CFG_BAY) : Int) / 50).toNat
    s.setCapPlan p { x with next := x.next.map j, pend := x.pend.map (fun e => (j e.1, e.2)) })

/-- Device time is stepped by `n` × 20 ms; logic changes and overlays whose T the step passes take effect at it (R306, R437). -/
def State.timeStep (s : State) (n : Int) : State :=
  let s1 : State := { s with tim := { s.tim with now := ((s.tim.now : Int) + n * 20000000).toNat } }
  let s2 := (s1.setReg A.TIM_LASTSTEP (wordOfInt n)).incSat A.TIM_CNT F.TIM_CNT_STEPS Ev.TIM_CNT_SAT noIndex
  let s3 := (s2.raise Ev.TIM_STEP (wordOfInt n).toNat).note 5 [wordOfInt n]
  let s4 := s3.closeCancel
  let s5 := if 0 < n then s4.pealStep else s4
  let s6 := ((s5.svShift n).capShift n).forEach (List.range 4) (fun _ s => doOverlayTakeEffect s)
  (((s6.applyDue.heddleArm).loopRearm).hankRearm).almStep (decide (0 < n))

/-! ### The servo (R298, R303, R305) -/

/-- A measurement of the source in use: `ofs` is source minus device, ns. -/
def State.servo (s : State) (ofs : Int) : State :=
  let s1 := s.setReg A.TIM_OFS (wordOfInt (clampInt (-(2 ^ 31)) (2 ^ 31 - 1) ofs))
  let first := s1.tim.offsets.isEmpty
  if s1.timState = 2 ∧ 10000 < ofs.natAbs then
    let s2 : State := { s1 with tim := { s1.tim with outCount := s1.tim.outCount + 1 } }
    if s2.tim.outCount = 4 then s2.srcLost s2.timSrc else s2
  else
    let k := roundDiv ofs 20000000
    let step := s1.timState = 1 ∧ first ∧ s1.bit A.TIM_CFG 27 ∧ (s1.reg A.TIM_STEPTHR).toNat < ofs.natAbs ∧ k ≠ 0
    let s2 := if step then s1.timeStep k else s1
    let left := if step then ofs - k * 20000000 else ofs
    let (q, s3) := s2.nextFree
    let s4 : State := { s3 with tim := { s3.tim with
      target := clampInt (-100000) 100000 (Config.freeInt q), outCount := 0, offsets := [left],
      lockCount := if left.natAbs ≤ 100 then s3.tim.lockCount + 1 else 0 } }
    if s4.timState = 1 ∧ 8 ≤ s4.tim.lockCount then s4.timEnter 2 else s4

/-- A measurement of source `k`. -/
def State.measured (s : State) (k : Nat) (ofs : Int) : State :=
  if !s.srcEnabled k then s
  else
    let s1 := s.srcSeen k
    if s1.timSrc = k then s1.servo ofs else s1

/-! ### PTP (R299, R300, R307) -/

/-- Ports of the selected pair, by R300. -/
def State.ptpProcess (s : State) : Bool := !s.bit A.TIM_CFG 28

/-- PTP is taken on this port. -/
def State.ptpPort (s : State) (p : Nat) : Bool := s.bit A.TIM_CFG 31 && (s.pairPorts s.ptpProcess).contains p

/-- A Sync of the best master, on the port in use. -/
def State.ptpMine (s : State) (p : Nat) (gm : BitVec 64) (domain : Nat) : Bool :=
  s.ptpPort p && domain == s.fld A.TIM_CFG F.TIM_CFG_DOMAIN &&
    (match s.tim.best with
     | some b => b.1 == gm && b.2.2.2.2 == p
     | none => false)

/-- PTP_SYNC_RECEIVE. -/
def doPtpSyncReceive (port : Fin 4) (m : PtpSync) (s : State) : State :=
  if !s.ptpMine port m.gmId m.domain then s
  else if m.twoStep then { s with tim := { s.tim with syncWait := some (port.val, m.seq, s.tim.up) } }
  else s.measured 1 m.offset

/-- PTP_FOLLOW_UP_RECEIVE: completes the Sync of its sequence number. -/
def doPtpFollowUpReceive (port : Fin 4) (seq : BitVec 16) (offset : Int) (s : State) : State :=
  match s.tim.syncWait with
  | some w =>
    if w.1 = port.val ∧ w.2.1 = seq ∧ s.ptpPort port then { s with tim := { s.tim with syncWait := none } }.measured 1 offset else s
  | none => s

/-- The end of the present UTC day with the leap second applied, in device time. -/
def State.leapInstant (s : State) (d : Int) : Nat :=
  let ofs := signExt 16 (s.fld A.TIM_UTCOFS F.TIM_UTCOFS_OFFSET) * 1000000000
  let utc := (s.tim.now : Int) - ofs
  ((utc / 86400000000000 + 1) * 86400000000000 + ofs + d * 1000000000).toNat

/-- TIM_UTCOFS.OFFSET changes. -/
def State.setUtcOffset (s : State) (v : Int) : State :=
  if s.fld A.TIM_UTCOFS F.TIM_UTCOFS_OFFSET = (wordOfInt v).toNat % 65536 then s
  else ((s.setFld A.TIM_UTCOFS F.TIM_UTCOFS_OFFSET ((wordOfInt v).toNat % 65536)).raise Ev.TIM_LEAP noIndex).almRearm

/-- The UTC offset and leap flags of an Announce of the selected master. -/
def State.announceUtc (s : State) (m : PtpAnnounce) : State :=
  if !m.utcValid then s
  else
    let s1 := (((s.setBit A.TIM_UTCOFS 31 true).setBit A.TIM_UTCOFS 30 m.leap61).setBit A.TIM_UTCOFS 29 m.leap59).setUtcOffset m.utcOffset
    let d : Int := if m.leap61 then 1 else -1
    let at_ := if m.leap61 || m.leap59 then (match s1.tim.leapAt with
      | some x => some x
      | none => some (s1.leapInstant d, d)) else none
    { s1 with tim := { s1.tim with leapAt := at_ } }

/-- PTP_ANNOUNCE_RECEIVE: the best master is selected; clockClass 248 and above counts only with ANYGM. -/
def doPtpAnnounceReceive (port : Fin 4) (m : PtpAnnounce) (s : State) : State :=
  if !s.ptpPort port || m.domain != s.fld A.TIM_CFG F.TIM_CFG_DOMAIN then s
  else
    let usable := decide (m.clockClass < 248) || s.bit A.TIM_CFG 26
    let same := match s.tim.best with
      | some b => b.1 == m.gmId && b.2.2.2.2 == port.val
      | none => false
    let onAlt := (s.tim.alt.map (fun x => x.1.2.2.2.2)) == some port.val
    let s0 : State := if onAlt then { s with tim := { s.tim with alt := none } } else s
    let m1 := (m.gmId, m.clockClass, m.accuracy, m.stepsRemoved, port.val)
    if !usable then (if same then { s with tim := { s.tim with best := none, annAt := none } }.srcLost 1 else s0)
    else
      let take := same || s.tim.best.isNone || (m.better && (s.tim.best.map (·.1)) != some m.gmId)
      if !take then
        (if (s.tim.best.map (fun b => b.2.2.2.2)) == some port.val then s
         else { s with tim := { s.tim with alt := some (m1, s.tim.up, m.intervalMs) } })
      else
        let s2 := (s0.selectGm m1).announceUtc m
        { s2 with tim := { s2.tim with annAt := some s2.tim.up, annMs := m.intervalMs } }

/-- PTP_ANNOUNCE_TIMEOUT: three intervals without an Announce of the best master. -/
def doPtpAnnounceTimeout (s : State) : State :=
  match s.tim.annAt with
  | none => s
  | some t =>
    if s.tim.up < t + 3 * s.tim.annMs * 1000000 then s
    else { s with tim := { s.tim with best := none, annAt := none, syncWait := none } }.srcLost 1

/-- PTP_PDELAY_REQ_SEND: every second on each port of the pair that this ply uses. -/
def doPtpPdelayReqSend (s : State) : State :=
  let due := match s.tim.pdLast with
    | none => true
    | some t => Nat.ble (t + 1000000000) s.tim.up
  let ports := (s.pairPorts s.ptpProcess).filter (fun p => s.ptpPort p)
  if !due || ports.isEmpty || !s.mayTransmit then s
  else
    let f : TxFrame := { body := .pdelayReq s.tim.pdSeq, process := s.ptpProcess, prpSeq := none, high := true }
    { s with tim := { s.tim with pdSeq := s.tim.pdSeq + 1, pdLast := some s.tim.up, pdWait := ports } }.forEach ports (fun p s => s.enqueue f p)

/-- PTP_PDELAY_REQ_RECEIVE: answered two-step on the same port. -/
def doPtpPdelayReqReceive (port : Fin 4) (seq : BitVec 16) (s : State) : State :=
  if !s.ptpPort port || !s.mayTransmit then s
  else
    let f (b : TxBody) (high : Bool) : TxFrame := { body := b, process := s.ptpProcess, prpSeq := none, high := high }
    (s.enqueue (f (.pdelayResp seq) true) port).enqueue (f (.pdelayFollowUp seq) false) port

/-- PTP_PDELAY_RESP_RECEIVE: the mean path delay of the port. -/
def doPtpPdelayRespReceive (port : Fin 4) (delay : Nat) (s : State) : State :=
  if !s.ptpPort port || !s.tim.pdWait.contains port.val then s
  else
    let a := if port.val % 2 = 0 then A.TIM_PDLY_0 else A.TIM_PDLY_1
    { s with tim := { s.tim with pdWait := s.tim.pdWait.filter (· != port.val) } }.setReg a (BitVec.ofNat 32 (min delay 0xFFFFFFFF))

/-! ### 1PPS, IRIG-B and the rest -/

/-- PPS_EDGE: the nearest second of device time, delayed by TIM_PPSDLY. -/
def doPpsEdge (s : State) : State :=
  let dly : Int := (s.reg A.TIM_PPSDLY).toNat
  let sec := roundDiv ((s.tim.now : Int) - dly) 1000000000
  s.measured 2 (sec * 1000000000 + dly - (s.tim.now : Int))

/-- IRIGB_FRAME: `offset` is the decoded time, converted with TIM_UTCOFS, minus device time at the on-time edge. -/
def doIrigbFrame (offset : Int) (s : State) : State := s.measured 3 offset

/-- SOURCE_SWITCH: a source of higher priority, present for 10 s without a break, displaces the one in use. -/
def doSourceSwitch (src : Fin 4) (s : State) : State :=
  match s.srcSince src with
  | none => s
  | some t =>
    if !s.srcEnabled src || s.tim.up < t + 10000000000 || srcRank src ≤ srcRank s.timSrc then s else s.acquire src

/-- HOLDOVER_EXPIRE: 60 s after the lock ended. -/
def doHoldoverExpire (s : State) : State :=
  if s.timState ≠ 3 ∨ s.bit A.TIM_STAT 26 ∨ s.tim.up < s.tim.lockEnd.getD 0 + 60000000000 then s
  else (s.setBit A.TIM_STAT 26 true).raise Ev.TIM_HOLD_EXPIRED noIndex

/-- LEAP_SECOND. -/
def doLeapSecond (s : State) : State :=
  match s.tim.leapAt with
  | none => s
  | some x =>
    if s.tim.now < x.1 then s
    else
      let s1 := s.setUtcOffset (signExt 16 (s.fld A.TIM_UTCOFS F.TIM_UTCOFS_OFFSET) + x.2)
      { (s1.setBit A.TIM_UTCOFS 30 false).setBit A.TIM_UTCOFS 29 false with tim := { s1.tim with leapAt := none } }

/-- TIME_SOURCE_LOSS: an enabled source stops arriving. -/
def doTimeSourceLoss (src : Fin 4) (s : State) : State := if s.srcEnabled src then s.srcLost src else s

/-- SECOND_BOUNDARY: the RTC follows device time while LOCKED or in HOLDOVER; while LOCKED the correction is recorded for the mean. -/
def doSecondBoundary (s : State) : State :=
  let sec := s.tim.now / 1000000000
  if sec = s.tim.lastSec then s
  else
    let rtc := if 2 ≤ s.timState then sec * 1000000000 else s.tim.rtc
    let corrs := if s.timState = 2 then ((s.tim.up, s.fcorr) :: s.tim.corrs).take 60 else s.tim.corrs
    { s with tim := { s.tim with lastSec := sec, rtc := rtc, rtcBad := s.tim.rtcBad && Nat.blt s.timState 2, corrs := corrs } }

def execSecondBoundary (s : State) : Host.Outcome State Fault Refusal := .next (s.awake doSecondBoundary)
def execPtpSyncReceive (port : Fin 4) (m : PtpSync) (s : State) : Host.Outcome State Fault Refusal := .next (s.awake (doPtpSyncReceive port m))
def execPtpFollowUpReceive (port : Fin 4) (seq : BitVec 16) (offset : Int) (s : State) : Host.Outcome State Fault Refusal :=
  .next (s.awake (doPtpFollowUpReceive port seq offset))
def execPtpAnnounceReceive (port : Fin 4) (m : PtpAnnounce) (s : State) : Host.Outcome State Fault Refusal :=
  .next (s.awake (doPtpAnnounceReceive port m))
def execPtpAnnounceTimeout (s : State) : Host.Outcome State Fault Refusal := .next (s.awake doPtpAnnounceTimeout)
def execPtpPdelayReqSend (s : State) : Host.Outcome State Fault Refusal := .next (s.awake doPtpPdelayReqSend)
def execPtpPdelayReqReceive (port : Fin 4) (seq : BitVec 16) (s : State) : Host.Outcome State Fault Refusal :=
  .next (s.awake (doPtpPdelayReqReceive port seq))
def execPtpPdelayRespReceive (port : Fin 4) (delay : Nat) (s : State) : Host.Outcome State Fault Refusal :=
  .next (s.awake (doPtpPdelayRespReceive port delay))
def execPpsEdge (s : State) : Host.Outcome State Fault Refusal := .next (s.awake doPpsEdge)
def execIrigbFrame (offset : Int) (s : State) : Host.Outcome State Fault Refusal := .next (s.awake (doIrigbFrame offset))
def execSourceSwitch (src : Fin 4) (s : State) : Host.Outcome State Fault Refusal := .next (s.awake (doSourceSwitch src))
def execHoldoverExpire (s : State) : Host.Outcome State Fault Refusal := .next (s.awake doHoldoverExpire)
def execLeapSecond (s : State) : Host.Outcome State Fault Refusal := .next (s.awake doLeapSecond)
def execTimeSourceLoss (src : Fin 4) (s : State) : Host.Outcome State Fault Refusal := .next (s.awake (doTimeSourceLoss src))

end Sys2Proof.Machine
end

