-- ==== Sys2Proof/Machine/Start.lean ====
section
/-! DEFINITION. ENGINES_LOADED and ACQ_REEL_SWITCH (R440, R441, R48): the image is chosen and loaded, and takes over at a second
boundary. -/

namespace Sys2Proof.Machine

/-! ### ENGINES_LOADED -/

/-- The next second boundary, ns from now. -/
def State.toSecond (s : State) : Nat := (1000000000 - s.tim.now % 1000000000) % 1000000000

/-- Time steps forward by the smallest whole multiple of 20 ms that puts the next second boundary within 20 ms, in FREE or ACQUIRING
(R441). -/
def State.startStep (s : State) : State :=
  let n := (s.toSecond + 19999999) / 20000000 - 1
  if (s.timState ≠ 0 ∧ s.timState ≠ 1) ∨ s.toSecond ≤ 20000000 then s else s.timeStep n

/-- ENGINES_LOADED: from power-good's Watchman phase the firmware and the image are chosen, checked and loaded (R417, R418, R429, R430,
R440); the start then waits for the second boundary. -/
def doEnginesLoaded (s : State) : State :=
  if s.fld A.SUP_STAT F.SUP_STAT_PHASE ≠ 1 || !s.pwr.on then s
  else match s.cfg.boot with
    | none => s
    | some m => match bootDirectory m with
      | none => (s.cfgFail 0x0101 0xFFFF 0).startFails 2
      | some d => match firstSlot (tryFw m d) s (slotOrder d.prefFw) with
        | (none, s1) => s1.startFails 2
        | (some (f, fw), s1) => match firstSlot (tryImage m d fw) s1 (slotOrder d.prefImage) with
          | (none, s2) => s2.startFails (if d.imgSlots.all (fun e => e.2 == 0) then 3 else 2)
          | (some (i, c), s2) =>
            let fallback := decide (f ≠ d.prefFw.toNat) || decide (i ≠ d.prefImage.toNat)
            ((s2.loadImage c fw f fallback).setFld A.SUP_STAT F.SUP_STAT_PHASE 6).startStep

/-! ### ACQ_REEL_SWITCH -/

/-- The image's Reels, and the pairs left without a cross-check (R44, R48, R66). -/
def State.switchReels (s : State) : State :=
  let reels := s.acq.imgReels
  let len := ((reels.headD []).map entrySlots).foldl (· + ·) 0
  let s1 := s.putList reels (fun k l s => s.putReel k l)
  let s2 := (s1.setFld A.ACQ_STAT F.ACQ_STAT_REEL_SRC (if s.acq.imgReelsExplicit then 2 else 1)).setFld A.ACQ_STAT F.ACQ_STAT_L len
  s2.raise Ev.ACQ_REEL_SWITCH noIndex

/-- Lanes convert from now on; those of the Watchman feed go on, and a comparator without a lane has no feed any more (R48, R111). -/
def State.lanesBegin (s : State) : State :=
  let s1 := s.forEach ((List.range 128).filter s.laneDeclared) (fun x s =>
    s.setLane x { (s.lane x).fresh with from_ := if (s.laneFeed x).isSome then s.slotNow - 4 else s.slotNow })
  let off := (List.range 24).filter (fun c => (s1.feedLane c).isNone)
  { s1 with trip := { s1.trip with
      wmTaps := off.foldl (fun t c => tabPut [] t c []) s1.trip.wmTaps, wmNew := off.foldl (fun t c => tabPut 0 t c 0) s1.trip.wmNew } }

/-- The image's thresholds, maps and pin masks replace the OTP defaults; what it does not name is 0 (R146). THR 0
disables a bay's comparators. -/
def State.switchWatchman (s : State) (im : Image) : State :=
  let addrs := (List.range 8).map A.PRT_WM_THR ++ (List.range 4).map A.PRT_WM_MAP ++ (List.range 16).map A.PRT_TOUT
  let s1 := s.forEach addrs (fun a s => s.setReg a ((((imLoaded im).find? (fun e => e.1 == a)).map (fun e => e.2)).getD 0))
  let s2 : State := { s1 with trip := { s1.trip with wmCount := [], wmLow := [], wmLast := [] } }
  let s3 := s2.forEach ((List.range 24).filter (fun k => s2.fld (A.PRT_WM_THR (k / 3)) ⟨15, 0⟩ == 0)) (fun k s => s.setBit A.PRT_WM_STATE k false)
  (((s3.setFld A.PRT_STAT F.PRT_STAT_WM_SRC 2).raise Ev.PRT_WM_SRC noIndex).wmOutputs).tripEval

/-- CFG_START.OVL comes into force (R436). -/
def State.switchOverlay (s : State) : State :=
  let k := s.fld A.CFG_START F.CFG_START_OVL
  if k = 0 || !s.ovlUsable k then s
  else ((s.forEach (s.ovlPatch k) (fun e s => s.setReg e.1 (s.ovlWord e.1 e.2))).setFld A.CFG_OVL F.CFG_OVL_INFORCE k).commFollow

/-- Every bay's timeline starts with sample 0 now, and its signals settle (R11, R105). -/
def State.switchChains (s : State) : State :=
  s.forEach ((List.range 8).filter (fun b => s.bit (A.PRT_BAYCFG b) 31)) (fun b s =>
    let t : Rat := (s.tim.smp : Rat)
    let c : BayChain := { bayChainInit with ft := s.nomFreq b, next := t, epochs := [s.newEpoch b t] }
    let s1 := (s.setBayChain b (c.place (s.chainRate b))).setBit A.FLT_STAT (8 + b) false
    let s2 := (s1.setFld (A.FLT_TRK b) F.FLT_TRK_SOURCE 2).setFld (A.FLT_TRK b) F.FLT_TRK_FREQ (ratRound (s.nomFreq b * 10000)).toNat
    (s2.settleSigs b (s2.baySigs b) t).setLatency b)

/-- Loops, Peal entries, Hank modules, capture rings and streams start. -/
def State.switchEngines (s : State) : State :=
  let s1 := s.forEach ((List.range 512).filter s.spnDecl) (fun b s =>
    s.setLoopB b { s.loopB b with next := some (gridFrom s.tim.now (s.loopPeriod b) (s.loopPhase b)) })
  let s2 := (s1.forEach (List.range 1024) (fun e s => s.pealEnable e)).forEach (List.range 64) (fun m s => s.hankEnable m)
  let s3 := s2.forEach (List.range 16) (fun p s => s.capPlanChange p false (s.fld (A.CAP_PLAN_WIN p) F.CAP_PLAN_WIN_PRE))
  s3.forEach (List.range 8) (fun b s => if s.bit (A.NET_SVP_CFG b) 31 then s.svEnable b else s)

/-- The logic takes its mode: as saved with HOLD as STOP on a warm start, else STARTMODE (R263). -/
def State.switchLogic (s : State) : State :=
  let saved := if s.bit A.HDL_STAT 26 then s.keep.save.map (·.mode) else none
  let mode := match saved with
    | some m => if m = 0 then 0 else 1
    | none => s.fld A.HDL_CFG F.HDL_CFG_STARTMODE
  (s.setMode mode).heddleArm

/-- The Almanac's intervals start, PARTIAL; those that a warm start restored go on (R397, R407). -/
def State.switchAlmanac (s : State) : State :=
  let s1 := s.forEach ((List.range 256).filter (fun h => s.bit (A.ALM_PLAN_CFG h) 31 && !(s.almPlan h).running)) (fun h s => s.almOpenPlan h true)
  let s2 := s1.forEach ((List.range 1024).filter (fun t => s1.bit (A.ALM_XT_CFG t) 31 && !(s1.almTrk t).running)) (fun t s => s.almOpenTrk t true)
  if (tabGet none s2.alm.nextB 0).isSome then s2 else s2.almRearm

/-- The role after the switch: SIMPLEX without a pairing record, else JOINING (R371). What a peer already sent on
the link is judged now. -/
def State.switchRole (s : State) (im : Image) : State :=
  let s1 := match im.pairing with
    | none => s.setRole 0
    | some _ => s.startJoin
  let s2 := match s1.ply.peer with
    | some p => if s1.role = 3 then doPeerIdentityReceive p s1 else s1
    | none => s1
  ((s2.netActive).spnTwin).gateGout

/-- ACQ_REEL_SWITCH: on the second boundary after loading the image takes over, all in one sample-clock cycle (R48, R146). -/
def doAcqReelSwitch (s : State) : State :=
  if s.fld A.SUP_STAT F.SUP_STAT_PHASE ≠ 6 || !s.pwr.on || s.tim.now % 1000000000 != 0 then s
  else match s.cfg.image with
    | none => s
    | some im =>
      let s1 := (s.setFld A.SUP_STAT F.SUP_STAT_PHASE 7).setFld A.SUP_TSTART F.SUP_TSTART_TSW
        (min ((s.tim.up - s.pwr.goodAt) / 1000000) 0xFFFF)
      let s2 : State := { s1 with cfg := { s1.cfg with switched := some s1.tim.up } }
      let s3 := (s2.switchOverlay).switchReels.lanesBegin
      let s4 := (((s3.switchChains).switchWatchman im).switchLogic).switchAlmanac
      (((s4.switchRole im).switchEngines).rotSync).protUp

/-! ### Steps as executed -/

def execEnginesLoaded (s : State) : Host.Outcome State Fault Refusal := .next (s.awake doEnginesLoaded)
def execAcqReelSwitch (s : State) : Host.Outcome State Fault Refusal := .next (s.awake doAcqReelSwitch)

end Sys2Proof.Machine
end

