-- ==== Sys2Proof/Machine/Watch.lean ====
section
/-! DEFINITION. The power-fail warning and Watchman mode (R262, R375, R452, R453). -/

namespace Sys2Proof.Machine

/-- The warm-restart save (R262): none before ACQ_REEL_SWITCH (R455) or with the store DEGRADED (R408). -/
def State.makeSave (s : State) : State :=
  match s.cfg.switched, s.cfg.image with
  | some _, some im =>
    if s.fld A.ALM_STAT F.ALM_STAT_STATE = 2 then s
    else
      let d : SaveData :=
        { hash := im.hash, rtc := s.tim.rtc, opsec := (s.reg A.ALM_OPSEC).toNat
          mem := s.mem.filter (fun e => s.retentive e.1 || inC e.1), force := s.regs.filter (fun e => inForce e.1), online := s.hdl.online
          mode := s.logicMode, motors := s.motorCopies, bins := s.regs.filter (fun e => inBins e.1), plans := s.alm.plans
          trackers := s.alm.trackers, staged := s.alm.staged, nextB := s.alm.nextB, captureNext := s.reg A.CAP_NEXTREC }
      { s with keep := { s.keep with
          save := some d, saveAt := some s.tim.up, saveBad := false, prev := if s.keep.saveBad then s.keep.prev else s.keep.save } }
  | _, _ => s

/-- PFW_ASSERT: an actor's claim stops, and with it all transmission; pending logic changes and overlay activations are discarded (R265,
R375, R437). -/
def doPfwAssert (s : State) : State :=
  if !s.pwr.on || s.pwr.pfw then s
  else
    let s1 : State := { s with pwr := { s.pwr with pfw := true, pfwAt := s.tim.up }, hdl := { s.hdl with acts := [] }
                               cfg := { s.cfg with acts := [] } }
    let s2 := s1.ovlSync
    if s2.claiming then s2.stopClaim.netStop else s2

/-- A die sensor above 135 °C. -/
def State.tooHot (s : State) : Bool :=
  (List.range 8).any (fun k => decide (1350 < signExt 16 (s.fld (A.SUP_TEMP k) F.SUP_TEMP_TEMP)))

/-- Watchman mode in the order of R452: the claim stops, the save is made, channels keep their minimum pulses, and C0–C3, the network and
the host domain are gated off. Element sources and logic trip requests read 0 from here on. -/
def State.enterWatchman (s : State) : State :=
  let s1 := (if s.claiming then s.stopClaim else s).netStop.makeSave
  let s2 := s1.forEach [0, 1, 2, 3] (fun c s => s.setReg (A.PWR_CLUSTER c) 3)
  let s3 := ((s2.setBit A.PWR_DOMAIN_STAT 2 false).setBit A.PWR_DOMAIN_STAT 3 false).setBit A.PWR_DOMAIN_STAT 4 true
  let s4 := ((s3.setFld A.SUP_STAT F.SUP_STAT_PHASE 8).setBit A.PLY_STAT 22 false).setFld A.PLY_STAT F.PLY_STAT_JSTEP 0
  let s5 : State := { s4 with
    acq := { s4.acq with use := .idle, search := none }
    pwr := { s4.pwr with gates := [], pfwAt := if s4.pwr.pfw then s4.pwr.pfwAt else s4.tim.up } }
  (s5.tripEval).raise Ev.SUP_POWER 0

/-- WATCHMAN_ENTRY: PFW asserted for 50 µs, or a sensor above 135 °C. -/
def doWatchmanEntry (s : State) : State :=
  if !s.pwr.on || s.inWatchman || s.fld A.SUP_STAT F.SUP_STAT_PHASE == 0 then s
  else if (s.pwr.pfw && Nat.ble (s.pwr.pfwAt + 50000) s.tim.up) || s.tooHot then s.enterWatchman else s

/-- WATCHMAN_EXIT: PFW has stayed released for 100 ms; a start with cause 3 follows (R453). -/
def doWatchmanExit (s : State) : State :=
  if !s.pwr.on || !s.inWatchman || Nat.blt s.tim.up (s.pwr.pfwAt + 100000000) then s
  else
    let s1 : State := { s with pwr := { s.pwr with pfw := false, pfwAt := s.tim.up } }
    (s1.restart 3).raise Ev.SUP_POWER 1

def execPfwAssert (s : State) : Host.Outcome State Fault Refusal := .next (doPfwAssert s)
def execWatchmanEntry (s : State) : Host.Outcome State Fault Refusal := .next (doWatchmanEntry s)
def execWatchmanExit (s : State) : Host.Outcome State Fault Refusal := .next (doWatchmanExit s)

end Sys2Proof.Machine
end

