-- ==== Sys2Proof/Machine/Reeve.lean ====
section
/-! DEFINITION. Watching the running device (R450, R451): the Reeve's cycle, migrations, clocks and temperatures, ECC errors, and the
gating of clusters (R15–R17). -/

namespace Sys2Proof.Machine

/-! ### Clocks (R449, R450) -/

/-- Operating point of a cluster, 0 while OFF. -/
def State.point (s : State) (c : Nat) : Nat := (s.fld (A.PWR_CLUSTER c) F.PWR_CLUSTER_CLK_MHZ - 200) / 200

/-- A cluster's floor as a point. -/
def State.floorPoint (s : State) (c : Nat) : Nat := ((s.reg A.SUP_CLFLOOR).toNat / 2 ^ (8 * c) % 256 * 10 - 200) / 200

/-- A cluster changes its point; gated states stay. -/
def State.setPoint (s : State) (c p : Nat) : State :=
  if s.fld (A.PWR_CLUSTER c) F.PWR_CLUSTER_STATE = 3 then s else s.putCluster c p (s.fld (A.PWR_CLUSTER c) F.PWR_CLUSTER_STATE)

def State.raisedAt (s : State) (k : Nat) : Option Nat := tabGet none s.pwr.raised k
def State.setRaised (s : State) (k : Nat) (t : Option Nat) : State := { s with pwr := { s.pwr with raised := tabPut none s.pwr.raised k t } }
def State.throttle (s : State) (k : Nat) : Option Nat := tabGet none s.pwr.throttleAt k
def State.setThrottle (s : State) (k : Nat) (t : Option Nat) : State :=
  { s with pwr := { s.pwr with throttleAt := tabPut none s.pwr.throttleAt k t } }

/-- The clock of a cluster returns to its floor. -/
def State.clockReturn (s : State) (c : Nat) : State := (s.setRaised c none).setPoint c (s.floorPoint c)

/-- Sensors of a cluster 0–3, or of the sample domain, 4 (R456). -/
def sensorsOf (d : Nat) : List Nat :=
  match d with
  | 0 => [0, 1]
  | 1 => [2, 3]
  | 2 => [4]
  | 3 => [5]
  | _ => [6, 7]

/-- The highest sensor of a domain, 0.1 °C. -/
def State.hottest (s : State) (d : Nat) : Int :=
  (sensorsOf d).foldl (fun a k => max a (signExt 16 (s.fld (A.SUP_TEMP k) F.SUP_TEMP_TEMP))) (-32768)

/-- Throttling of a domain begins above 128 °C and ends below 125 °C. Keys of `throttleAt`: 0–3 the next lowering of a cluster, 4 the
sample domain's throttling, 8 + c a cluster's own. -/
def State.throttleDomain (s : State) (d : Nat) : State :=
  let key := if d = 4 then 4 else 8 + d
  if decide (1280 < s.hottest d) then
    let s1 := s.supFault (if d = 4 then 10 else 8) none
    if (s1.throttle key).isSome then s1 else s1.setThrottle key (some s1.tim.up)
  else if decide (s.hottest d < 1250) then s.setThrottle key none else s

/-- Clusters under throttling lower their clocks from now on; others that were return to their floor. -/
def State.throttleSync (s : State) : State :=
  s.forEach [0, 1, 2, 3] (fun c s =>
    let on := (s.throttle 4).isSome || (s.throttle (8 + c)).isSome
    match on, s.throttle c with
    | true, none => s.setThrottle c (some s.tim.up)
    | false, some _ => (s.setThrottle c none).setPoint c (s.floorPoint c)
    | _, _ => s)

/-- THERMAL_THROTTLE_STEP: one point lower every 10 ms, down to P1. -/
def doThermalThrottleStep (c : Fin 4) (s : State) : State :=
  match s.throttle c with
  | none => s
  | some t =>
    if s.tim.up < t then s
    else (s.setThrottle c (some (s.tim.up + 10000000))).setPoint c (max 1 (s.point c - 1))

/-- CLUSTER_CLOCK_RETURN: 1 s without lateness. -/
def doClusterClockReturn (c : Fin 4) (s : State) : State :=
  match s.raisedAt c with
  | none => s
  | some t => if s.tim.up < t + 1000000000 then s else s.clockReturn c

/-! ### What runs where -/

def State.bayEngineOf (s : State) (b : Nat) : Nat := s.fld (A.FLT_FRMRT b) F.FLT_FRMRT_ENGINE
/-- Bays with their engines. -/
def State.bayMap (s : State) : BayMap :=
  (((List.range 8).filter (fun b => s.bit (A.PRT_BAYCFG b) 31)).map (fun b => (b, s.bayEngineOf b))).filter (fun e => Nat.blt e.2 8)
def State.loopMap (s : State) : LoopMap := ((List.range 512).filter s.spnDecl).map (fun b => (b, s.spindleOf b))

/-- Cluster of an engine (R14). -/
def clusterOf (e : Nat) : Nat := if e < 4 then 0 else if e < 8 then 1 else if e < 16 then 2 else 3

/-- Engines of a group that may take work: healthy, not retired, and no source of correctable errors. -/
def State.targets (s : State) (lo n : Nat) : List Nat := (healthyIn s.healthyMask lo n).filter (fun i => !s.pwr.noTarget.contains (lo + i))

/-- The values in force, as placement sees them. -/
def State.declNow (s : State) (im : Image) : Decl := { (imDecl im) with v := s.reg }

/-! ### Migration (R22, R451) -/

/-- Count and show a migration from `engine`. -/
def State.migrated (s : State) (cause engine : Nat) : State :=
  let s1 : State := { s with pwr := { s.pwr with migLast := some s.tim.up } }
  let s2 := ((s1.incWrap A.SUP_MIG F.SUP_MIG_COUNT).setFld A.SUP_MIG F.SUP_MIG_CAUSE cause).setFld A.SUP_MIG F.SUP_MIG_FROM engine
  (s2.setBit A.SUP_MIG 15 false).raise Ev.SUP_MIGRATE engine

/-- A trigger finds no target: the work stays (R451). -/
def State.noTarget (s : State) (cause engine : Nat) : State :=
  ((s.setBit A.SUP_MIG 15 true).setFld A.SUP_MIG F.SUP_MIG_CAUSE cause).setFld A.SUP_MIG F.SUP_MIG_FROM engine

/-- Bays, loads and floors as they are after a bay has moved. -/
def State.replaced (s : State) (im : Image) : State :=
  let d := s.declNow im
  let m := s.bayMap
  let f0 := d.clusterFloor m 0
  let f1 := d.clusterFloor m 1
  let s1 := s.setReg A.SUP_CLFLOOR (BitVec.ofNat 32 ((s.reg A.SUP_CLFLOOR).toNat / 65536 * 65536 + pointMhz f1 / 10 * 256 + pointMhz f0 / 10))
  let s2 := s1.forEach (List.range 8) (fun e s =>
    let mask := (m.filter (fun x => x.2 == e)).foldl (fun a x => a + 2 ^ x.1) 0
    (s.setFld (A.SUP_PE e) F.SUP_PE_BAYS mask).setFld (A.SUP_PE e) F.SUP_PE_LOAD (d.loadPct m e (pointMhz (if e < 4 then f0 else f1))))
  s2.forEach [0, 1] (fun c s =>
    let work := m.any (fun x => x.2 / 4 == c)
    let floor := if c = 0 then f0 else f1
    if !work then s.setReg (A.PWR_CLUSTER c) 3
    else if s.fld (A.PWR_CLUSTER c) F.PWR_CLUSTER_STATE = 3 then s.putCluster c floor 0
    else if (s.throttle c).isNone && Nat.blt (s.point c) floor then s.setPoint c floor
    else s)

/-- Bay `b` moves to an engine of `engines`, between two frames. -/
def State.migrateBay (s : State) (im : Image) (cause b : Nat) (engines : List Nat) : State :=
  let e := s.bayEngineOf b
  let m := s.bayMap.filter (fun x => x.1 != b)
  match (s.declNow im).bayEngine (engines.filter (· != e)) m b with
  | none => s.noTarget cause e
  | some t =>
    let s1 : State := (s.setFld (A.FLT_FRMRT b) F.FLT_FRMRT_ENGINE t)
    let s2 : State := { s1 with pwr := { s1.pwr with bayMig := tabPut none s1.pwr.bayMig b (some s1.tim.up) } }
    (s2.replaced im).migrated cause e

/-- Tasks as placement sees them. -/
def State.taskPlaces (s : State) (L : LogicSection) : List TaskPlace :=
  s.hdl.entries.filterMap (fun e =>
    let h := e.1 / 32
    let t := e.1 % 32
    (L.blocks.zipIdx.find? (fun b => !b.1.callable && b.1.start == e.2.start && (b.1.heddle == 255 || (b.1.heddle == h && b.1.task == t)))).map
      (fun b => { block := b.2, h := h, t := t, cfg := s.reg (A.HDL_TCFG h t), phs := s.reg (A.HDL_TPHS h t), placed := b.1.heddle == 255 }))

/-- A task that the device placed moves from Heddle `h` to another, between two executions. -/
def State.migrateTask (s : State) (im : Image) (cause h : Nat) : State :=
  match im.logic with
  | none => s
  | some L =>
    let d := s.declNow im
    let ps := s.taskPlaces L
    match ps.find? (fun p => p.h == h && p.placed) with
    | none => if ps.any (fun p => p.h == h) then s.noTarget cause (8 + h) else s
    | some p =>
      if s.taskBusy h p.t then s
      else
        let rest := ps.filter (fun q => !(q.h == h && q.t == p.t))
        let free (g : Nat) : Option Nat := d.freeTask rest g (Nat.ble 16 p.t)
        let fits (g : Nat) : Bool := (free g).isSome &&
          (s.bit A.HDL_STAT 29 || schedulable (loadsOn L (rest ++ [{ p with h := g, t := (free g).getD 0 }]) g))
        match lightest L rest ((s.targets 8 4).filter (fun g => g != h && fits g)) with
        | none => s.noTarget cause (8 + h)
        | some g =>
          let t := (free g).getD 0
          let e := tabGet taskEntryInit s.hdl.entries (32 * h + p.t)
          let s1 : State := { s with hdl := { s.hdl with
            entries := tabPut taskEntryInit (tabPut taskEntryInit s.hdl.entries (32 * h + p.t) taskEntryInit) (32 * g + t) e } }
          let s2 := (s1.setReg (A.HDL_TCFG g t) p.cfg).setReg (A.HDL_TPHS g t) p.phs
          let s3 := (s2.setReg (A.HDL_TCFG h p.t) 0).setReg (A.HDL_TPHS h p.t) 0
          let next := tabGet none (s.heddle h).lastRel p.t
          let s4 := s3.setHeddle h { s3.heddle h with lastRel := tabPut none (s3.heddle h).lastRel p.t none }
          (s4.setHeddle g { s4.heddle g with lastRel := tabPut none (s4.heddle g).lastRel t next }).migrated cause (8 + h)

/-- A chain group moves from Spindle `p` to another, between two releases. -/
def State.migrateGroup (s : State) (im : Image) (cause p : Nat) : State :=
  let d := s.declNow im
  let m := s.loopMap
  match (d.chainGroups 512 (m.map (fun e => e.1))).find? (fun g => g.any (fun b => s.spindleOf b == p)) with
  | none => s
  | some g =>
    let rest := m.filter (fun e => !g.contains e.1)
    let takes (q : Nat) : Bool := Nat.ble ((onSpindle rest q).length + g.length) 128 &&
      decide (d.groupUtil (onSpindle rest q) + d.groupUtil g ≤ 80 / 100)
    match d.lightSpindle rest ((s.targets 12 4).filter (fun q => q != p && takes q)) with
    | none => s.noTarget cause (12 + p)
    | some q => (s.forEach g (fun b s => s.setFld (A.SPN_BSTAT b) F.SPN_BSTAT_SPINDLE q)).migrated cause (12 + p)

/-- A bay may move again 10 s after it moved. -/
def State.bayMayMove (s : State) (b : Nat) : Bool :=
  match tabGet none s.pwr.bayMig b with
  | none => true
  | some t => Nat.ble (t + 10000000000) s.tim.up

/-- The work of one engine: the first bay, task or group of it. -/
def State.migrateEngine (s : State) (im : Image) (cause e : Nat) (engines : List Nat) : State :=
  if e < 8 then
    match (s.bayMap.filter (fun x => x.2 == e && s.bayMayMove x.1)) with
    | x :: _ => s.migrateBay im cause x.1 engines
    | [] => s
  else if e < 12 then s.migrateTask im cause (e - 8)
  else if e < 16 then s.migrateGroup im cause (e - 12)
  else s.noTarget cause e

/-- One trigger is served. Work leaves a hot cluster only for one at least 10 K cooler. -/
def State.serve (s : State) (im : Image) (m : MigTrig) : State :=
  let from_ := clusterOf m.engine
  let engines := (s.targets 0 8).filter (fun e =>
    m.cause != 2 || (clusterOf e != from_ && decide (s.hottest (clusterOf e) + 100 ≤ s.hottest from_)))
  match m.bay with
  | some b => if Nat.blt b 8 && s.bayMayMove b then s.migrateBay im m.cause b engines else s
  | none => if m.cause = 2 ∧ 8 ≤ m.engine then s.noTarget 2 m.engine else s.migrateEngine im m.cause m.engine engines

/-! ### The Reeve's cycle -/

/-- Engines with work. -/
def State.busyEngines (s : State) (im : Image) : List Nat :=
  (s.bayMap.map (fun (e : Nat × Nat) => e.2) ++ ((im.logic.map (fun L => (s.taskPlaces L).map (fun (p : TaskPlace) => 8 + p.h))).getD []) ++
    s.loopMap.map (fun (e : Nat × Nat) => 12 + e.2)).eraseDups

/-- Lateness of a bay: three in 10 s raise the clock of its cluster to P4; lateness within 10 s of that, or with a hot sample domain, asks
for a migration. Keys of `raised`: 0–3 the last lateness of a raised cluster, 16 + b when bay b's cluster was raised, 32 a hot sample
domain. -/
def State.lateness (s : State) (b : Nat) : State :=
  let l := (tabGet [] s.pwr.late b).filter (fun t => Nat.ble s.tim.up (t + 10000000000))
  let c := clusterOf (s.bayEngineOf b)
  let put (s : State) (x : List Nat) : State := { s with pwr := { s.pwr with late := tabPut [] s.pwr.late b x } }
  let again := (s.raisedAt (16 + b)).any (fun t => Nat.ble s.tim.up (t + 10000000000))
  let hot := (s.raisedAt 32).isSome
  let s0 := match s.raisedAt c, l with
    | some u, t :: _ => if u < t then s.setRaised c (some t) else s
    | _, _ => s
  if again && !l.isEmpty || hot && Nat.ble 3 l.length then
    ((put s0 []).supFault 6 (some (s.bayEngineOf b))).migTrigger { cause := 4, engine := s.bayEngineOf b, bay := some b }
  else if Nat.ble 3 l.length then
    ((((put s0 []).supFault 6 (some (s.bayEngineOf b))).setRaised (16 + b) (some s.tim.up)).setRaised c (some s.tim.up)).setPoint c 4
  else put s0 l

/-- Engines with more than 8 correctable errors in 60 s give up their work until the next start. -/
def State.correctable (s : State) (e : Nat) : State :=
  let l := (tabGet [] s.pwr.corr e).filter (fun t => Nat.ble s.tim.up (t + 60000000000))
  let s1 : State := { s with pwr := { s.pwr with corr := tabPut [] s.pwr.corr e l } }
  if l.length ≤ 8 || s1.pwr.noTarget.contains e then s1
  else { s1 with pwr := { s1.pwr with noTarget := e :: s1.pwr.noTarget } }.supFault 4 (some e)

/-- Triggers that stand while their cause does: hot clusters and engines of correctable errors that still hold work. -/
def State.standing (s : State) (im : Image) : List MigTrig :=
  let busy := s.busyEngines im
  (busy.filter (fun e => decide (1180 < s.hottest (clusterOf e)))).map (fun e => { cause := 2, engine := e, bay := none }) ++
    (busy.filter (fun e => s.pwr.noTarget.contains e)).map (fun e => { cause := 5, engine := e, bay := none })

/-- The trigger served first: temperature, then slip or lateness, then the correctable error rate. -/
def firstTrig (l : List MigTrig) : Option MigTrig :=
  match l.find? (fun m => m.cause == 2), l.find? (fun m => m.cause == 3 || m.cause == 4) with
  | some m, _ => some m
  | none, some m => some m
  | none, none => l.head?

/-- The temperature rows of R450. -/
def State.heat (s : State) : State :=
  let s1 := s.forEach [0, 1, 2, 3, 4] (fun d s => s.throttleDomain d)
  let s2 := s1.forEach [0, 1, 2, 3] (fun d s => if decide (1180 < s.hottest d) then s.supFault 7 none else s)
  let s3 := if decide (1180 < s2.hottest 4) then
      let s4 := (s2.supFault 9 none).setRaised 32 (some s2.tim.up)
      s4.forEach [0, 1, 2, 3] (fun c s => if (s.raisedAt c).isSome then s.clockReturn c else s)
    else if decide (s2.hottest 4 < 1150) then s2.setRaised 32 none else s2
  (if s3.tooHot then s3.supFault 11 none else s3).throttleSync

/-- At most one migration every 100 ms. -/
def State.migrate (s : State) (im : Image) : State :=
  let early := s.pwr.migLast.any (fun t => Nat.blt s.tim.up (t + 100000000))
  if early then s
  else match firstTrig (s.standing im ++ s.pwr.trigs) with
    | none => s
    | some m =>
      let s1 : State := { s with pwr := { s.pwr with trigs := s.pwr.trigs.filter (fun x => decide (x ≠ m)) } }
      s1.serve im m

/-- REEVE_CYCLE: every 1 ms, with the sensors' temperatures and the writes outside their work of the engines (R29). It refreshes the claim
watchdog (R375). -/
def doReeveCycle (x : ReeveIn) (s : State) : State :=
  if s.pwr.reeveAt.any (fun t => Nat.blt s.tim.up (t + 1000000)) then s
  else
    let s1 : State := { s with pwr := { s.pwr with reeveAt := some s.tim.up }, ply := { s.ply with claimFed := s.tim.up } }
    let s2 := ((s1.putList (x.temps.take 8) (fun k t s => s.setFld (A.SUP_TEMP k) F.SUP_TEMP_TEMP (BitVec.ofInt 16 t).toNat)).heat).forEach x.strays
      (fun w s => s.engineWrite w.1 w.2)
    match s2.cfg.switched, s2.cfg.image with
    | some _, some im =>
      let s3 := s2.forEach (s2.pwr.trigs.filter (fun m => m.cause == 3)) (fun m s => s.supFault 5 (some m.engine))
      let s4 := (s3.forEach (List.range 8) (fun b s => s.lateness b)).forEach (List.range 24) (fun e s => s.correctable e)
      s4.migrate im
    | _, _ => s2

/-! ### ECC (R450) -/

/-- Records that hold a withdrawn block close with TRUNC. -/
def State.withdraw (s : State) (blk : Nat) : State :=
  let s1 : State := { s with cap := { s.cap with withdrawn := blk :: s.cap.withdrawn.filter (· != blk) } }
  s1.forEach (List.range 16) (fun p s =>
    s.forEach (s.capPlan p).open_ (fun e s =>
      match s.capRec e with
      | some r => if r.blocks.contains blk then s.recTrunc p e r else s
      | none => s))

/-- ECC_ERROR_DETECT. -/
def doEccErrorDetect (region : EccRegion) (engine : Fin 24) (uncorrectable : Bool) (s : State) : State :=
  let s0 := s.supCount A.SUP_ECC (if uncorrectable then F.SUP_ECC_UNCORR else F.SUP_ECC_CORR)
  let s1 : State := if uncorrectable then s0 else { s0 with pwr := { s0.pwr with corrSec := s0.pwr.corrSec + 1 } }
  let fatal (row : Nat) (e : Option Nat) (s : State) : State := (s.supFault row e).fatal
  match region, uncorrectable with
  | .engineLocal, false => { s1 with pwr := { s1.pwr with corr := tabMod [] s1.pwr.corr engine (fun l => s1.tim.up :: l) } }
  | .engineLocal, true => fatal 1 (some engine.val) (s1.setBit A.SUP_RETIRED engine true)
  | .supervisor, true => fatal 1 (some engine.val) (s1.setBit A.SUP_RETIRED engine true)
  | .capture b, true => (s1.withdraw b).supFault 2 none
  | .frame, true => fatal 3 none s1
  | .network, true => fatal 3 none s1
  | .chain, true => fatal 3 none s1
  | _, _ => s1

/-! ### Gating (R15–R17) -/

/-- No engine of a cluster has work, and no ring addressed to it holds any: of C0 and C1 frames, of C2 releases and executions, of C3
the commands of the host, results for CK, frames to send, actions of Peal that are due, records to commit and reports in the making. -/
def State.clusterIdle (s : State) (c : Nat) : Bool :=
  if c < 2 then (List.range 8).all (fun b => (s.bayChain b).ring.all (fun fr => fr.engine / 4 != c))
  else if c = 2 then s.hdl.evReq.isEmpty && s.allIdle &&
    (List.range 4).all (fun h => (s.heddle h).rels.isEmpty && !(s.heddle h).inCycle)
  else s.qEmpty 0 && s.qEmpty 3 && s.host.respWait.isEmpty && s.sec.report.isNone && s.cap.posted.isEmpty &&
    s.net.tx.all (fun q => q.2.isEmpty) && s.alm.staged.isEmpty &&
    (List.range 1024).all (fun e => !s.pealOn e || Nat.blt s.tim.now (s.pealAt e (s.pealNext e)))

/-- The releases the Reeve knows of a cluster, as times from now in ns (R15): frame closes; task, cycle and loop releases; times of Peal. -/
def State.knownReleases (s : State) (c : Nat) : List Nat :=
  if c < 2 then
    ((List.range 8).filter (fun b => s.bayEngineOf b / 4 == c && s.closesFrames b)).map (fun b =>
      (s.frameClosesAt b - (s.tim.smp : Rat)).ceil.toNat)
  else if c = 2 then
    let free := (List.range 4).filterMap (fun h =>
      if s.bit A.HDL_STAT 29 && s.logicMode == 0 then
        some (max ((s.heddle h).idleUntil.getD 0) (((s.heddle h).cycStart.map (· + 250000)).getD 0) - s.tim.now) else none)
    let tasks := (List.range 4).flatMap (fun h => (List.range 16).filterMap (fun t =>
      if s.bit (A.HDL_TCFG h t) 31 && !s.bit A.HDL_STAT 29 then (tabGet none (s.heddle h).lastRel t).map (· - s.tim.now) else none))
    free ++ tasks ++ (List.range 512).filterMap (fun b => (s.loopB b).next.map (· - s.tim.now))
  else ((List.range 1024).filter s.pealOn).map (fun e => s.pealAt e (s.pealNext e) - s.tim.now)

/-- The predicted gap exceeds 200 µs: no known release comes sooner. -/
def State.longGap (s : State) (c : Nat) : Bool := (s.knownReleases c).all (fun t => Nat.blt 200000 t)

/-- CLUSTER_GATE_ENTER: an idle cluster enters POWER_GATED where the predicted gap exceeds 200 µs, else CLOCK_GATED. -/
def doClusterGateEnter (c : Fin 4) (s : State) : State :=
  if s.fld (A.PWR_CLUSTER c) F.PWR_CLUSTER_STATE ≠ 0 || (tabGet none s.pwr.gates c).isSome || !s.clusterIdle c then s
  else { s with pwr := { s.pwr with
    gates := tabPut none s.pwr.gates c (some { target := if s.longGap c then 2 else 1, at_ := s.tim.up, wake := false }) } }

/-- CLUSTER_GATE_ENTRY_DONE: entry takes 0.1 or 2.0 µs; a wake that came too late to stop it wakes the cluster at once. -/
def doClusterGateEntryDone (c : Fin 4) (s : State) : State :=
  match tabGet none s.pwr.gates c with
  | none => s
  | some g =>
    if s.tim.up < g.at_ + (if g.target = 1 then 100 else 2000) then s
    else
      let s1 : State := { s with pwr := { s.pwr with gates := tabPut none s.pwr.gates c none } }
      let s2 := s1.setFld (A.PWR_CLUSTER c) F.PWR_CLUSTER_STATE g.target
      if g.wake then s2.wakeNow c else s2

/-- CLUSTER_WAKE: a gated cluster wakes; one that enters a gated state returns to ACTIVE, or wakes when its entry is done. -/
def doClusterWake (c : Fin 4) (s : State) : State := s.wakeFor c

/-! ### Steps as executed -/

def execReeveCycle (x : ReeveIn) (s : State) : Host.Outcome State Fault Refusal :=
  .next (s.awake (doReeveCycle x))
def execEccErrorDetect (region : EccRegion) (engine : Fin 24) (uncorrectable : Bool) (s : State) : Host.Outcome State Fault Refusal :=
  .next (s.awake (doEccErrorDetect region engine uncorrectable))
def execClusterClockReturn (c : Fin 4) (s : State) : Host.Outcome State Fault Refusal := .next (s.awake (doClusterClockReturn c))
def execThermalThrottleStep (c : Fin 4) (s : State) : Host.Outcome State Fault Refusal := .next (s.awake (doThermalThrottleStep c))
def execClusterGateEnter (c : Fin 4) (_ : Computed) (s : State) : Host.Outcome State Fault Refusal := .next (s.awake (doClusterGateEnter c))
def execClusterGateEntryDone (c : Fin 4) (s : State) : Host.Outcome State Fault Refusal := .next (s.awake (doClusterGateEntryDone c))
def execClusterWake (c : Fin 4) (s : State) : Host.Outcome State Fault Refusal := .next (s.awake (doClusterWake c))

end Sys2Proof.Machine
end

