-- ==== Sys2Proof/Machine/HostOps.lean ====
section
/-! DEFINITION. Host commands in general (R476, R483–R485): taking the next entry of a ring, the response, forwarding in a twin, and
refused host accesses (R4, R475). -/

namespace Sys2Proof.Machine

/-- What a command answers: STATUS and P0–P2. -/
structure Reply where
  status : Nat
  p0 : Word
  p1 : Word
  p2 : Word

/-- An answer of a STATUS alone, and one with an effect time. -/
def reply (status : Nat) : Reply := { status := status, p0 := 0, p1 := 0, p2 := 0 }
def replyAt (t : Nat) : Reply := { status := 0, p0 := lo32 t, p1 := hi32 t, p2 := 0 }

/-- The response entry of an answer. -/
def Reply.entry (r : Reply) (tag : BitVec 16) (opc : Nat) : RingEntry := respEntry tag.toNat r.status opc r.p0 r.p1 r.p2

/-- Unlisted bits of P0 are 0, and so is every parameter beyond the first `n` (R483, R484). -/
def listedOnly (e : HostEntry) (n : Nat) (p0mask : Nat) : Bool :=
  (n != 0 || e.p0 == 0) && (e.p0 &&& ~~~(BitVec.ofNat 32 p0mask)) == 0 && (Nat.ble 2 n || e.p1 == 0) && (Nat.ble 3 n || e.p2 == 0) && e.p3 == 0

/-- The device can take a command of a ring now: the host domain is on, the ring holds an entry, and Q01 has room (R483). -/
def State.takes (s : State) (ring : Nat) : Bool :=
  s.bit A.PWR_DOMAIN_STAT 3 && !s.qEmpty ring && !s.qFull 1 && s.host.respWait.isEmpty

/-- No image is in use: only ECHO, ATTEST and RESTART are permitted (R430, R485). -/
def State.noImage (s : State) : Bool := let st := s.fld A.CFG_STAT F.CFG_STAT_STATE; st == 2 || st == 3

/-- Take the entry at HEAD of a ring and answer it. `listed` tells that every reserved field and unlisted parameter is 0; `free` marks a
command that needs no image; `f` answers none where the response comes later. -/
def State.command (s : State) (ring opc : Nat) (free listed : Bool) (e : HostEntry) (f : State → Option Reply × State) : State :=
  if !s.takes ring then s
  else
    let s1 := (s.qTake ring).wakeFor 3
    if !e.resvZero || !listed then s1.respond ((reply 1).entry e.tag opc)
    else if !free && s1.noImage then s1.respond ((reply 5).entry e.tag opc)
    else match f s1 with
      | (some r, s2) => s2.respond (r.entry e.tag opc)
      | (none, s2) => s2

/-- A command whose answer is known at once. -/
def State.answer (s : State) (ring opc : Nat) (free listed : Bool) (e : HostEntry) (f : State → Reply × State) : State :=
  s.command ring opc free listed e (fun s => let (r, s1) := f s; (some r, s1))

/-! ### Commands that change shared state (R379, R380, R485) -/

/-- Where a shared command acts: here, by forwarding to the actor, or nowhere. -/
inductive SharedWay where
  | here
  | forward
  | nowhere
  deriving DecidableEq, Repr

/-- SIMPLEX, ACTOR and an isolated follower act themselves; a follower with the link up forwards; every other ply refuses. -/
def State.sharedWay (s : State) : SharedWay :=
  if s.role = 0 ∨ s.role = 1 ∨ (s.role = 2 ∧ s.bit A.PLY_STAT 23 = true) then .here
  else if s.role = 2 ∧ s.linkUp = true then .forward else .nowhere

/-- The actor's answer to a forwarded command: its STATUS and effect time are the actor's, so free here. -/
def State.actorReply (s : State) : Reply × State :=
  let (k, s1) := s.nextFree
  let (i, s2) := s1.nextFree
  let (j, s3) := s2.nextFree
  let (m, s4) := s3.nextFree
  let st := [0, 2, 3, 5].getD (Config.freeNat k % 4) 0
  if st = 0 then ({ status := 0, p0 := Config.freeWord i, p1 := Config.freeWord j, p2 := Config.freeWord m }, s4) else (reply st, s4)

/-- A shared command: `f` acts here. -/
def State.shared (s : State) (opc : Nat) (listed : Bool) (e : HostEntry) (f : State → Reply × State) : State :=
  s.answer 0 opc false listed e (fun s =>
    match s.sharedWay with
    | .here => f s
    | .forward => (s.plySend (.command (BitVec.ofNat 8 opc) e 0)).actorReply
    | .nowhere => (reply 5, s))

/-- A logic action accepted here: scheduled at T_apply, and in a twin sent to the peer with it (R264). -/
def State.acceptAct (s : State) (opc : Nat) (e : HostEntry) (a : LogicAct) : Reply × State :=
  let t := s.tApply
  let s1 := s.atApply a
  (replyAt t, if s.role = 1 then s1.plySend (.command (BitVec.ofNat 8 opc) e t) else s1)

/-! ### Refused host accesses (R4, R475) -/

/-- HST_BADADDR names the access, HST_BAD_ACCESS is raised, HST_CNT.BAD counts; its first saturation is a fault (R491). -/
def State.badAccess (s : State) (bar2 write : Bool) (off : Nat) : State :=
  let w := bar2.toNat * 2 ^ 31 + write.toNat * 2 ^ 30 + off % 2 ^ 30
  (((s.setReg A.HST_BADADDR (BitVec.ofNat 32 w)).supCount A.HST_CNT F.HST_CNT_BAD)).raise Ev.HST_BAD_ACCESS w

end Sys2Proof.Machine
end

