-- ==== Sys2Proof/Machine/Security.lean ====
section
/-! DEFINITION. Security and identity (R461–R469), with telemetry (R482): tokens, owner slots, debug, attestation reports. -/

namespace Sys2Proof.Machine

/-! ### Tokens (R461, R462) -/

/-- Octet `i` of a digest. -/
def hashOctet (h : BitVec 384) (i : Nat) : Byte := BitVec.ofNat 8 (h.toNat / 2 ^ (8 * (47 - i)))

/-- A write to OTP sets bits and clears none (R459). -/
def State.otpSet (s : State) (o n : Nat) (f : Nat → Byte) : State :=
  s.forEach (List.range n) (fun i s => s.setOctet (otpBase + o + i) (s.octet (otpBase + o + i) ||| f i))

/-- Written and not revoked. -/
def State.slotSigns (s : State) (k : Nat) : Bool := Nat.ble k 3 && s.slotWritten k && !s.slotRevoked k

/-- No owner slot is written. -/
def State.noOwner (s : State) : Bool := (List.range 4).all (fun k => !s.slotWritten k)

/-- SEC_LASTERR's cause of a token that must have type `ty`, 0 where it verifies. `own`: signed with the keys it carries. -/
def State.tokenCause (s : State) (ty : Nat) (own : Bool) (tk : Token) : Nat :=
  if !tk.formatOk || tk.type != ty then 1
  else if !(if own then tk.signSlot == 0 else s.slotSigns tk.signSlot) then 2
  else sigCause tk.sig

/-- A refused token: counted, shown and raised. A rule of R464 or R466 answers 3, every other cause 6. -/
def State.refuseToken (s : State) (ty cause : Nat) (tk : Token) : Reply × State :=
  (reply (if cause = 6 then 3 else 6),
    s.refuseObject (if tk.formatOk then tk.type else ty) cause)

/-- A token command: `check` gives the cause of its own rules once the token verifies, `act` its effect. -/
def State.tokenCommand (s : State) (opc ty : Nat) (own : State → Bool) (e : HostEntry) (tk : Token) (check : State → Nat)
    (act : State → State) : State :=
  s.answer 3 opc false (listedOnly e 0 0) e (fun s =>
    let c := s.tokenCause ty (own s) tk
    let c1 := if c = 0 then check s else c
    if c1 = 0 then (reply 0, act s) else s.refuseToken ty c1 tk)

/-! ### Owner slots (R464) -/

/-- The target slot is blank. -/
def State.slotBlank (s : State) (k : Nat) : Bool := Nat.ble k 3 && s.otp (slotAt k) 100 == 0

/-- OWNER_WRITE: hashes first, the status word last. -/
def doOwnerWrite (e : HostEntry) (tk : Token) (s : State) : State :=
  s.tokenCommand 0x81 3 State.noOwner e tk
    (fun s => if s.noOwner then (if tk.target = 0 ∧ s.slotBlank 0 = true then 0 else 6) else if s.slotBlank tk.target then 0 else 6)
    (fun s =>
      let o := slotAt tk.target
      let s1 := (s.otpSet o 48 (hashOctet tk.rsaHash)).otpSet (o + 48) 48 (hashOctet tk.slhHash)
      ((s1.otpSet (o + 96) 1 (fun _ => 1)).secSync).raise Ev.SEC_OWNER tk.target)

/-- OWNER_REVOKE. -/
def doOwnerRevoke (e : HostEntry) (tk : Token) (s : State) : State :=
  s.tokenCommand 0x82 4 (fun _ => false) e tk
    (fun s => if tk.target ≤ 3 ∧ tk.signSlot ≠ tk.target ∧ ((List.range 4).any (fun k => k != tk.target && s.slotSigns k)) = true then 0 else 6)
    (fun s => ((s.otpSet (slotAt tk.target + 96) 1 (fun _ => 2)).secSync).raise Ev.SEC_OWNER tk.target)

/-! ### Debug (R466) -/

/-- The challenge as its 16 octets. -/
def State.challengeIs (s : State) (c : BitVec 128) : Bool :=
  (List.range 4).all (fun w =>
    let o (i : Nat) : Nat := c.toNat / 2 ^ (8 * (15 - (4 * w + i))) % 256
    s.reg (A.SEC_DBG_CHAL w) == BitVec.ofNat 32 (o 0 + o 1 * 256 + o 2 * 65536 + o 3 * 2 ^ 24))

/-- DEBUG_UNLOCK: the challenge changes after every submission. -/
def doDebugUnlock (e : HostEntry) (tk : Token) (s : State) : State :=
  s.answer 3 0x83 false (listedOnly e 0 0) e (fun s =>
    let c := s.tokenCause 2 false tk
    let c1 := if c ≠ 0 then c
      else if tk.identity ≠ s.ownDigest ∨ s.challengeIs tk.challenge = false then 5
      else if s.bit A.SEC_STAT 30 = true ∨ s.role = 1 then 6 else 0
    let (r, s1) := if c1 = 0 then (reply 0, (s.setBit A.SEC_STAT 31 true).raise Ev.SEC_DEBUG 0) else s.refuseToken 2 c1 tk
    (r, s1.newChallenge))

/-- DEBUG_BAN sets NOUNLOCK for good. -/
def doDebugBan (e : HostEntry) (tk : Token) (s : State) : State :=
  s.tokenCommand 0x84 5 (fun _ => false) e tk
    (fun s => if tk.identity = s.ownDigest then 0 else 5)
    (fun s => ((s.otpSet 0x2A0 1 (fun _ => 2)).secSync).raise Ev.SEC_DEBUG 1)

/-! ### Attestation (R454, R465, R482) -/

/-- SC begins a report. -/
def State.startReport (s : State) (nonce : BitVec 256) (host : Bool) : State :=
  let s1 : State := { s with sec := { s.sec with report := some (nonce, (s.tim.up, host)) } }
  s1.setBit A.SEC_STAT 12 true

/-- ATTEST: refused while a report is being made, 4 without more where Q07 is full. -/
def doAttest (e : HostEntry) (nonce : BitVec 256) (s : State) : State :=
  s.answer 3 0x80 true (listedOnly e 0 0) e (fun s =>
    if s.sec.report.isSome then
      (reply 4, (s.incSatQuiet A.SEC_CNT F.SEC_CNT_REFUSED).raise Ev.SEC_VERIFY_FAIL (s.reg A.SEC_LASTERR).toNat)
    else if s.qFull 7 then (reply 4, s)
    else (reply 0, s.startReport nonce true))

/-- ATTEST_REFRESH: every 3,600 s; one that falls due during a report waits for its end. -/
def doAttestRefresh (s : State) : State :=
  let t := s.pwr.attestAt.getD s.tim.upStart + 3600000000000
  if s.tim.up < t then s
  else
    let s1 : State := { s with pwr := { s.pwr with attestAt := some t } }
    if s1.sec.report.isSome then { s1 with sec := { s1.sec with refreshDue := true } } else s1.startReport 0 false

/-- A Q07 entry of `len` octets in its buffer. -/
def q07Entry (len : Nat) (body : List Word) : RingEntry :=
  { tag := 0, status := 0, typ := 7, len := len, p0 := 0, p1 := 0, p2 := 0, p3 := 0, body := body }

/-- Octets of a report with its signature block, and of the identity certificate (R459, R463, R465). -/
def reportLen : Nat := 8948
def certLen : Nat := 9104

/-- An entry goes to Q07; a report is counted and raised (R469). -/
def State.q07Put (s : State) (e : RingEntry) : State :=
  let s1 := s.qPost 7 e
  if e.len = reportLen then (s1.incWrap A.SEC_CNT F.SEC_CNT_REPORTS).raise Ev.SEC_ATTEST noIndex else s1

/-- Post to Q07, or wait until the host frees an entry. -/
def State.q07Post (s : State) (e : RingEntry) : State :=
  if s.qFull 7 || !s.host.q07Wait.isEmpty then { s with host := { s.host with q07Wait := s.host.q07Wait ++ [e] } } else s.q07Put e

/-- Entries that wait for Q07, as far as there is room. -/
def State.q07Drain (s : State) : Nat → State
  | 0 => s
  | n + 1 =>
    match s.host.q07Wait with
    | e :: l => if s.qFull 7 then s else State.q07Drain (State.q07Put { s with host := { s.host with q07Wait := l } } e) n
    | [] => s

/-- Words of a digest. -/
def hashWords (h : BitVec 384) : List Word := (List.range 12).map (hashWord h)

/-- Word `w` of the nonce, octets in order. -/
def nonceWord (n : BitVec 256) (w : Nat) : Word :=
  let o (i : Nat) : Nat := n.toNat / 2 ^ (8 * (31 - (4 * w + i))) % 256
  BitVec.ofNat 32 (o 0 + o 1 * 256 + o 2 * 65536 + o 3 * 2 ^ 24)

/-- The 72 words of a report's body. Its signature block is not held: it depends on the private keys. -/
def State.reportBody (s : State) (nonce : BitVec 256) : List Word :=
  let fwHash := (s.sec.fw.map (·.hash)).getD 0
  let imHash := (s.cfg.image.map (·.hash)).getD 0
  let state := s.fld A.CFG_OVL F.CFG_OVL_INFORCE + s.role * 2 ^ 8 + (s.reg A.SEC_STAT).toNat / 2 ^ 29 * 2 ^ 16 +
    s.fld A.SUP_RSTCAUSE F.SUP_RSTCAUSE_CAUSE * 2 ^ 24
  [0x54415642, 1 + 288 * 65536] ++ (List.range 8).map (nonceWord nonce) ++
    [lo32 s.tim.now, hi32 s.tim.now, s.reg A.ALM_OPSEC, s.reg A.ALM_PWRCYC] ++ hashWords s.ownDigest ++
    hashWords fwHash ++ [s.reg A.SEC_FWVER] ++ hashWords imHash ++ [s.reg A.CFG_SERIAL, BitVec.ofNat 32 state,
      s.reg A.PLY_YARN, BitVec.ofNat 32 (s.fld A.PLY_CFG F.PLY_CFG_POLICY)] ++ hashWords s.ply.lastPeer ++
    [s.reg A.SUP_ECC, s.reg A.ALM_CNT, s.reg A.PLY_CNT_C, s.reg A.CAP_CNT, BitVec.ofNat 32 (s.fld A.HDL_STAT F.HDL_STAT_FCOUNT)]

/-- The identity certificate as OTP holds it. -/
def State.certBody (s : State) : List Word := (List.range 2276).map (fun i => BitVec.ofNat 32 (s.otp (0x1000 + 4 * i) 4))

/-- ATTEST_REPORT_DONE: the certificate before the first report of a start, then the report; a refresh that waited begins. -/
def doAttestReportDone (s : State) : State :=
  match s.sec.report with
  | none => s
  | some (nonce, _) =>
    let s1 := if s.sec.cert then s else
      let s0 : State := { s with sec := { s.sec with cert := true } }
      s0.q07Post (q07Entry certLen s.certBody)
    let s2 := s1.q07Post (q07Entry reportLen (s.reportBody nonce))
    let again := s2.sec.refreshDue
    let s3 : State := { s2 with sec := { s2.sec with report := none, refreshDue := false } }
    let s4 := s3.setBit A.SEC_STAT 12 false
    if again then s4.startReport 0 false else s4

/-! ### Telemetry (R482) -/

/-- FP32 of a quotient. -/
def fpOfRatio (num : Int) (den : Nat) : Word := if num = 0 then fpZero false else fpRound (decide (num < 0)) num.natAbs den

/-- TELEMETRY_POST. The measured loads are not stated: free. -/
def doTelemetryPost (s : State) : State :=
  let t := s.pwr.telemAt.getD s.tim.upStart + 1000000000
  if s.tim.up < t then s
  else
    let temps := (List.range 8).map (fun k => fpOfRatio (signExt 16 (s.fld (A.SUP_TEMP k) F.SUP_TEMP_TEMP)) 10)
    let volts := (List.range 4).map (fun c => fpOfRatio (s.fld (A.PWR_CLUSTER c) F.PWR_CLUSTER_VDD_MV : Int) 1000)
    let loads := (List.range 4).map (fun c => Config.freeWord (s.freeSeq + c))
    let body := temps ++ volts ++ loads ++ [BitVec.ofNat 32 s.pwr.corrSec, lo32 s.tim.now, hi32 s.tim.now, 0]
    let s1 : State := { s with freeSeq := s.freeSeq + 4, pwr := { s.pwr with telemAt := some t, corrSec := 0, telem := body.take 17 } }
    s1.postOrDrop 6 { tag := 0, status := 0, typ := 6, len := 80, p0 := 0, p1 := 0, p2 := 0, p3 := 0, body := body }

/-! ### Steps as executed -/

def execTelemetryPost (s : State) : Host.Outcome State Fault Refusal := .next (s.awake doTelemetryPost)
def execAttestRefresh (s : State) : Host.Outcome State Fault Refusal := .next (s.awake doAttestRefresh)
def execAttestReportDone (s : State) : Host.Outcome State Fault Refusal := .next (s.awake doAttestReportDone)
def execAttest (e : HostEntry) (nonce : BitVec 256) (s : State) : Host.Outcome State Fault Refusal := .next (s.awake (doAttest e nonce))
def execOwnerWrite (e : HostEntry) (tk : Token) (s : State) : Host.Outcome State Fault Refusal := .next (s.awake (doOwnerWrite e tk))
def execOwnerRevoke (e : HostEntry) (tk : Token) (s : State) : Host.Outcome State Fault Refusal := .next (s.awake (doOwnerRevoke e tk))
def execDebugUnlock (e : HostEntry) (tk : Token) (s : State) : Host.Outcome State Fault Refusal := .next (s.awake (doDebugUnlock e tk))
def execDebugBan (e : HostEntry) (tk : Token) (s : State) : Host.Outcome State Fault Refusal := .next (s.awake (doDebugBan e tk))

end Sys2Proof.Machine
end

