-- ==== Sys2Proof/Machine/HostCmds.lean ====
section
/-! DEFINITION. The command set of Q00 (R484, R485), and what reaches a ply of a twin from its peer's host commands (R379, R380). -/

namespace Sys2Proof.Machine

/-- A bit field of a parameter word. -/
def par (w : Word) (hi lo : Nat) : Nat := w.toNat / 2 ^ lo % 2 ^ (hi + 1 - lo)

/-! ### Conversions, trackers, captures -/

/-- ECHO. -/
def doEcho (e : HostEntry) (s : State) : State :=
  s.answer 0 0x01 true (e.p3 == 0) e (fun s => ({ status := 0, p0 := e.p0, p1 := e.p1, p2 := e.p2 }, s))

/-- URGENT_CONVERT: an accepted one is answered with its result (R53). -/
def doUrgentConvert (e : HostEntry) (s : State) : State :=
  s.command 0 0x10 false (listedOnly e 1 0x1F7F03) e (fun s =>
    let u : Urgent := { src := 2, pos := par e.p0 14 8, gain := par e.p0 1 0, came := 0, slot := 0, tag := e.tag.toNat, heddle := 0 }
    match s.urgentRequest u (par e.p0 20 16) with
    | (.accepted, s1) => (none, s1)
    | (.dropped, s1) => (some (reply 4), s1)
    | (.refused, s1) => (some (reply 2), s1))

/-- TRACKER_RESET. -/
def doTrackerReset (e : HostEntry) (s : State) : State :=
  s.answer 0 0x11 false (listedOnly e 1 0xFFFFFFFF) e (fun s =>
    if 127 < e.p0.toNat then (reply 2, s) else (reply 0, s.trackerReset e.p0.toNat))

/-- CAPTURE_TRIGGER. -/
def doCaptureTrigger (e : HostEntry) (s : State) : State :=
  s.answer 0 0x21 false (listedOnly e 1 0xFFFFFFFF) e (fun s =>
    if 15 < e.p0.toNat then (reply 2, s)
    else if !s.bit (A.CAP_PLAN_CFG e.p0.toNat) 31 then (reply 3, s)
    else (reply 0, s.captureTrigger e.p0.toNat s.tim.now { kind := 2, index := 0 }))

/-- The directory entry of a record held by its number. -/
def State.heldRec (s : State) (n : Word) : Option Nat := s.cap.order.find? (fun e => Nat.blt e 64 && s.reg (A.CAP_DIR_REC e) == n)

/-- A command on a record held: `ok` tells which STATE permits it, `f` what it does. -/
def State.recordCommand (s : State) (opc : Nat) (e : HostEntry) (ok : State → Nat → Bool) (f : Nat → State → State) : State :=
  s.answer 0 opc false (listedOnly e 1 0xFFFFFFFF) e (fun s =>
    match s.heldRec e.p0 with
    | some d => if ok s d then (reply 0, f d s) else (reply 3, s)
    | none => (reply 3, s))

/-- CAPTURE_ACK: a closed record becomes acknowledged. -/
def doCaptureAck (e : HostEntry) (s : State) : State :=
  s.recordCommand 0x22 e (fun s d => Nat.ble 2 (s.capState d)) (fun d s => s.setFld (A.CAP_DIR_INFO d) F.CAP_DIR_INFO_STATE 3)

/-- CAPTURE_LOCK. -/
def doCaptureLock (e : HostEntry) (s : State) : State :=
  s.recordCommand 0x23 e (fun _ _ => true) (fun d s => s.setBit (A.CAP_DIR_INFO d) 29 true)

/-- CAPTURE_UNLOCK. -/
def doCaptureUnlock (e : HostEntry) (s : State) : State :=
  s.recordCommand 0x24 e (fun _ _ => true) (fun d s => s.setBit (A.CAP_DIR_INFO d) 29 false)

/-! ### TRIP_RESET (R140, R380) -/

/-- The reset on this ply; the actor ships it, and the peer's own outcome is not seen here: free. -/
def State.hostTripReset (s : State) (c : Nat) : Reply × State :=
  if !s.bit (A.PRT_TCH_CFG c) 29 then (reply 3, s)
  else
    let (refused, s1) := s.channelReset c
    if s1.role = 1 && s1.linkUp && !s1.ply.lost && s1.peerRole == 2 then
      let (k, s2) := (s1.plySend (.tripReset c)).nextFree
      (reply (if refused || Config.freeBool k then 3 else 0), s2)
    else (reply (if refused then 3 else 0), s1)

/-- Before ACQ_REEL_SWITCH a latched channel cannot be reset (R521). -/
def State.earlyTripReset (s : State) (c : Nat) : Reply :=
  reply (if s.bit A.PRT_TCH_STATE c && s.channelLatched c then 3 else 0)

/-- TRIP_RESET. -/
def doTripReset (e : HostEntry) (s : State) : State :=
  let c := e.p0.toNat
  if s.role = 7 then
    s.answer 0 0x20 false (listedOnly e 1 0xFFFFFFFF) e (fun s => if 31 < c then (reply 2, s) else (s.earlyTripReset c, s))
  else s.shared 0x20 (listedOnly e 1 0xFFFFFFFF) e (fun s => if 31 < c then (reply 2, s) else s.hostTripReset c)

/-! ### Forces and online changes (R256, R257, R264) -/

/-- The element a force names lies in its area, aligned, and the value fits it. -/
def forceParOk (area size addr : Nat) (v : Word) : Bool :=
  let span := if area = 1 then 49152 else 24576
  (area == 1 || area == 2) &&
    (if size = 0 then Nat.blt addr (8 * span) else Nat.ble (addr + 2 ^ (size - 1)) span && addr % 2 ^ (size - 1) == 0) &&
    Nat.blt v.toNat (2 ^ (if size = 0 then 1 else 8 * 2 ^ (size - 1)))

/-- First bit and bits of a force element. -/
def forceSpan (size addr : Nat) : Nat × Nat := if size = 0 then (addr, 1) else (8 * addr, 8 * 2 ^ (size - 1))

/-- Octets of a force element outside the reserved ranges. -/
def forceKnown (area size addr : Nat) : Bool :=
  let b := forceSpan size addr
  (List.range ((b.2 + 7) / 8)).all (fun i => if area = 1 then iKnown (b.1 / 8 + i) else qKnown (b.1 / 8 + i))

/-- Forces accepted and waiting for T_apply: entry, area, first bit and bits. -/
def State.pendingForces (s : State) : List (Nat × (Nat × (Nat × Nat))) :=
  s.hdl.acts.filterMap (fun a => match a.2 with
    | .force k area size addr _ => some (k, (area, forceSpan size addr))
    | _ => none)

/-- Two spans share a bit. -/
def spansMeet (a b : Nat × Nat) : Bool := Nat.blt a.1 (b.1 + b.2) && Nat.blt b.1 (a.1 + a.2)

/-- Overlap with an active entry or with one that waits for T_apply. -/
def State.forceTaken (s : State) (area size addr : Nat) : Bool :=
  let b := forceSpan size addr
  (s.forces area).any (fun k => spansMeet b (forceBits (s.reg (A.HDL_FRC_CFG k)))) ||
    s.pendingForces.any (fun p => p.2.1 == area && spansMeet b p.2.2)

/-- The lowest free entry. -/
def State.forceFree (s : State) : Option Nat :=
  (List.range 256).find? (fun k => !s.bit (A.HDL_FRC_CFG k) 31 && !s.pendingForces.any (fun p => p.1 == k))

/-- FORCE_SET here. -/
def State.hostForce (s : State) (e : HostEntry) : Reply × State :=
  let area := par e.p0 30 28
  let size := par e.p0 27 26
  let addr := par e.p0 23 0
  if !forceParOk area size addr e.p1 then (reply 2, s)
  else if !forceKnown area size addr || s.forceTaken area size addr ||
      (area == 2 && Nat.blt (forceSpan size addr).1 (8 * 0x204) && !s.commOn) then (reply 3, s)
  else match s.forceFree with
    | none => (reply 3, s)
    | some k =>
      let (r, s1) := s.acceptAct 0x30 e (.force k area size addr e.p1)
      ({ r with p2 := BitVec.ofNat 32 k }, s1)

/-- FORCE_SET. -/
def doForceSet (e : HostEntry) (s : State) : State := s.shared 0x30 (listedOnly e 2 0x7CFFFFFF) e (fun s => s.hostForce e)

/-- FORCE_CLEAR. -/
def doForceClear (e : HostEntry) (s : State) : State :=
  s.shared 0x31 (listedOnly e 1 0xFFFFFFFF) e (fun s =>
    if 255 < e.p0.toNat then (reply 2, s) else s.acceptAct 0x31 e (.unforce e.p0.toNat))

/-- FORCE_CLEAR_ALL. -/
def doForceClearAll (e : HostEntry) (s : State) : State := s.shared 0x32 (listedOnly e 0 0) e (fun s => s.acceptAct 0x32 e .unforceAll)

/-- A value within a tunable's limits, as FP32 or as a signed number. -/
def tunableTakes (t : Tunable) (v : Word) : Bool :=
  if t.fp32 then !fpIsNan v && decide (fpCompare (fpDecode t.min) (fpDecode v) ≤ 0) && decide (fpCompare (fpDecode v) (fpDecode t.max) ≤ 0)
  else decide (t.min.toInt ≤ v.toInt) && decide (v.toInt ≤ t.max.toInt)

/-- Online changes waiting for T_apply. -/
def State.pendingOnline (s : State) : Nat :=
  (s.hdl.acts.filter (fun a => match a.2 with
    | .online _ _ => true
    | _ => false)).length

/-- ONLINE_SET here; a refusal is counted and raised (R264, R267). -/
def State.hostOnline (s : State) (e : HostEntry) : Reply × State :=
  let i := e.p0.toNat
  let ok := match s.hdl.tunables[i]? with
    | some t => tunableTakes t e.p1 && Nat.blt s.pendingOnline 16
    | none => false
  if ok then s.acceptAct 0x38 e (.online i e.p1)
  else (reply 3, (s.incSat A.HDL_OLC_CNT F.HDL_OLC_CNT_REFUSED Ev.HDL_CNT_SAT noIndex).raise Ev.HDL_ONLINE_REFUSED i)

/-- ONLINE_SET. -/
def doOnlineSet (e : HostEntry) (s : State) : State := s.shared 0x38 (listedOnly e 2 0xFFFFFFFF) e (fun s => s.hostOnline e)

/-! ### Logic modes (R259–R261) -/

/-- LOGIC_RUN and LOGIC_STOP. -/
def doLogicRun (e : HostEntry) (s : State) : State := s.shared 0x40 (listedOnly e 0 0) e (fun s => s.acceptAct 0x40 e .run)
def doLogicStop (e : HostEntry) (s : State) : State := s.shared 0x41 (listedOnly e 0 0) e (fun s => s.acceptAct 0x41 e .stop)

/-- LOGIC_HOLD arms a breakpoint; it is refused while a bay is armed without the commissioning overlay, and on an ACTOR. -/
def doLogicHold (e : HostEntry) (s : State) : State :=
  s.answer 0 0x42 false (listedOnly e 1 0xFFFFFFFF) e (fun s =>
    if s.logicMode = 3 then (reply 5, s)
    else if 0xFFFF < e.p0.toNat then (reply 2, s)
    else if (s.fld A.PRT_STAT F.PRT_STAT_ARMED ≠ 0 ∧ s.commOn = false) ∨ s.role = 1 then (reply 3, s.raise Ev.HDL_HOLD_REFUSED noIndex)
    else
      let s1 : State := { s with hdl := { s.hdl with brk := some e.p0.toNat } }
      (reply 0, s1.forEach (List.range 4) (fun h s => s.breakCheck h)))

/-- LOGIC_STEP: one instruction of the Heddle that holds the breakpoint. -/
def doLogicStep (e : HostEntry) (s : State) : State :=
  s.answer 0 0x43 false (listedOnly e 0 0) e (fun s =>
    let h := (s.reg A.HDL_BRK).toNat / 2 ^ 28 % 4
    if s.logicMode ≠ 2 ∨ (s.heddle h).run.isNone = true then (reply 5, s) else (reply 0, s.logicStepOne h))

/-! ### Overlays, roles, restart -/

/-- OVERLAY_SET here. -/
def State.hostOverlay (s : State) (k : Nat) : Reply × State :=
  let t := s.tApply
  match s.ovlRequest k 2 0 with
  | (true, s1) => (reply 3, s1)
  | (false, s1) => (replyAt t, s1)

/-- OVERLAY_SET. -/
def doOverlaySet (e : HostEntry) (s : State) : State :=
  s.shared 0x50 (listedOnly e 1 0xFFFFFFFF) e (fun s => if 8 < e.p0.toNat then (reply 2, s) else s.hostOverlay e.p0.toNat)

/-- PLY_YIELD: a FOLLOWER peer that the link shows is ready to take over (R371, R385). -/
def doPlyYield (e : HostEntry) (s : State) : State :=
  s.answer 0 0x60 false (listedOnly e 0 0) e (fun s =>
    if s.role = 1 ∧ s.linkUp = true ∧ s.ply.lost = false ∧ s.peerRole = 2 then (reply 0, s.stopClaim) else (reply 5, s))

/-- RESTART: the reset follows 1 ms after the answer. -/
def doRestart (e : HostEntry) (s : State) : State :=
  s.answer 0 0x70 true (listedOnly e 1 3) e (fun s => (reply 0, { s with host := { s.host with restartAt := some (s.tim.up, e.p0) } }))

/-! ### From the peer (R379, R380) -/

/-- What the actor does with a forwarded command; none for an opcode that is not forwarded. -/
def State.forwarded (s : State) (opc : Nat) (e : HostEntry) : Option (Reply × State) :=
  match opc with
  | 0x20 => some (if 31 < e.p0.toNat then (reply 2, s) else s.hostTripReset e.p0.toNat)
  | 0x30 => some (s.hostForce e)
  | 0x31 => some (if 255 < e.p0.toNat then (reply 2, s) else s.acceptAct 0x31 e (.unforce e.p0.toNat))
  | 0x32 => some (s.acceptAct 0x32 e .unforceAll)
  | 0x38 => some (s.hostOnline e)
  | 0x40 => some (s.acceptAct 0x40 e .run)
  | 0x41 => some (s.acceptAct 0x41 e .stop)
  | 0x50 => some (if 8 < e.p0.toNat then (reply 2, s) else s.hostOverlay e.p0.toNat)
  | _ => none

/-- The action of a command that the actor accepted, on the follower. -/
def State.actOf (s : State) (opc : Nat) (e : HostEntry) : Option LogicAct :=
  match opc with
  | 0x30 => s.forceFree.map (fun k => .force k (par e.p0 30 28) (par e.p0 27 26) (par e.p0 23 0) e.p1)
  | 0x31 => some (.unforce e.p0.toNat)
  | 0x32 => some .unforceAll
  | 0x38 => some (.online e.p0.toNat e.p1)
  | 0x40 => some .run
  | 0x41 => some .stop
  | _ => none

/-- FORWARDED_COMMAND_RECEIVE: the actor carries out what the follower forwarded and answers it; a follower takes over what the actor
accepted, with its T_apply `t`. -/
def doForwardedCommandReceive (opc : Byte) (e : HostEntry) (t : Nat) (s : State) : State :=
  if !s.linkUp then s
  else if s.role = 1 then
    match s.forwarded opc.toNat e with
    | some (r, s1) => s1.plySend (.response (r.entry e.tag opc.toNat))
    | none => s
  else if s.role = 2 ∧ s.isol = false then
    match s.actOf opc.toNat e with
    | some a => { s with hdl := { s.hdl with acts := s.hdl.acts ++ [(t, a)] } }
    | none => s
  else s

/-- PEER_OVERLAY_RECEIVE: the follower applies it at the same boundary. -/
def doPeerOverlayReceive (k src t : Nat) (s : State) : State :=
  if s.linkUp && s.role == 2 && !s.isol && s.ovlUsable k then
    let kept := s.cfg.acts.filter (fun a => a.src == 3)
    { s with cfg := { s.cfg with acts := ovlInsert { k := k, t := t, src := src } kept } }.ovlSync
  else s

/-- PEER_TRIP_RESET_RECEIVE: judged against this ply's own sources; a refusal is shipped. -/
def doPeerTripResetReceive (c : Nat) (s : State) : State :=
  if s.linkUp && s.role == 2 && !s.isol then
    let (refused, s1) := s.channelReset c
    if refused then s1.plySend (.tripResetRefused c) else s1
  else s

/-! ### Steps as executed -/

def execEcho (e : HostEntry) (s : State) : Host.Outcome State Fault Refusal := .next (s.awake (doEcho e))
def execUrgentConvert (e : HostEntry) (s : State) : Host.Outcome State Fault Refusal := .next (s.awake (doUrgentConvert e))
def execTrackerReset (e : HostEntry) (s : State) : Host.Outcome State Fault Refusal := .next (s.awake (doTrackerReset e))
def execTripReset (e : HostEntry) (s : State) : Host.Outcome State Fault Refusal := .next (s.awake (doTripReset e))
def execCaptureTrigger (e : HostEntry) (s : State) : Host.Outcome State Fault Refusal := .next (s.awake (doCaptureTrigger e))
def execCaptureAck (e : HostEntry) (s : State) : Host.Outcome State Fault Refusal := .next (s.awake (doCaptureAck e))
def execCaptureLock (e : HostEntry) (s : State) : Host.Outcome State Fault Refusal := .next (s.awake (doCaptureLock e))
def execCaptureUnlock (e : HostEntry) (s : State) : Host.Outcome State Fault Refusal := .next (s.awake (doCaptureUnlock e))
def execForceSet (e : HostEntry) (s : State) : Host.Outcome State Fault Refusal := .next (s.awake (doForceSet e))
def execForceClear (e : HostEntry) (s : State) : Host.Outcome State Fault Refusal := .next (s.awake (doForceClear e))
def execForceClearAll (e : HostEntry) (s : State) : Host.Outcome State Fault Refusal := .next (s.awake (doForceClearAll e))
def execOnlineSet (e : HostEntry) (s : State) : Host.Outcome State Fault Refusal := .next (s.awake (doOnlineSet e))
def execLogicRun (e : HostEntry) (s : State) : Host.Outcome State Fault Refusal := .next (s.awake (doLogicRun e))
def execLogicStop (e : HostEntry) (s : State) : Host.Outcome State Fault Refusal := .next (s.awake (doLogicStop e))
def execLogicHold (e : HostEntry) (s : State) : Host.Outcome State Fault Refusal := .next (s.awake (doLogicHold e))
def execLogicStep (e : HostEntry) (s : State) : Host.Outcome State Fault Refusal := .next (s.awake (doLogicStep e))
def execOverlaySet (e : HostEntry) (s : State) : Host.Outcome State Fault Refusal := .next (s.awake (doOverlaySet e))
def execPlyYield (e : HostEntry) (s : State) : Host.Outcome State Fault Refusal := .next (s.awake (doPlyYield e))
def execRestart (e : HostEntry) (s : State) : Host.Outcome State Fault Refusal := .next (s.awake (doRestart e))
def execForwardedCommandReceive (opc : Byte) (e : HostEntry) (t : Nat) (s : State) : Host.Outcome State Fault Refusal :=
  .next (s.awake (doForwardedCommandReceive opc e t))
def execPeerOverlayReceive (k : Fin 9) (src : Fin 6) (t : Nat) (s : State) : Host.Outcome State Fault Refusal :=
  .next (s.awake (doPeerOverlayReceive k src t))
def execPeerTripResetReceive (ch : Fin 32) (s : State) : Host.Outcome State Fault Refusal := .next (s.awake (doPeerTripResetReceive ch))

end Sys2Proof.Machine
end

