-- ==== Sys2Proof/Machine/HostRegs.lean ====
section
/-! DEFINITION. The host's accesses to registers and windows (R4, R28, R474–R480, R491): ring pointers, event registers, reads with an
effect, and refused accesses. -/

namespace Sys2Proof.Machine

/-- A host access: it reaches the device while the host domain is on. -/
def State.hostAccess (s : State) (f : State → State) : State := if s.bit A.PWR_DOMAIN_STAT 3 then s.awake f else s

/-! ### Ring pointers (R477) -/

/-- BAR0 offsets of ring pointers name their register in HST_BADADDR. -/
def State.badPointer (s : State) (a : Nat) : State := s.badAccess false true a

/-- HST_Q_TAIL_r of a host-produced ring: forward over free entries only (R477). The doorbell wakes the cluster of the supervisors (R15); the
commands take the entries. DESIGN CHOICE (assumption 61): the whole word is the index, so that bits [31:16], which R491 leaves out, make a
write of no entry's index and are refused as one; R3 may as well have them ignored. -/
def doHstQTailWrite (r : Nat) (v : Word) (s : State) : State :=
  let d := s.qDepth r
  let n := v.toNat
  let step := (n + d - s.qTail r) % d
  let room := d - 1 - s.qCount r
  if (r = 0 ∨ r = 3) ∧ n < d ∧ step ≤ room then (s.setFld (A.HST_Q_TAIL r) F.HST_Q_INDEX n).wakeFor 3
  else s.badPointer (A.HST_Q_TAIL r)

/-- Responses that wait for Q01, as far as there is room. -/
def State.respDrain (s : State) : Nat → State
  | 0 => s
  | n + 1 =>
    match s.host.respWait with
    | e :: l => if s.qFull 1 then s else State.respDrain (State.qPost { s with host := { s.host with respWait := l } } 1 e) n
    | [] => s

/-- HST_Q_HEAD_r of a device-produced ring: forward over held entries only, of the whole word as for TAIL (assumption 61). Room on Q01 and Q07 lets waiting entries in (R482, R483). -/
def doHstQHeadWrite (r : Nat) (v : Word) (s : State) : State :=
  let d := s.qDepth r
  let n := v.toNat
  let step := (n + d - s.qHead r) % d
  if r ≠ 0 ∧ r ≠ 3 ∧ n < d ∧ step ≤ s.qCount r then
    let s1 := s.setFld (A.HST_Q_HEAD r) F.HST_Q_INDEX n
    if r = 1 then s1.respDrain s1.host.respWait.length else if r = 7 then s1.q07Drain s1.host.q07Wait.length else s1
  else s.badPointer (A.HST_Q_HEAD r)

/-! ### Events (R479, R480) -/

/-- HST_EVT_PEND_Wk, W1C. -/
def doHstEvtPendWrite (k : Nat) (v : Word) (s : State) : State := s.setReg (A.HST_EVT_PEND k) (s.reg (A.HST_EVT_PEND k) &&& ~~~v)

/-- HST_EVT_MASK_Wk: unmasking a pending bit signals its source. -/
def doHstEvtMaskWrite (k : Nat) (v : Word) (s : State) : State :=
  let freed := s.reg (A.HST_EVT_PEND k) &&& s.reg (A.HST_EVT_MASK k) &&& ~~~v
  (s.setReg (A.HST_EVT_MASK k) v).forEach ((List.range 32).filter (fun i => bitGet freed i)) (fun i s => s.msix (32 * k + i))

/-- PWR_DOMAIN_STAT.KA_ON_VBAT, W1C (R26). -/
def doKaOnVbatClear (v : Word) (s : State) : State := if bitGet v 0 then s.setBit A.PWR_DOMAIN_STAT 0 false else s

/-! ### Reads with an effect -/

/-- A read returns the register's word. -/
def State.hostRead (s : State) (a : Nat) : State := { s with host := { s.host with rdata := s.reg a } }

/-- A read that latches `n` registers from `a` on. -/
def State.readLatch (s : State) (a n : Nat) : State := (s.hostRead a).latchRange a n

def doAccSeqRead (x : Nat) (s : State) : State := s.readLatch (A.ACQ_ACC_SEQ x) 7
def doTrkMinRead (x : Nat) (s : State) : State := s.readLatch (A.ACQ_TRK_MIN x) 7

/-- ACQ_TRK_STAT_Lx: with TRK_RDRST the read resets the tracker (R60). -/
def doTrkStatRead (x : Nat) (s : State) : State :=
  let s1 := s.hostRead (A.ACQ_TRK_STAT x)
  if s1.bit (A.ACQ_ACCCFG x) 29 then s1.trackerReset x else s1

def doFrmcntLoRead (b : Nat) (s : State) : State := s.readLatch (A.FLT_FRMCNT_LO b) 4
def doMeasFrmRead (b : Nat) (s : State) : State := s.readLatch (A.PRT_MEAS_FRM b) 58
def doMotStatRead (b : Nat) (s : State) : State := s.readLatch (A.PRT_MOT_STAT b) 9
def doCflStatRead (b : Nat) (s : State) : State := s.readLatch (A.PRT_CFL_STAT b) 7
def doBstatRead (b : Nat) (s : State) : State := (s.readLatch (A.SPN_BSTAT b) 3).latchRange (A.SPN_TSMP_LO b) 4
def doTimNowLoRead (s : State) : State := s.readLatch A.TIM_NOW_LO 2
def doLasttoLoRead (s : State) : State := s.readLatch A.PLY_LASTTO_LO 2
def doOvlTLoRead (s : State) : State := s.readLatch A.CFG_OVL_T_LO 2
def doBinTsLoRead (i : Nat) (s : State) : State := s.readLatch (A.LIO_BIN_TS_LO i) 2

/-! ### The windows of BAR2 as the host reads them (R5, R474, R478) -/

/-- A descriptor as its eight words, the octets of each in little-endian order. -/
def RingEntry.words (e : RingEntry) (buf : Nat) : List Word :=
  [BitVec.ofNat 32 (e.tag % 65536 + e.status % 256 * 65536 + e.typ % 256 * 2 ^ 24), BitVec.ofNat 32 e.len, BitVec.ofNat 32 buf, 0,
   e.p0, e.p1, e.p2, e.p3]

/-- The ring window at an offset of BAR2: descriptors and buffers of the rings the device produces, and what the host has written. -/
def State.ringWord (s : State) (off : Nat) : Word :=
  let o := off - 0x1800000
  let dev (r i : Nat) : Option Word :=
    let e := tabGet ringEntryInit s.host.slots (1024 * r + i)
    let d := (s.reg (A.HST_Q_BASE r)).toNat + 32 * i
    let buf := if e.body.isEmpty then 0 else Config.ringBuffer r i
    if d ≤ o ∧ o < d + 32 then some ((e.words buf).getD ((o - d) / 4) 0)
    else if !e.body.isEmpty && Nat.ble buf o && Nat.blt o (buf + 4 * e.body.length) then some (e.body.getD ((o - buf) / 4) 0) else none
  ([1, 2, 4, 5, 6, 7].findSome? (fun r => (List.range (s.qDepth r)).findSome? (dev r))).getD (tabGet 0 s.host.win (off / 4 * 4))

/-- An octet of BAR2: the capture window, then the ring window. -/
def State.windowOctet (s : State) (off : Nat) : Byte :=
  let w := if off < 0x1800000 then s.captureWord (off / 4 * 4) else if off < 0x1900000 then s.ringWord (off / 4 * 4) else 0
  BitVec.ofNat 8 (w.toNat / 256 ^ (off % 4))

/-- An octet of on-chip memory at its internal address (R27), little-endian: the capture region, the Heddle logic store, the Heddle data and
the OTP. The other regions hold what State keeps in lists of its own, whose layout the spec does not give: none. -/
def State.onChip (s : State) (a : Nat) : Option Byte :=
  if a < 0x01800000 then some (s.windowOctet a)
  else if 0x02780000 ≤ a ∧ a < 0x02800000 then
    some (BitVec.ofNat 8 ((s.hdl.code.getD ((a - 0x02780000) / 8) 0).toNat / 256 ^ (a % 8)))
  else if 0x02800000 ≤ a ∧ a < 0x02840000 ∨ 0x0F800000 ≤ a ∧ a < 0x0F804000 then some (s.octet a)
  else none

/-! ### Refused reads (R4, R28, R474) -/

/-- Offsets that belong to no block or window. -/
def unassigned (bar2 : Bool) (off : Nat) : Bool := if bar2 then Nat.ble 0x1900000 off else Nat.ble 0xA00000 off

/-- BAD_HOST_READ: not 32 bits wide, misaligned or unassigned; it returns 0. -/
def doBadHostRead (bar2 : Bool) (off width : Nat) (s : State) : State :=
  if width ≠ 32 || off % 4 != 0 || unassigned bar2 off then
    State.badAccess { s with host := { s.host with rdata := 0 } } bar2 false off
  else s

/-! ### Writes without a row of their own (R474, R475) -/

/-- A descriptor of Q00 or Q03, or a buffer of Q03, by its BAR2 offset. -/
def State.ringWritable (s : State) (off : Nat) : Bool :=
  let o := off - 0x1800000
  let within (r : Nat) : Bool := let b := (s.reg (A.HST_Q_BASE r)).toNat; Nat.ble b o && Nat.blt o (b + 32 * s.qDepth r)
  Nat.ble 0x1800000 off && Nat.blt off 0x1900000 && (within 0 || within 3 || Config.bulkBuffer off)

/-- A write to the MSI-X table: a vector unmasked with its pending bit set sends its message. -/
def State.msixWrite (s : State) (off : Nat) (v : Word) : State :=
  let s1 := s.setReg off v
  let n := (off - 0x18000) / 16
  if off % 16 = 12 ∧ bitGet v 0 = false ∧ s1.bit (A.HST_MSIX_PBA (n / 32)) (n % 32) = true then
    (s1.setBit (A.HST_MSIX_PBA (n / 32)) (n % 32) false).msix n
  else s1

/-- A host write to BAR0 that is 32 bits wide and aligned. -/
def State.barWrite (s : State) (off : Nat) (v : Word) : State :=
  if off = A.ALM_CURREC then s.setReg off v
  else if off = A.ALM_CUR then doAlmCurWrite v s
  else if off = A.PWR_DOMAIN_STAT then doKaOnVbatClear v s
  else match (List.range 4).find? (fun k => off == A.HST_EVT_PEND k), (List.range 4).find? (fun k => off == A.HST_EVT_MASK k),
      (List.range 8).find? (fun r => off == A.HST_Q_HEAD r), (List.range 8).find? (fun r => off == A.HST_Q_TAIL r) with
    | some k, _, _, _ => doHstEvtPendWrite k v s
    | none, some k, _, _ => doHstEvtMaskWrite k v s
    | none, none, some r, _ => doHstQHeadWrite r v s
    | none, none, none, some r => doHstQTailWrite r v s
    | none, none, none, none =>
      if Nat.ble 0x18000 off && Nat.blt off 0x18800 && s.fld A.HST_STAT F.HST_STAT_MODE == 1 then s.msixWrite off v
      else s.badAccess false true off

/-- REGISTER_WRITE_OTHER. -/
def doRegisterWriteOther (bar2 : Bool) (off width : Nat) (v : Word) (s : State) : State :=
  if width ≠ 32 || off % 4 != 0 then s.badAccess bar2 true off
  else if bar2 then
    if s.ringWritable off then { s with host := { s.host with win := tabPut 0 s.host.win off v } } else s.badAccess true true off
  else s.barWrite off v

/-- PCIE_LINK_CHANGE: speed and width show while the link is up; in quad-SPI mode the lanes are off (R470). -/
def doPcieLinkChange (up : Bool) (speed width : Nat) (s : State) : State :=
  if s.fld A.HST_STAT F.HST_STAT_MODE ≠ 1 then s
  else ((s.setBit A.HST_STAT 29 up).setFld A.HST_STAT F.HST_STAT_SPEED (if up then speed else 0)).setFld A.HST_STAT F.HST_STAT_WIDTH
    (if up then width else 0)

/-! ### Steps as executed -/

def execHstQTailWrite (r : Fin 8) (v : Word) (s : State) : Host.Outcome State Fault Refusal := .next (s.hostAccess (doHstQTailWrite r v))
def execHstQHeadWrite (r : Fin 8) (v : Word) (s : State) : Host.Outcome State Fault Refusal := .next (s.hostAccess (doHstQHeadWrite r v))
def execHstEvtPendWrite (k : Fin 4) (v : Word) (s : State) : Host.Outcome State Fault Refusal := .next (s.hostAccess (doHstEvtPendWrite k v))
def execHstEvtMaskWrite (k : Fin 4) (v : Word) (s : State) : Host.Outcome State Fault Refusal := .next (s.hostAccess (doHstEvtMaskWrite k v))
def execKaOnVbatClear (v : Word) (s : State) : Host.Outcome State Fault Refusal := .next (s.hostAccess (doKaOnVbatClear v))
def execAccSeqRead (lane : Fin 128) (s : State) : Host.Outcome State Fault Refusal := .next (s.hostAccess (doAccSeqRead lane))
def execTrkMinRead (lane : Fin 128) (s : State) : Host.Outcome State Fault Refusal := .next (s.hostAccess (doTrkMinRead lane))
def execTrkStatRead (lane : Fin 128) (s : State) : Host.Outcome State Fault Refusal := .next (s.hostAccess (doTrkStatRead lane))
def execFrmcntLoRead (bay : Fin 8) (s : State) : Host.Outcome State Fault Refusal := .next (s.hostAccess (doFrmcntLoRead bay))
def execMeasFrmRead (bay : Fin 8) (s : State) : Host.Outcome State Fault Refusal := .next (s.hostAccess (doMeasFrmRead bay))
def execMotStatRead (bay : Fin 8) (s : State) : Host.Outcome State Fault Refusal := .next (s.hostAccess (doMotStatRead bay))
def execCflStatRead (bay : Fin 8) (s : State) : Host.Outcome State Fault Refusal := .next (s.hostAccess (doCflStatRead bay))
def execBstatRead (b : Fin 512) (s : State) : Host.Outcome State Fault Refusal := .next (s.hostAccess (doBstatRead b))
def execTimNowLoRead (s : State) : Host.Outcome State Fault Refusal := .next (s.hostAccess doTimNowLoRead)
def execLasttoLoRead (s : State) : Host.Outcome State Fault Refusal := .next (s.hostAccess doLasttoLoRead)
def execOvlTLoRead (s : State) : Host.Outcome State Fault Refusal := .next (s.hostAccess doOvlTLoRead)
def execBinTsLoRead (i : Fin 32) (s : State) : Host.Outcome State Fault Refusal := .next (s.hostAccess (doBinTsLoRead i))
def execBadHostRead (bar2 : Bool) (off width : Nat) (s : State) : Host.Outcome State Fault Refusal :=
  .next (s.hostAccess (doBadHostRead bar2 off width))
def execRegisterWriteOther (bar2 : Bool) (off width : Nat) (v : Word) (s : State) : Host.Outcome State Fault Refusal :=
  .next (s.hostAccess (doRegisterWriteOther bar2 off width v))
def execPcieLinkChange (up : Bool) (speed : Fin 4) (width : Fin 3) (s : State) : Host.Outcome State Fault Refusal :=
  .next (s.hostAccess (doPcieLinkChange up speed width))

end Sys2Proof.Machine
end

