-- ==== Sys2Proof/Machine/Dispatch.lean ====
section
/-! DEFINITION. One arm per command: its meaning. -/

namespace Sys2Proof.Machine

/-- The effect of a command on everything but the queue. -/
def exec (i : Instr) (s : State) : Host.Outcome State Fault Refusal :=
  match i with
  | .powerGood p => Sys2Proof.Machine.execPowerGood p s
  | .sampleClockLock q => Sys2Proof.Machine.execSampleClockLock q s
  | .startupCalDone r => Sys2Proof.Machine.execStartupCalDone r s
  | .enginesLoaded => Sys2Proof.Machine.execEnginesLoaded s
  | .acqReelSwitch => Sys2Proof.Machine.execAcqReelSwitch s
  | .stepInjectionStart bay atStart => Sys2Proof.Machine.execStepInjectionStart bay atStart s
  | .stepInjectionEnd bay resp => Sys2Proof.Machine.execStepInjectionEnd bay resp s
  | .injectionWatchEnd pin => Sys2Proof.Machine.execInjectionWatchEnd pin s
  | .openCheckReversal pin mean => Sys2Proof.Machine.execOpenCheckReversal pin mean s
  | .inputCheckRequest => Sys2Proof.Machine.execInputCheckRequest s
  | .laneSample lane d => Sys2Proof.Machine.execLaneSample lane d s
  | .accWindowEnd lane => Sys2Proof.Machine.execAccWindowEnd lane s
  | .urgentServe slice code => Sys2Proof.Machine.execUrgentServe slice code s
  | .reelCycleBoundary => Sys2Proof.Machine.execReelCycleBoundary s
  | .rotationDue => Sys2Proof.Machine.execRotationDue s
  | .shadowEnd => Sys2Proof.Machine.execShadowEnd s
  | .calibrationDone r => Sys2Proof.Machine.execCalibrationDone r s
  | .searchStart => Sys2Proof.Machine.execSearchStart s
  | .searchPhaseEnd => Sys2Proof.Machine.execSearchPhaseEnd s
  | .outOfTurnTakeover slice => Sys2Proof.Machine.execOutOfTurnTakeover slice s
  | .chainRestart bay => Sys2Proof.Machine.execChainRestart bay s
  | .frameClose bay => Sys2Proof.Machine.execFrameClose bay s
  | .frameProcess bay resNs => Sys2Proof.Machine.execFrameProcess bay resNs s
  | .clusterGateEnter c gap => Sys2Proof.Machine.execClusterGateEnter c gap s
  | .clusterGateEntryDone c => Sys2Proof.Machine.execClusterGateEntryDone c s
  | .clusterWake c => Sys2Proof.Machine.execClusterWake c s
  | .watchmanFeedSample bay phase codes f => Sys2Proof.Machine.execWatchmanFeedSample bay phase codes f s
  | .watchmanDrop bay => Sys2Proof.Machine.execWatchmanDrop bay s
  | .arcHoldExpire inst light => Sys2Proof.Machine.execArcHoldExpire inst light s
  | .lightAssert j => Sys2Proof.Machine.execLightAssert j s
  | .lightRelease j => Sys2Proof.Machine.execLightRelease j s
  | .tripPulseEnd ch => Sys2Proof.Machine.execTripPulseEnd ch s
  | .binChange j level ts => Sys2Proof.Machine.execBinChange j level ts s
  | .tripFbChange p level => Sys2Proof.Machine.execTripFbChange p level s
  | .arrivalDetect bay mode neg clipped t => Sys2Proof.Machine.execArrivalDetect bay mode neg clipped t s
  | .arrivalRearm bay mode peak => Sys2Proof.Machine.execArrivalRearm bay mode peak s
  | .wfdRecordTake bay => Sys2Proof.Machine.execWfdRecordTake bay s
  | .wfdSupervision inst dAlpha dBeta clipped => Sys2Proof.Machine.execWfdSupervision inst dAlpha dBeta clipped s
  | .wfdHoldEnd inst => Sys2Proof.Machine.execWfdHoldEnd inst s
  | .cflLocate inst => Sys2Proof.Machine.execCflLocate inst s
  | .captureSampleWrite plan => Sys2Proof.Machine.execCaptureSampleWrite plan s
  | .captureResultsReceive bay => Sys2Proof.Machine.execCaptureResultsReceive bay s
  | .recordClose plan => Sys2Proof.Machine.execRecordClose plan s
  | .snapshotCopy bay => Sys2Proof.Machine.execSnapshotCopy bay s
  | .peerCaptureRequest plan m => Sys2Proof.Machine.execPeerCaptureRequest plan m s
  | .periodicRelease h t => Sys2Proof.Machine.execPeriodicRelease h t s
  | .eventRelease h t => Sys2Proof.Machine.execEventRelease h t s
  | .executionStart h => Sys2Proof.Machine.execExecutionStart h s
  | .freeRunCycleStart h => Sys2Proof.Machine.execFreeRunCycleStart h s
  | .budgetIdleEnd h => Sys2Proof.Machine.execBudgetIdleEnd h s
  | .timerSweep => Sys2Proof.Machine.execTimerSweep s
  | .onlineApply => Sys2Proof.Machine.execOnlineApply s
  | .ldb h => Sys2Proof.Machine.execLdb h s
  | .andb h => Sys2Proof.Machine.execAndb h s
  | .orb h => Sys2Proof.Machine.execOrb h s
  | .xorb h => Sys2Proof.Machine.execXorb h s
  | .stb h => Sys2Proof.Machine.execStb h s
  | .setb h => Sys2Proof.Machine.execSetb h s
  | .clrb h => Sys2Proof.Machine.execClrb h s
  | .notLb h => Sys2Proof.Machine.execNotLb h s
  | .lbset h => Sys2Proof.Machine.execLbset h s
  | .rise h => Sys2Proof.Machine.execRise h s
  | .fall h => Sys2Proof.Machine.execFall h s
  | .grp h => Sys2Proof.Machine.execGrp h s
  | .gend h => Sys2Proof.Machine.execGend h s
  | .clsat h => Sys2Proof.Machine.execClsat h s
  | .lda h => Sys2Proof.Machine.execLda h s
  | .sta h => Sys2Proof.Machine.execSta h s
  | .swap h => Sys2Proof.Machine.execSwap h s
  | .ldcw h => Sys2Proof.Machine.execLdcw h s
  | .addW h => Sys2Proof.Machine.execAddW h s
  | .subW h => Sys2Proof.Machine.execSubW h s
  | .mulW h => Sys2Proof.Machine.execMulW h s
  | .divW h => Sys2Proof.Machine.execDivW h s
  | .modW h => Sys2Proof.Machine.execModW h s
  | .negW h => Sys2Proof.Machine.execNegW h s
  | .absW h => Sys2Proof.Machine.execAbsW h s
  | .addi h => Sys2Proof.Machine.execAddi h s
  | .andW h => Sys2Proof.Machine.execAndW h s
  | .orW h => Sys2Proof.Machine.execOrW h s
  | .xorW h => Sys2Proof.Machine.execXorW h s
  | .inv h => Sys2Proof.Machine.execInv h s
  | .shl h => Sys2Proof.Machine.execShl h s
  | .shr h => Sys2Proof.Machine.execShr h s
  | .sar h => Sys2Proof.Machine.execSar h s
  | .rol h => Sys2Proof.Machine.execRol h s
  | .fadd h => Sys2Proof.Machine.execFadd h s
  | .fsub h => Sys2Proof.Machine.execFsub h s
  | .fmul h => Sys2Proof.Machine.execFmul h s
  | .fdiv h => Sys2Proof.Machine.execFdiv h s
  | .fabs h => Sys2Proof.Machine.execFabs h s
  | .fneg h => Sys2Proof.Machine.execFneg h s
  | .itof h => Sys2Proof.Machine.execItof h s
  | .ftoi h => Sys2Proof.Machine.execFtoi h s
  | .cmp h => Sys2Proof.Machine.execCmp h s
  | .jmp h => Sys2Proof.Machine.execJmp h s
  | .jmpt h => Sys2Proof.Machine.execJmpt h s
  | .jmpf h => Sys2Proof.Machine.execJmpf h s
  | .jsat h => Sys2Proof.Machine.execJsat h s
  | .loop h => Sys2Proof.Machine.execLoop h s
  | .call h => Sys2Proof.Machine.execCall h s
  | .callt h => Sys2Proof.Machine.execCallt h s
  | .ret h => Sys2Proof.Machine.execRet h s
  | .endExec h => Sys2Proof.Machine.execEndExec h s
  | .nop h => Sys2Proof.Machine.execNop h s
  | .tmrTp h => Sys2Proof.Machine.execTmrTp h s
  | .tmrTon h => Sys2Proof.Machine.execTmrTon h s
  | .tmrTof h => Sys2Proof.Machine.execTmrTof h s
  | .tmrTonr h => Sys2Proof.Machine.execTmrTonr h s
  | .trst h => Sys2Proof.Machine.execTrst h s
  | .ctu h => Sys2Proof.Machine.execCtu h s
  | .ctd h => Sys2Proof.Machine.execCtd h s
  | .cld h => Sys2Proof.Machine.execCld h s
  | .crst h => Sys2Proof.Machine.execCrst h s
  | .urgc h => Sys2Proof.Machine.execUrgc h s
  | .trkrst h => Sys2Proof.Machine.execTrkrst h s
  | .trprst h => Sys2Proof.Machine.execTrprst h s
  | .capt h => Sys2Proof.Machine.execCapt h s
  | .ovly h => Sys2Proof.Machine.execOvly h s
  | .evtt h => Sys2Proof.Machine.execEvtt h s
  | .blockRelease b => Sys2Proof.Machine.execBlockRelease b s
  | .loopValuesReceive b v => Sys2Proof.Machine.execLoopValuesReceive b v s
  | .secondBoundary => Sys2Proof.Machine.execSecondBoundary s
  | .ptpSyncReceive port m => Sys2Proof.Machine.execPtpSyncReceive port m s
  | .ptpFollowUpReceive port seq offset => Sys2Proof.Machine.execPtpFollowUpReceive port seq offset s
  | .ptpAnnounceReceive port m => Sys2Proof.Machine.execPtpAnnounceReceive port m s
  | .ptpAnnounceTimeout => Sys2Proof.Machine.execPtpAnnounceTimeout s
  | .ptpPdelayReqSend => Sys2Proof.Machine.execPtpPdelayReqSend s
  | .ptpPdelayReqReceive port seq => Sys2Proof.Machine.execPtpPdelayReqReceive port seq s
  | .ptpPdelayRespReceive port delay => Sys2Proof.Machine.execPtpPdelayRespReceive port delay s
  | .ppsEdge => Sys2Proof.Machine.execPpsEdge s
  | .irigbFrame offset => Sys2Proof.Machine.execIrigbFrame offset s
  | .sourceSwitch src => Sys2Proof.Machine.execSourceSwitch src s
  | .holdoverExpire => Sys2Proof.Machine.execHoldoverExpire s
  | .leapSecond => Sys2Proof.Machine.execLeapSecond s
  | .pealSlotLoad e => Sys2Proof.Machine.execPealSlotLoad e s
  | .pealSetGout e => Sys2Proof.Machine.execPealSetGout e s
  | .pealOverlay e => Sys2Proof.Machine.execPealOverlay e s
  | .pealCapture e => Sys2Proof.Machine.execPealCapture e s
  | .pealProfileStart e => Sys2Proof.Machine.execPealProfileStart e s
  | .pealEventTask e => Sys2Proof.Machine.execPealEventTask e s
  | .pealHankOutput e => Sys2Proof.Machine.execPealHankOutput e s
  | .pealGoosePublish e => Sys2Proof.Machine.execPealGoosePublish e s
  | .pealControlledClose e => Sys2Proof.Machine.execPealControlledClose e s
  | .closeCommand bay => Sys2Proof.Machine.execCloseCommand bay s
  | .closeWindowEnd bay => Sys2Proof.Machine.execCloseWindowEnd bay s
  | .closePulseEnd bay => Sys2Proof.Machine.execClosePulseEnd bay s
  | .launchApply sub => Sys2Proof.Machine.execLaunchApply sub s
  | .portLinkChange p up => Sys2Proof.Machine.execPortLinkChange p up s
  | .prpSupervisionSend process => Sys2Proof.Machine.execPrpSupervisionSend process s
  | .prpSupervisionReceive p tag => Sys2Proof.Machine.execPrpSupervisionReceive p tag s
  | .lanokTimeout p => Sys2Proof.Machine.execLanokTimeout p s
  | .gooseReceive p m => Sys2Proof.Machine.execGooseReceive p m s
  | .gooseSubLost sub => Sys2Proof.Machine.execGooseSubLost sub s
  | .gooseStateBuild g => Sys2Proof.Machine.execGooseStateBuild g s
  | .gooseRetransmit g => Sys2Proof.Machine.execGooseRetransmit g s
  | .svFramePublish bay => Sys2Proof.Machine.execSvFramePublish bay s
  | .svReceive p m => Sys2Proof.Machine.execSvReceive p m s
  | .svStreamLost r => Sys2Proof.Machine.execSvStreamLost r s
  | .hankAnnounceReceive p pdu => Sys2Proof.Machine.execHankAnnounceReceive p pdu s
  | .hankConfigResend m => Sys2Proof.Machine.execHankConfigResend m s
  | .hankConfigAckReceive p pdu => Sys2Proof.Machine.execHankConfigAckReceive p pdu s
  | .hankOutputSend m => Sys2Proof.Machine.execHankOutputSend m s
  | .hankInputReceive p pdu => Sys2Proof.Machine.execHankInputReceive p pdu s
  | .hankModuleLost m => Sys2Proof.Machine.execHankModuleLost m s
  | .plyLinkUp => Sys2Proof.Machine.execPlyLinkUp s
  | .plyLinkDown => Sys2Proof.Machine.execPlyLinkDown s
  | .peerIdentityReceive p => Sys2Proof.Machine.execPeerIdentityReceive p s
  | .peerRefusalReceive => Sys2Proof.Machine.execPeerRefusalReceive s
  | .peerClaimSilent linkStopped => Sys2Proof.Machine.execPeerClaimSilent linkStopped s
  | .claimDisagreeTimeout => Sys2Proof.Machine.execClaimDisagreeTimeout s
  | .claimBackoffEnd => Sys2Proof.Machine.execClaimBackoffEnd s
  | .claimWatchdogExpire => Sys2Proof.Machine.execClaimWatchdogExpire s
  | .aloneTimeout => Sys2Proof.Machine.execAloneTimeout s
  | .isolationTimeout => Sys2Proof.Machine.execIsolationTimeout s
  | .peerResultsReceive bay n bits => Sys2Proof.Machine.execPeerResultsReceive bay n bits s
  | .peerTripStateReceive w => Sys2Proof.Machine.execPeerTripStateReceive w s
  | .mergeWindowEnd bay => Sys2Proof.Machine.execMergeWindowEnd bay s
  | .shippedFrameReceive f => Sys2Proof.Machine.execShippedFrameReceive f s
  | .shipAckReceive => Sys2Proof.Machine.execShipAckReceive s
  | .shipAckTimeout => Sys2Proof.Machine.execShipAckTimeout s
  | .copySnapshotTake => Sys2Proof.Machine.execCopySnapshotTake s
  | .copySnapshotReceive snap => Sys2Proof.Machine.execCopySnapshotReceive snap s
  | .shadowPassTimeout => Sys2Proof.Machine.execShadowPassTimeout s
  | .forwardedCommandReceive opc e t => Sys2Proof.Machine.execForwardedCommandReceive opc e t s
  | .peerOverlayReceive k src t => Sys2Proof.Machine.execPeerOverlayReceive k src t s
  | .peerTripResetReceive ch => Sys2Proof.Machine.execPeerTripResetReceive ch s
  | .almanacValue src v invalid => Sys2Proof.Machine.execAlmanacValue src v invalid s
  | .interruptionMeasureEnd ch => Sys2Proof.Machine.execInterruptionMeasureEnd ch s
  | .intervalBoundary k => Sys2Proof.Machine.execIntervalBoundary k s
  | .almanacCommit verified cause addr => Sys2Proof.Machine.execAlmanacCommit verified cause addr s
  | .commitLate => Sys2Proof.Machine.execCommitLate s
  | .keepScanDone => Sys2Proof.Machine.execKeepScanDone s
  | .remoteRecordReceive r => Sys2Proof.Machine.execRemoteRecordReceive r s
  | .overlayTakeEffect => Sys2Proof.Machine.execOverlayTakeEffect s
  | .reeveCycle x => Sys2Proof.Machine.execReeveCycle x s
  | .eccErrorDetect region engine uncorrectable => Sys2Proof.Machine.execEccErrorDetect region engine uncorrectable s
  | .clusterClockReturn c => Sys2Proof.Machine.execClusterClockReturn c s
  | .thermalThrottleStep c => Sys2Proof.Machine.execThermalThrottleStep c s
  | .pfwAssert => Sys2Proof.Machine.execPfwAssert s
  | .watchmanEntry => Sys2Proof.Machine.execWatchmanEntry s
  | .watchmanExit => Sys2Proof.Machine.execWatchmanExit s
  | .resetNAssert boot => Sys2Proof.Machine.execResetNAssert boot s
  | .keepAliveToVbat => Sys2Proof.Machine.execKeepAliveToVbat s
  | .keepAliveToVddKa => Sys2Proof.Machine.execKeepAliveToVddKa s
  | .restartReset => Sys2Proof.Machine.execRestartReset s
  | .telemetryPost => Sys2Proof.Machine.execTelemetryPost s
  | .attestRefresh => Sys2Proof.Machine.execAttestRefresh s
  | .attestReportDone => Sys2Proof.Machine.execAttestReportDone s
  | .echo e => Sys2Proof.Machine.execEcho e s
  | .urgentConvert e => Sys2Proof.Machine.execUrgentConvert e s
  | .trackerReset e => Sys2Proof.Machine.execTrackerReset e s
  | .tripReset e => Sys2Proof.Machine.execTripReset e s
  | .captureTrigger e => Sys2Proof.Machine.execCaptureTrigger e s
  | .captureAck e => Sys2Proof.Machine.execCaptureAck e s
  | .captureLock e => Sys2Proof.Machine.execCaptureLock e s
  | .captureUnlock e => Sys2Proof.Machine.execCaptureUnlock e s
  | .forceSet e => Sys2Proof.Machine.execForceSet e s
  | .forceClear e => Sys2Proof.Machine.execForceClear e s
  | .forceClearAll e => Sys2Proof.Machine.execForceClearAll e s
  | .onlineSet e => Sys2Proof.Machine.execOnlineSet e s
  | .logicRun e => Sys2Proof.Machine.execLogicRun e s
  | .logicStop e => Sys2Proof.Machine.execLogicStop e s
  | .logicHold e => Sys2Proof.Machine.execLogicHold e s
  | .logicStep e => Sys2Proof.Machine.execLogicStep e s
  | .overlaySet e => Sys2Proof.Machine.execOverlaySet e s
  | .plyYield e => Sys2Proof.Machine.execPlyYield e s
  | .restart e => Sys2Proof.Machine.execRestart e s
  | .attest e nonce => Sys2Proof.Machine.execAttest e nonce s
  | .ownerWrite e tk => Sys2Proof.Machine.execOwnerWrite e tk s
  | .ownerRevoke e tk => Sys2Proof.Machine.execOwnerRevoke e tk s
  | .debugUnlock e tk => Sys2Proof.Machine.execDebugUnlock e tk s
  | .debugBan e tk => Sys2Proof.Machine.execDebugBan e tk s
  | .hstQTailWrite r v => Sys2Proof.Machine.execHstQTailWrite r v s
  | .hstQHeadWrite r v => Sys2Proof.Machine.execHstQHeadWrite r v s
  | .hstEvtPendWrite k v => Sys2Proof.Machine.execHstEvtPendWrite k v s
  | .hstEvtMaskWrite k v => Sys2Proof.Machine.execHstEvtMaskWrite k v s
  | .kaOnVbatClear v => Sys2Proof.Machine.execKaOnVbatClear v s
  | .almCurWrite v => Sys2Proof.Machine.execAlmCurWrite v s
  | .almWinW63Read => Sys2Proof.Machine.execAlmWinW63Read s
  | .accSeqRead lane => Sys2Proof.Machine.execAccSeqRead lane s
  | .trkMinRead lane => Sys2Proof.Machine.execTrkMinRead lane s
  | .trkStatRead lane => Sys2Proof.Machine.execTrkStatRead lane s
  | .frmcntLoRead bay => Sys2Proof.Machine.execFrmcntLoRead bay s
  | .measFrmRead bay => Sys2Proof.Machine.execMeasFrmRead bay s
  | .motStatRead bay => Sys2Proof.Machine.execMotStatRead bay s
  | .cflStatRead bay => Sys2Proof.Machine.execCflStatRead bay s
  | .bstatRead b => Sys2Proof.Machine.execBstatRead b s
  | .timNowLoRead => Sys2Proof.Machine.execTimNowLoRead s
  | .lasttoLoRead => Sys2Proof.Machine.execLasttoLoRead s
  | .ovlTLoRead => Sys2Proof.Machine.execOvlTLoRead s
  | .binTsLoRead j => Sys2Proof.Machine.execBinTsLoRead j s
  | .badHostRead bar2 off width => Sys2Proof.Machine.execBadHostRead bar2 off width s
  | .registerWriteOther bar2 off width v => Sys2Proof.Machine.execRegisterWriteOther bar2 off width v s
  | .peerClaimStart => Sys2Proof.Machine.execPeerClaimStart s
  | .supervisorWatchdogExpiry => Sys2Proof.Machine.execSupervisorWatchdogExpiry s
  | .railOutOfRange => Sys2Proof.Machine.execRailOutOfRange s
  | .crystalStop => Sys2Proof.Machine.execCrystalStop s
  | .timeSourceLoss src => Sys2Proof.Machine.execTimeSourceLoss src s
  | .gooseLaunchTimeReached g => Sys2Proof.Machine.execGooseLaunchTimeReached g s
  | .pcieLinkChange up speed width => Sys2Proof.Machine.execPcieLinkChange up speed width s
  | .streamedChangeReceive c => Sys2Proof.Machine.execStreamedChangeReceive c s

end Sys2Proof.Machine
end

