-- ==== Sys2Proof/Machine/Tick.lean ====
section
/-! DEFINITION. One nanosecond of device time without a command (assumption 1): the clocks, the servo's ramp, counters that follow time,
the transmitters, stream reads, overlay boundaries, capture grids and the actor's stream of changes. -/

namespace Sys2Proof.Machine

/-- Every `n` ns of the count that is never stepped. -/
def State.every (s : State) (n : Nat) : Bool := s.tim.up % n == 0

/-- Device time runs at its corrected frequency (R303). -/
def State.clockTick (s : State) : State :=
  let f := s.tim.frac + s.fcorr
  let extra : Nat := if 1000000000 ≤ f then 2 else if f ≤ -1000000000 then 0 else 1
  let left : Int := if 1000000000 ≤ f then f - 1000000000 else if f ≤ -1000000000 then f + 1000000000 else f
  { s with tim := { s.tim with now := s.tim.now + extra, smp := s.tim.smp + extra, frac := left, logic := s.tim.logic + 1 } }.setReg64 A.TIM_NOW_LO A.TIM_NOW_HI
    (s.tim.now + extra)

/-- The correction follows its target by 1 ppb every 100 µs, 10 ppm/s (R303). -/
def State.rampTick (s : State) : State :=
  if !s.every 100000 || s.fcorr == s.tim.target then s
  else s.setReg A.TIM_FCORR (wordOfInt (if s.fcorr < s.tim.target then s.fcorr + 1 else s.fcorr - 1))

/-- Seconds in the present HOLDOVER (R319). -/
def State.holdTick (s : State) : State :=
  match s.tim.holdStart with
  | some t => if s.timState = 3 then s.setReg A.TIM_HOLDT (BitVec.ofNat 32 (min ((s.tim.up - t) / 1000000000) 0xFFFFFFFF)) else s
  | none => s

/-- Operating seconds (R407). -/
def State.opTick (s : State) : State :=
  if s.tim.opFrac + 1 < 1000000000 then { s with tim := { s.tim with opFrac := s.tim.opFrac + 1 } }
  else
    let s1 : State := { s with tim := { s.tim with opFrac := 0 } }
    s1.incSat A.ALM_OPSEC ⟨31, 0⟩ Ev.ALM_CNT_SAT noIndex

/-- Ages of the converters' calibrations (R86). -/
def State.ageTick (s : State) : State :=
  if !s.every 1000000000 then s
  else s.forEach s.acq.calAt (fun e s => match e.2 with
    | some t => s.setFld (A.CAL_CONV e.1) F.CAL_CONV_AGE (min ((s.tim.up - t) / 1000000000) 0xFFFF)
    | none => s)

/-- Utilisation of the Heddles and, tasked, their longest execution over the last second (R267). -/
def State.loadTick (s : State) : State :=
  s.forEach (List.range 4) (fun h s =>
    let x := s.heddle h
    let busy := x.busyNs + (if x.run.isSome then 1 else 0)
    if !s.every 1000000000 then (if busy = x.busyNs then s else s.setHeddle h { x with busyNs := busy })
    else
      let s1 := s.setFld (A.HDL_HSTAT h) ⟨31, 24⟩ (min (busy / 10000000) 100)
      let s2 := if s1.bit A.HDL_STAT 29 then s1 else s1.setFld (A.HDL_HSTAT h) ⟨23, 0⟩ (min (x.longest / 1000) 0xFFFFFF)
      s2.setHeddle h { x with busyNs := 0, longest := 0 })

/-- Measured utilisation of the Spindles over the last second (R293): execution times are not stated, so it is free. -/
def State.spinTick (s : State) : State :=
  if !s.every 1000000000 || (s.reg A.SPN_STAT).toNat % 1024 == 0 then s
  else s.forEach (List.range 4) (fun p s => let (k, s1) := s.nextFree; s1.setFld (A.SPN_SSTAT p) F.SPN_SSTAT_LOAD (Config.freeNat k % 101))

/-- MSI-X messages leave (R480). -/
def State.msixTick (s : State) : State := { s with host := { s.host with msixOut := [] } }

/-- The powered device in one nanosecond. -/
def State.powerTick (s : State) : State :=
  let s1 := (((s.clockTick).rampTick.holdTick).opTick).msixTick
  if s1.inWatchman then s1 else ((((((s1.ageTick.loadTick).spinTick).netTick).svTick).boundaryTick).capTick).plyTick

/-- One nanosecond: the count that is never stepped, the RTC (R297), and the device while it is powered. -/
def State.tick (s : State) : State :=
  let s1 : State := { s with tim := { s.tim with up := s.tim.up + 1, rtc := s.tim.rtc + 1 } }
  if s1.pwr.on then s1.powerTick else s1

end Sys2Proof.Machine
end

