-- ==== Sys2Proof/Safety.lean ====
section
/-! DEFINITION. The terms in which statements speak: the canonical form of the stored tables, when a command comes about, and
what a Heddle instruction that ran leaves. -/

namespace Sys2Proof.Machine

/-! ### Canonical form -/

/-- The memory's canonical form: addresses strictly rising, no entry equal to what an unlisted address reads as. -/
def Memory.wf (m : List Host.Cell) : Bool := sparseWf memReset m

/-- The register file's canonical form. -/
def Registers.wf (r : List (Nat × Word)) : Bool := sparseWf regReset r

/-- Memory, the register file and the latched copies are in canonical form. -/
abbrev State.Canonical (s : State) : Prop :=
  Memory.wf s.mem = true ∧ Registers.wf s.regs = true ∧ sparseWf (fun _ => (0 : Word)) s.latched = true

/-! ### When a command comes about -/

/-- The device has its supplies and is not in Watchman mode (R452). -/
abbrev State.Live (s : State) : Prop := s.inWatchman = false ∧ s.pwr.on = true

/-- `t` is `s`, but that cluster `c` may have been woken (R15, R17). -/
abbrev State.Woken (t s : State) (c : Nat) : Prop :=
  { t with regs := s.regs, pwr := s.pwr } = s ∧
    ∀ a : Nat, a ≠ A.PWR_CLUSTER c → a ≠ A.PWR_CGWAKE c → a ≠ A.PWR_PGWAKE c → t.reg a = s.reg a

/-! ### Heddle instructions -/

/-- Heddle `h` may execute the instruction word `w` of opcode `opc` now, on context `c`, within its limit (R241, R248, R259). -/
abbrev State.Ready (s : State) (h : Fin 4) (opc : Nat) (c : Ctx) (w : BitVec 64) : Prop :=
  s.nextIns h = some (c, w) ∧ insOpc w = opc ∧ s.mayRun h c = true ∧ c.count < c.limit

/-- The context past one instruction: the next index, one instruction more counted. -/
def Ctx.past (c : Ctx) : Ctx := { c with pc := c.pc + 1, count := c.count + 1 }

/-- An instruction of Heddle `h` left context `c` and the state `s` otherwise; an armed breakpoint is checked then (R260). -/
def State.ranTo (s : State) (h : Fin 4) (c : Ctx) : Host.Outcome State Fault Refusal := .next ((s.putCtx h c).breakCheck h)

/-- The bit operand lies in its area. -/
abbrev BitIn (w : BitVec 64) (c : Ctx) : Prop := insIndex w c.y < bitBound (insArea w)

/-- The word operand lies in its area, aligned. -/
abbrev WordIn (w : BitVec 64) (c : Ctx) : Prop := wordFault (insArea w) (insSize w) (insIndex w c.y) = 0

/-- `v` is the second operand S (R232): Y or the immediate with AREA = 0, else the memory operand. -/
def OperandS (w : BitVec 64) (c : Ctx) (s : State) (v : Word) : Prop :=
  (insArea w = 0 ∧ (insAux w).testBit 7 = true ∧ v = c.y) ∨
  (insArea w = 0 ∧ (insAux w).testBit 7 = false ∧ v = BitVec.ofNat 32 (insAddr w)) ∨
  (insArea w ≠ 0 ∧ WordIn w c ∧ v = readWord c s (insArea w) (insSize w) (insIndex w c.y))

/-- `c'` is `c` with a signed result `r` limited to 32 bits in X: SAT where it was limited, SATS sticky, ZERO of the stored X (R232). -/
def Ctx.Limited (c c' : Ctx) (r : Int) : Prop :=
  ∃ x : Word, x.toInt = max (-2 ^ 31) (min (2 ^ 31 - 1) r) ∧
    c' = { c with x := x, sat := decide (x.toInt ≠ r), sats := c.sats || decide (x.toInt ≠ r), zero := decide (x = 0) }

/-- `c'`, `s'` are `c`, `s` after a store of `b` to bit element `i` of area `a` (Q in the output buffer, M or W in memory), with
`lb` in LB: the element reads `b` (a reserved element of Q, to which a write is ignored, as before), every other bit element of Q, M and W reads as before, no octet but the element's changes. -/
def Ctx.BitStored (c' : Ctx) (s' : State) (c : Ctx) (s : State) (a i : Nat) (b lb : Bool) : Prop :=
  readBit c' s' a i = (if a = 2 ∧ qKnown (i / 8) = false then readBit c s a i else b) ∧
  (∀ a' j, (a' = 2 ∧ j < bitBound 2 ∨ a' = 3 ∧ j < bitBound 3 ∨ a' = 4 ∧ j < bitBound 4) → (a', j) ≠ (a, i) →
    readBit c' s' a' j = readBit c s a' j) ∧
  (∀ o : Nat, o ≠ (if a = 3 then mBase else wBase) + i / 8 ∨ a = 2 → s'.octet o = s.octet o) ∧
  { s' with mem := s.mem } = s ∧ c' = { c with lb := lb, out := c'.out, kept := c'.kept } ∧ (a ≠ 2 → c'.out = c.out) ∧ (a ≠ 4 → c'.kept = c.kept)

/-- The memory octet at which a word element of M or W begins. -/
def elemOctet (a i : Nat) : Nat := if a = 3 then mBase + i / 8 else wBase + 2 * i

/-- `c'` is `c` with a binary32 result `r` in X; `fin` tells that the operands were finite (R233). -/
def Ctx.FpStored (c : Ctx) (r : Word) (fin : Bool) : Ctx :=
  { c with x := r, sat := fin && fpIsInf r, sats := c.sats || (fin && fpIsInf r), zero := decide (r.toNat % 2 ^ 31 = 0) }

/-- The value of a binary32 operand, a subnormal taken as zero (R233). -/
def fpOperand (w : Word) : Rat := if w.toNat / 2 ^ 23 % 256 = 0 then 0 else fpVal w

/-- Where a binary32 that is no NaN stands in the order: an infinity beyond every finite value. -/
def fpOrder (w : Word) : Rat := if fpIsInf w then (if w.toNat.testBit 31 then -2 ^ 128 else 2 ^ 128) else fpOperand w

/-- The condition of AUX[2:0] on two values (R234). -/
def CmpCond (k : Nat) (a b : Rat) : Prop :=
  match k with
  | 0 => a = b
  | 1 => a ≠ b
  | 2 => b < a
  | 3 => b ≤ a
  | 4 => a < b
  | _ => a ≤ b

/-- `s'` is `s` with timer `i` at these values, its elapsed time `et` at clock `t` (R236); no other octet changed. -/
def State.TimerSet (s' s : State) (i t : Nat) (q run inp : Bool) (et : Nat) : Prop :=
  (s'.timer i).q = q ∧ (s'.timer i).run = run ∧ (s'.timer i).inp = inp ∧ (s'.timer i).et t = et ∧
  (∀ o : Nat, o < tBase + 8 * i ∨ tBase + 8 * i + 8 ≤ o → s'.octet o = s.octet o) ∧ { s' with mem := s.mem } = s

/-- `s'` is `s` with counter `n` at these values (R238); its reserved octets and every other octet as before. -/
def State.CounterSet (s' s : State) (n cv : Nat) (ovf up down : Bool) : Prop :=
  s'.counterCv n = cv ∧ (s'.counterWord n).testBit 31 = ovf ∧ (s'.counterWord n).testBit 30 = up ∧
  (s'.counterWord n).testBit 29 = down ∧
  (∀ o : Nat, o < cBase + 16 * n ∨ cBase + 16 * n + 8 ≤ o → s'.octet o = s.octet o) ∧ { s' with mem := s.mem } = s

/-- The command that executes the instruction word `w` on Heddle `h` (R230–R239; END apart). -/
def heddleIns (h : Fin 4) (w : BitVec 64) : Option Instr :=
  match insOpc w with
  | 0x01 => some (match insComb w with
    | 0 => .ldb h
    | 1 => .andb h
    | 2 => .orb h
    | _ => .xorb h)
  | 0x09 => some (.stb h)
  | 0x0A => some (.setb h)
  | 0x0B => some (.clrb h)
  | 0x0C => some (.notLb h)
  | 0x0D => some (.lbset h)
  | 0x0E => some (.rise h)
  | 0x0F => some (.fall h)
  | 0x18 => some (.grp h)
  | 0x1B => some (.gend h)
  | 0x1C => some (.clsat h)
  | 0x20 => some (.lda h)
  | 0x21 => some (.sta h)
  | 0x22 => some (.swap h)
  | 0x23 => some (.ldcw h)
  | 0x28 => some (.addW h)
  | 0x29 => some (.subW h)
  | 0x2A => some (.mulW h)
  | 0x2B => some (.divW h)
  | 0x2C => some (.modW h)
  | 0x2D => some (.negW h)
  | 0x2E => some (.absW h)
  | 0x2F => some (.addi h)
  | 0x30 => some (.andW h)
  | 0x31 => some (.orW h)
  | 0x32 => some (.xorW h)
  | 0x33 => some (.inv h)
  | 0x34 => some (.shl h)
  | 0x35 => some (.shr h)
  | 0x36 => some (.sar h)
  | 0x37 => some (.rol h)
  | 0x38 => some (.cmp h)
  | 0x40 => some (.fadd h)
  | 0x41 => some (.fsub h)
  | 0x42 => some (.fmul h)
  | 0x43 => some (.fdiv h)
  | 0x44 => some (.fabs h)
  | 0x45 => some (.fneg h)
  | 0x46 => some (.itof h)
  | 0x47 => some (.ftoi h)
  | 0x50 => some (.jmp h)
  | 0x51 => some (.jmpt h)
  | 0x52 => some (.jmpf h)
  | 0x53 => some (.jsat h)
  | 0x54 => some (.loop h)
  | 0x58 => some (.call h)
  | 0x59 => some (.callt h)
  | 0x5A => some (.ret h)
  | 0x60 => some (match insAux w % 4 with
    | 0 => .tmrTp h
    | 1 => .tmrTon h
    | 2 => .tmrTof h
    | _ => .tmrTonr h)
  | 0x61 => some (.trst h)
  | 0x64 => some (.ctu h)
  | 0x65 => some (.ctd h)
  | 0x66 => some (.cld h)
  | 0x67 => some (.crst h)
  | 0x70 => some (.urgc h)
  | 0x71 => some (.trkrst h)
  | 0x72 => some (.trprst h)
  | 0x73 => some (.capt h)
  | 0x74 => some (.ovly h)
  | 0x75 => some (.evtt h)
  | 0x7F => some (.nop h)
  | _ => none

/-! ### Watchman mode (R452) -/

/-- Commands that act outside the domains which Watchman mode gates off: the sample domain, the trip matrix, the claim line, power and resets. -/
def ungated : Instr → Bool
  | .lightAssert _ => true
  | .lightRelease _ => true
  | .arcHoldExpire _ _ => true
  | .watchmanFeedSample _ _ _ _ => true
  | .watchmanDrop _ => true
  | .tripPulseEnd _ => true
  | .tripFbChange _ _ => true
  | .closeWindowEnd _ => true
  | .closePulseEnd _ => true
  | .peerClaimStart => true
  | .peerClaimSilent _ => true
  | .powerGood _ => true
  | .sampleClockLock _ => true
  | .startupCalDone _ => true
  | .laneSample _ _ => true
  | .accWindowEnd _ => true
  | .pfwAssert => true
  | .watchmanEntry => true
  | .watchmanExit => true
  | .resetNAssert _ => true
  | .keepAliveToVbat => true
  | .keepAliveToVddKa => true
  | .restartReset => true
  | .supervisorWatchdogExpiry => true
  | .claimWatchdogExpire => true
  | .railOutOfRange => true
  | .crystalStop => true
  | _ => false

/-! ### Memory -/

/-- Commands that write no octet of memory (Heddle data memory, OTP). -/
def memoryKept : Instr → Bool
  | .lightAssert _ => true
  | .lightRelease _ => true
  | .arcHoldExpire _ _ => true
  | .watchmanDrop _ => true
  | .tripPulseEnd _ => true
  | .tripFbChange _ _ => true
  | .chainRestart _ => true
  | .frameClose _ => true
  | .arrivalDetect _ _ _ _ _ => true
  | .arrivalRearm _ _ _ => true
  | .rotationDue => true
  | .shadowEnd => true
  | .searchStart => true
  | .searchPhaseEnd => true
  | .outOfTurnTakeover _ => true
  | .reelCycleBoundary => true
  | .sampleClockLock _ => true
  | .startupCalDone _ => true
  | .stepInjectionStart _ _ => true
  | .stepInjectionEnd _ _ => true
  | .injectionWatchEnd _ => true
  | .openCheckReversal _ _ => true
  | .laneSample _ _ => true
  | .accWindowEnd _ => true
  | .inputCheckRequest => true
  | .loopValuesReceive _ _ => true
  | .closeCommand _ => true
  | .closeWindowEnd _ => true
  | .closePulseEnd _ => true
  | .pealSlotLoad _ => true
  | .pealSetGout _ => true
  | .pealProfileStart _ => true
  | .pealEventTask _ => true
  | .pealControlledClose _ => true
  | .periodicRelease _ _ => true
  | .eventRelease _ _ => true
  | .executionStart _ => true
  | .freeRunCycleStart _ => true
  | .budgetIdleEnd _ => true
  | .portLinkChange _ _ => true
  | .prpSupervisionSend _ => true
  | .prpSupervisionReceive _ _ => true
  | .lanokTimeout _ => true
  | .svFramePublish _ => true
  | .svStreamLost _ => true
  | .hankConfigResend _ => true
  | .almanacCommit _ _ _ => true
  | .commitLate => true
  | .remoteRecordReceive _ => true
  | .almCurWrite _ => true
  | .almWinW63Read => true
  | .secondBoundary => true
  | .ptpAnnounceTimeout => true
  | .ptpPdelayReqSend => true
  | .ptpPdelayReqReceive _ _ => true
  | .ptpPdelayRespReceive _ _ => true
  | .sourceSwitch _ => true
  | .holdoverExpire => true
  | .leapSecond => true
  | .timeSourceLoss _ => true
  | .recordClose _ => true
  | .isolationTimeout => true
  | .claimDisagreeTimeout => true
  | .claimBackoffEnd => true
  | .peerTripStateReceive _ => true
  | .shipAckReceive => true
  | .shipAckTimeout => true
  | .keepAliveToVbat => true
  | .keepAliveToVddKa => true
  | .crystalStop => true
  | .pfwAssert => true
  | .clusterClockReturn _ => true
  | .thermalThrottleStep _ => true
  | .clusterGateEnter _ _ => true
  | .clusterGateEntryDone _ => true
  | .clusterWake _ => true
  | .telemetryPost => true
  | .attestRefresh => true
  | .attestReportDone => true
  | .attest _ _ => true
  | .debugUnlock _ _ => true
  | .echo _ => true
  | .urgentConvert _ => true
  | .trackerReset _ => true
  | .tripReset _ => true
  | .forceSet _ => true
  | .forceClear _ => true
  | .forceClearAll _ => true
  | .logicRun _ => true
  | .logicStop _ => true
  | .logicHold _ => true
  | .plyYield _ => true
  | .restart _ => true
  | .peerTripResetReceive _ => true
  | .hstEvtPendWrite _ _ => true
  | .hstEvtMaskWrite _ _ => true
  | .kaOnVbatClear _ => true
  | .accSeqRead _ => true
  | .trkMinRead _ => true
  | .trkStatRead _ => true
  | .frmcntLoRead _ => true
  | .measFrmRead _ => true
  | .motStatRead _ => true
  | .cflStatRead _ => true
  | .bstatRead _ => true
  | .timNowLoRead => true
  | .lasttoLoRead => true
  | .ovlTLoRead => true
  | .binTsLoRead _ => true
  | .badHostRead _ _ _ => true
  | .pcieLinkChange _ _ _ => true
  | .calibrationDone _ => true
  | .watchmanFeedSample _ _ _ _ => true
  | .binChange _ _ _ => true
  | .wfdRecordTake _ => true
  | .wfdSupervision _ _ _ _ => true
  | .wfdHoldEnd _ => true
  | .cflLocate _ => true
  | .captureSampleWrite _ => true
  | .captureResultsReceive _ => true
  | .snapshotCopy _ => true
  | .peerCaptureRequest _ _ => true
  | .ptpAnnounceReceive _ _ => true
  | .pealOverlay _ => true
  | .pealCapture _ => true
  | .pealGoosePublish _ => true
  | .gooseStateBuild _ => true
  | .gooseRetransmit _ => true
  | .svReceive _ _ => true
  | .shippedFrameReceive _ => true
  | .copySnapshotTake => true
  | .forwardedCommandReceive _ _ _ => true
  | .peerOverlayReceive _ _ _ => true
  | .almanacValue _ _ _ => true
  | .interruptionMeasureEnd _ => true
  | .intervalBoundary _ => true
  | .keepScanDone => true
  | .reeveCycle _ => true
  | .watchmanEntry => true
  | .captureTrigger _ => true
  | .captureAck _ => true
  | .captureLock _ => true
  | .captureUnlock _ => true
  | .onlineSet _ => true
  | .overlaySet _ => true
  | .hstQTailWrite _ _ => true
  | .hstQHeadWrite _ _ => true
  | .registerWriteOther _ _ _ _ => true
  | .gooseLaunchTimeReached _ => true
  | _ => false

/-! ### Host commands (R483) -/

/-- The device takes the entry `e` at the head of a ring now, and its reserved fields are 0. -/
abbrev State.Offers (s : State) (ring : Nat) (e : HostEntry) : Prop := s.Live ∧ s.takes ring = true ∧ e.resvZero = true

/-- `t` has taken the entry from the ring, and the response with this STATUS and these words stands on Q01. -/
abbrev State.Answered (t s : State) (ring : Nat) (e : HostEntry) (opc status : Nat) (p0 p1 p2 : Word) : Prop :=
  t.qHead ring = (s.qHead ring + 1) % s.qDepth ring % 65536 ∧ t.qTail 1 = (s.qTail 1 + 1) % s.qDepth 1 % 65536 ∧
  tabGet ringEntryInit t.host.slots (1024 + s.qTail 1) = respEntry e.tag.toNat status opc p0 p1 p2

/-- The program fault of the instruction's operand (R241), 0 for none: bit operands, counter operands, STA, and the operands
that are read from memory. -/
def operandFault (w : BitVec 64) (c : Ctx) : Nat :=
  let i := insIndex w c.y
  let o := insOpc w
  if o ∈ [0x01, 0x09, 0x0A, 0x0B, 0x0E, 0x0F, 0x60, 0x61] then (if bitBound (insArea w) ≤ i then 1 else 0)
  else if o ∈ [0x64, 0x65, 0x66, 0x67] then (if cCount ≤ i then 1 else 0)
  else if o = 0x21 ∨ (o ∈ [0x20, 0x28, 0x29, 0x2A, 0x2B, 0x2C, 0x30, 0x31, 0x32, 0x38, 0x40, 0x41, 0x42, 0x43] ∧ insArea w ≠ 0)
  then wordFault (insArea w) (insSize w) i
  else 0

/-- `b'` is the context stack's resumption after an execution of Heddle `h` has left: idle, or the pre-empted execution (R248). -/
def HeddleSt.Resumed (x' x : HeddleSt) : Prop :=
  (x'.run = none ∧ x'.stack = x.stack) ∨ (∃ top rest, x.stack = top :: rest ∧ x'.run = some top ∧ x'.stack = rest)

end Sys2Proof.Machine
end

