-- ==== Sys2Proof/Certificates/Slice0/Obligations.lean ====
section
/-! DEFINITION. The statements about the device: each formalises rules of the spec over the model's `exec` and `step`. -/

open Sys2Proof Sys2Proof.Machine

/-! ### Heddles: bit logic and groups -/

/-- The bit logic and group instructions (R231): what a bit operand reads in I, Q, M, W (as at the latch where an online change has come since, R264), T and C; LDB, ANDB, ORB and XORB load LB or
join it, with the bit inverted by NEG; NOT, LBSET, CLSAT, GRP and GEND; STB (of LB, inverted by
NEG), SETB, CLRB, RISE and FALL on a bit of Q (in the output buffer only; a write to a reserved octet is ignored, R3), M or W, with what reads back, what LB becomes, and that every other bit element and everything but the element's
octet stays (R228). -/
def Obligations.HeddleBitInstructions : Prop :=
  (∀ (s : State) (c : Ctx) (i : Nat),
    readBit c s 1 i = (tabGet 0 c.img (i / 8)).getLsbD (i % 8) ∧ readBit c s 2 i = (qSeen c s (i / 8)).getLsbD (i % 8) ∧
    readBit c s 3 i = (s.octet (mBase + i / 8)).getLsbD (i % 8) ∧ readBit c s 4 i = (c.seen s (wBase + i / 8)).getLsbD (i % 8) ∧
    (tabGet none c.kept i = none → c.seen s i = s.octet i) ∧
    readBit c s 5 i = (s.timer i).q ∧ readBit c s 6 (2 * i) = decide (s.counterCv i ≠ 0) ∧
    readBit c s 6 (2 * i + 1) = (s.counterWord i).testBit 31) ∧
  (∀ (s : State) (h : Fin 4) (c : Ctx) (w : BitVec 64) (r : Bool), s.Ready h 0x01 c w → BitIn w c →
    r = xor (readBit c s (insArea w) (insIndex w c.y)) (insNeg w) →
    (insComb w = 0 → exec (.ldb h) s = s.ranTo h { c.past with lb := r }) ∧
    (insComb w = 1 → exec (.andb h) s = s.ranTo h { c.past with lb := c.lb && r }) ∧
    (insComb w = 2 → exec (.orb h) s = s.ranTo h { c.past with lb := c.lb || r }) ∧
    (insComb w = 3 → exec (.xorb h) s = s.ranTo h { c.past with lb := xor c.lb r })) ∧
  (∀ (s : State) (h : Fin 4) (c : Ctx) (w : BitVec 64),
    (s.Ready h 0x0C c w → exec (.notLb h) s = s.ranTo h { c.past with lb := !c.lb }) ∧
    (s.Ready h 0x0D c w → exec (.lbset h) s = s.ranTo h { c.past with lb := !insNeg w }) ∧
    (s.Ready h 0x1C c w → exec (.clsat h) s = s.ranTo h { c.past with sats := false }) ∧
    (s.Ready h 0x18 c w → exec (.grp h) s = s.ranTo h { c.past with groups := (c.lb, insComb w) :: c.groups }) ∧
    (∀ (v : Bool) (op : Nat) (l : List (Bool × Nat)), s.Ready h 0x1B c w → c.groups = (v, op) :: l →
      (op = 1 → exec (.gend h) s = s.ranTo h { c.past with lb := v && xor c.lb (insNeg w), groups := l }) ∧
      (op = 2 → exec (.gend h) s = s.ranTo h { c.past with lb := v || xor c.lb (insNeg w), groups := l }) ∧
      (op = 3 → exec (.gend h) s = s.ranTo h { c.past with lb := xor v (xor c.lb (insNeg w)), groups := l }))) ∧
  (∀ (s : State) (h : Fin 4) (c : Ctx) (w : BitVec 64) (a i : Nat) (m : Bool), insArea w = a → a = 2 ∨ a = 3 ∨ a = 4 → BitIn w c →
    insIndex w c.y = i → readBit c s a i = m →
    (s.Ready h 0x09 c w → ∃ (c' : Ctx) (s' : State), exec (.stb h) s = s'.ranTo h c' ∧ c'.BitStored s' c.past s a i (xor c.lb (insNeg w)) c.lb) ∧
    (s.Ready h 0x0A c w → ∃ (c' : Ctx) (s' : State), exec (.setb h) s = s'.ranTo h c' ∧ c'.BitStored s' c.past s a i (c.lb || m) c.lb) ∧
    (s.Ready h 0x0B c w → ∃ (c' : Ctx) (s' : State), exec (.clrb h) s = s'.ranTo h c' ∧ c'.BitStored s' c.past s a i (!c.lb && m) c.lb) ∧
    (s.Ready h 0x0E c w → ∃ (c' : Ctx) (s' : State), exec (.rise h) s = s'.ranTo h c' ∧ c'.BitStored s' c.past s a i c.lb (c.lb && !m)) ∧
    (s.Ready h 0x0F c w → ∃ (c' : Ctx) (s' : State), exec (.fall h) s = s'.ranTo h c' ∧ c'.BitStored s' c.past s a i c.lb (!c.lb && m)))

/-! ### Heddles: moves and arithmetic -/

/-- LDA, STA, SWAP and LDCW (R222, R232).
What a word store changes (R3, R225–R228): the element reads the stored value, every octet of memory outside the accessed
element stays, and a store to Q touches the output buffer's octets of the element only; a reserved octet of Q keeps what it held. -/
def Obligations.HeddleMoves : Prop :=
  (∀ (s : State) (h : Fin 4) (c : Ctx) (w : BitVec 64) (v : Word),
    (s.Ready h 0x20 c w → (insArea w = 0 ∧ v = BitVec.ofNat 32 (insAddr w)) ∨
        (insArea w ≠ 0 ∧ WordIn w c ∧ v = readWord c s (insArea w) (insSize w) (insIndex w c.y)) →
      exec (.lda h) s = s.ranTo h (if (insAux w).testBit 0 then { c.past with y := v } else { c.past with x := v })) ∧
    (s.Ready h 0x21 c w → WordIn w c → (v = if (insAux w).testBit 0 then c.y else c.x) →
      exec (.sta h) s = (writeWord c.past s (insArea w) (insSize w) (insIndex w c.y) v).2.ranTo h
        (writeWord c.past s (insArea w) (insSize w) (insIndex w c.y) v).1) ∧
    (s.Ready h 0x22 c w → exec (.swap h) s = s.ranTo h { c.past with x := c.y, y := c.x }) ∧
    (s.Ready h 0x23 c w → v = BitVec.ofNat 32 (c.calls.length * 65536 + c.groups.length * 256 + c.zero.toNat * 8 +
        c.sats.toNat * 4 + c.sat.toNat * 2 + c.lb.toNat) →
      exec (.ldcw h) s = s.ranTo h { c.past with x := v })) ∧
  (∀ (c : Ctx) (s : State) (a size i : Nat) (v : Word), a = 2 ∨ a = 3 ∨ a = 4 → size < 4 → wordFault a size i = 0 →
    ((a = 2 → ∀ k : Nat, k < sizeOctets size → qKnown (i + k) = true) →
      readRaw (writeWord c s a size i v).1 (writeWord c s a size i v).2 a size i = v.toNat % 2 ^ (8 * sizeOctets size)) ∧
    (∀ o : Nat, (a = 2 ∨ o < elemOctet a i ∨ elemOctet a i + sizeOctets size + (if a = 3 ∧ i % 8 ≠ 0 then 1 else 0) ≤ o) →
      (writeWord c s a size i v).2.octet o = s.octet o) ∧
    (∀ o : Nat, (a ≠ 2 ∨ o < i ∨ i + sizeOctets size ≤ o ∨ qKnown o = false) →
      tabGet (0, 0) (writeWord c s a size i v).1.out o = tabGet (0, 0) c.out o) ∧
    { (writeWord c s a size i v).1 with out := c.out, kept := c.kept } = c ∧ (a ≠ 4 → (writeWord c s a size i v).1.kept = c.kept) ∧ { (writeWord c s a size i v).2 with mem := s.mem } = s)

/-- The condition word (R222): LDCW copies into X a word whose bits 0 to 3 are LB, SAT, SATS and ZERO, whose bits 12 to 8 and 19 to 16 are
the depths of the two stacks and whose other bits are 0; at the start of an execution that word is 0. -/
def Obligations.ConditionWord : Prop :=
  (∀ (s : State) (h : Fin 4) (c : Ctx) (w : BitVec 64), s.Ready h 0x23 c w → c.groups.length ≤ 16 → c.calls.length ≤ 8 →
    ∃ x : Word, exec (.ldcw h) s = s.ranTo h { c.past with x := x } ∧ x.getLsbD 0 = c.lb ∧ x.getLsbD 1 = c.sat ∧ x.getLsbD 2 = c.sats ∧
      x.getLsbD 3 = c.zero ∧ (x.extractLsb 12 8).toNat = c.groups.length ∧ (x.extractLsb 19 16).toNat = c.calls.length ∧
      (x.extractLsb 7 4).toNat = 0 ∧ (x.extractLsb 15 13).toNat = 0 ∧ (x.extractLsb 31 20).toNat = 0) ∧
  (∀ (s : State) (h : Fin 4) (r : Rel), s.Live → s.startNext h = some r → s.mayStartRel h r = true → s.gateHolds 2 = false →
    s.hdl.brk = none → ∃ (t : State) (c : Ctx), exec (.executionStart h) s = .next t ∧ (t.heddle h).run = some c ∧ c.lb = false ∧ c.sat = false ∧
      c.sats = false ∧ c.zero = false ∧ c.groups = [] ∧ c.calls = [])

/-- Signed arithmetic is exact and then limited, with SAT, SATS and ZERO; a division by 0 gives the bound of the dividend's sign
or 0 with SAT (R232). Y, LB, the stacks and memory stay.
Bitwise and shift instructions change X and no flag (R232). -/
def Obligations.HeddleInteger : Prop :=
  (∀ (s : State) (h : Fin 4) (c : Ctx) (w : BitVec 64) (v : Word),
    (s.Ready h 0x28 c w → OperandS w c s v → ∃ c' : Ctx, exec (.addW h) s = s.ranTo h c' ∧ c.past.Limited c' (c.x.toInt + v.toInt)) ∧
    (s.Ready h 0x29 c w → OperandS w c s v → ∃ c' : Ctx, exec (.subW h) s = s.ranTo h c' ∧ c.past.Limited c' (c.x.toInt - v.toInt)) ∧
    (s.Ready h 0x2A c w → OperandS w c s v → ∃ c' : Ctx, exec (.mulW h) s = s.ranTo h c' ∧ c.past.Limited c' (c.x.toInt * v.toInt)) ∧
    (s.Ready h 0x2B c w → OperandS w c s v → v ≠ 0 →
      ∃ c' : Ctx, exec (.divW h) s = s.ranTo h c' ∧ c.past.Limited c' (c.x.toInt.tdiv v.toInt)) ∧
    (s.Ready h 0x2B c w → OperandS w c s 0 →
      exec (.divW h) s = s.ranTo h { c.past with
        x := if c.x = 0 then 0 else if c.x.toInt < 0 then 0x80000000 else 0x7FFFFFFF, sat := true, sats := true,
        zero := decide (c.x = 0) }) ∧
    (s.Ready h 0x2C c w → OperandS w c s v → v ≠ 0 →
      ∃ c' : Ctx, exec (.modW h) s = s.ranTo h c' ∧ c.past.Limited c' (c.x.toInt.tmod v.toInt)) ∧
    (s.Ready h 0x2C c w → OperandS w c s 0 →
      exec (.modW h) s = s.ranTo h { c.past with x := 0, sat := true, sats := true, zero := true }) ∧
    (s.Ready h 0x2D c w → ∃ c' : Ctx, exec (.negW h) s = s.ranTo h c' ∧ c.past.Limited c' (-c.x.toInt)) ∧
    (s.Ready h 0x2E c w → ∃ c' : Ctx, exec (.absW h) s = s.ranTo h c' ∧ c.past.Limited c' |c.x.toInt|) ∧
    (s.Ready h 0x2F c w →
      ∃ c' : Ctx, exec (.addi h) s = s.ranTo h c' ∧ c.past.Limited c' (c.x.toInt + (BitVec.ofNat 32 (insAddr w)).toInt))) ∧
  (∀ (s : State) (h : Fin 4) (c : Ctx) (w : BitVec 64) (v : Word) (n : Nat), n = insAux w % 32 →
    (s.Ready h 0x30 c w → OperandS w c s v → exec (.andW h) s = s.ranTo h { c.past with x := c.x &&& v }) ∧
    (s.Ready h 0x31 c w → OperandS w c s v → exec (.orW h) s = s.ranTo h { c.past with x := c.x ||| v }) ∧
    (s.Ready h 0x32 c w → OperandS w c s v → exec (.xorW h) s = s.ranTo h { c.past with x := c.x ^^^ v }) ∧
    (s.Ready h 0x33 c w → exec (.inv h) s = s.ranTo h { c.past with x := ~~~c.x }) ∧
    (s.Ready h 0x34 c w → exec (.shl h) s = s.ranTo h { c.past with x := c.x <<< n }) ∧
    (s.Ready h 0x35 c w → exec (.shr h) s = s.ranTo h { c.past with x := c.x >>> n }) ∧
    (s.Ready h 0x36 c w → exec (.sar h) s = s.ranTo h { c.past with x := c.x.sshiftRight n }) ∧
    (s.Ready h 0x37 c w → exec (.rol h) s = s.ranTo h { c.past with x := c.x.rotateLeft n }))

/-! ### Heddles: floating point and compare -/

/-- Floating-point instructions store the result of the exact operation rounded, with SAT, SATS and ZERO; a NaN result stores some
NaN with SAT (R233). FABS, FNEG, ITOF and FTOI (R233): a subnormal is zero of the same sign; FTOI gives 0 with SAT for a NaN and the bound with SAT
beyond the integer range.
Sum, product and quotient of finite operands are the nearest binary32 to the exact value, ties to even, unless the exact value is
below the least normal number or the result overflows to an infinity (R233). -/
def Obligations.HeddleFloat : Prop :=
  ((∀ (s : State) (h : Fin 4) (c : Ctx) (w : BitVec 64) (v : Word) (op : FpNum → FpNum → FpRes) (i : Instr) (opc : Nat),
    ((opc, i) = (0x40, .fadd h) ∧ op = fpAdd) ∨ ((opc, i) = (0x41, .fsub h) ∧ op = fun a b => fpAdd a (fpNegate b)) ∨
      ((opc, i) = (0x42, .fmul h) ∧ op = fpMul) ∨ ((opc, i) = (0x43, .fdiv h) ∧ op = fpDiv) →
    s.Ready h opc c w → OperandS w c s v →
    (∀ r : Word, op (fpDecode c.x) (fpDecode v) = .word r →
      exec i s = s.ranTo h (c.past.FpStored r (fpIsFinite c.x && fpIsFinite v))) ∧
    (op (fpDecode c.x) (fpDecode v) = .nan → ∃ x : Word, fpIsNan x = true ∧
      exec i s = State.ranTo { s with freeSeq := s.freeSeq + 1 } h { c.past with x := x, sat := true, sats := true, zero := false })) ∧
  (∀ (s : State) (h : Fin 4) (c : Ctx) (w : BitVec 64),
    (s.Ready h 0x44 c w → exec (.fabs h) s = s.ranTo h (c.past.FpStored
      (if c.x.toNat / 2 ^ 23 % 256 = 0 then 0 else c.x &&& 0x7FFFFFFF) false)) ∧
    (s.Ready h 0x45 c w → exec (.fneg h) s = s.ranTo h (c.past.FpStored
      (if c.x.toNat / 2 ^ 23 % 256 = 0 then (c.x ^^^ 0x80000000) &&& 0x80000000 else c.x ^^^ 0x80000000) false)) ∧
    (s.Ready h 0x46 c w → ∃ r : Word, exec (.itof h) s = s.ranTo h (c.past.FpStored r false) ∧
      ∀ y : Word, fpIsFinite y = true → |fpVal r - c.x.toInt| ≤ |fpVal y - c.x.toInt|) ∧
    (s.Ready h 0x47 c w → fpIsNan c.x = true →
      exec (.ftoi h) s = s.ranTo h { c.past with x := 0, sat := true, sats := true, zero := true }) ∧
    (s.Ready h 0x47 c w → fpIsInf c.x = true → exec (.ftoi h) s = s.ranTo h { c.past with
      x := if c.x.toNat = 0xFF800000 then 0x80000000 else 0x7FFFFFFF, sat := true, sats := true, zero := false }) ∧
    (s.Ready h 0x47 c w → fpIsFinite c.x = true → ∃ (c' : Ctx) (n : Int), exec (.ftoi h) s = s.ranTo h c' ∧ c.past.Limited c' n ∧
      ∀ k : Int, |(n : Rat) - fpOperand c.x| ≤ |(k : Rat) - fpOperand c.x|))) ∧
  (∀ (a b r y : Word) (e : Rat), fpIsFinite a = true → fpIsFinite b = true → fpIsFinite r = true → fpIsFinite y = true →
    1 / 2 ^ 126 ≤ |e| →
    (fpAdd (fpDecode a) (fpDecode b) = .word r ∧ e = fpOperand a + fpOperand b) ∨
      (fpMul (fpDecode a) (fpDecode b) = .word r ∧ e = fpOperand a * fpOperand b) ∨
      (fpDiv (fpDecode a) (fpDecode b) = .word r ∧ fpOperand b ≠ 0 ∧ e = fpOperand a / fpOperand b) →
    |fpVal r - e| ≤ |fpVal y - e| ∧ (|fpVal r - e| = |fpVal y - e| → r = y ∨ r.toNat % 2 = 0))

/-- CMP: the condition of AUX[2:0] on X and S, as signed integers or binary32, joins LB under COMB and NEG; with a NaN only ≠ holds
(R234). X, Y, SAT and ZERO stay. -/
def Obligations.HeddleCompare : Prop :=
  ∀ (s : State) (h : Fin 4) (c : Ctx) (w : BitVec 64) (v : Word) (k : Nat) (r n l : Bool), s.Ready h 0x38 c w → OperandS w c s v →
    k = insAux w % 8 → k < 6 →
    ((insAux w).testBit 3 = false → (r = true ↔ CmpCond k c.x.toInt v.toInt)) →
    ((insAux w).testBit 3 = true → fpIsNan c.x = true ∨ fpIsNan v = true → (r = true ↔ k = 1)) →
    ((insAux w).testBit 3 = true → fpIsNan c.x = false → fpIsNan v = false → (r = true ↔ CmpCond k (fpOrder c.x) (fpOrder v))) →
    n = xor r (insNeg w) →
    (l = if insComb w = 0 then n else if insComb w = 1 then c.lb && n else if insComb w = 2 then c.lb || n else xor c.lb n) →
    exec (.cmp h) s = s.ranTo h { c.past with lb := l }

/-! ### Heddles: control -/

/-- Jumps, LOOP, CALL, CALLT, RET and NOP (R235). -/
def Obligations.HeddleControl : Prop :=
  ∀ (s : State) (h : Fin 4) (c : Ctx) (w : BitVec 64) (a : Nat), a = insAddr w % 65536 →
    (s.Ready h 0x50 c w → exec (.jmp h) s = s.ranTo h { c.past with pc := a }) ∧
    (s.Ready h 0x51 c w → exec (.jmpt h) s = s.ranTo h { c.past with pc := if c.lb then a else c.pc + 1 }) ∧
    (s.Ready h 0x52 c w → exec (.jmpf h) s = s.ranTo h { c.past with pc := if c.lb then c.pc + 1 else a }) ∧
    (s.Ready h 0x53 c w → exec (.jsat h) s = s.ranTo h { c.past with pc := if c.sat then a else c.pc + 1 }) ∧
    (s.Ready h 0x54 c w → exec (.loop h) s = s.ranTo h { c.past with
      x := c.x - 1, pc := if c.x = 1 then c.pc + 1 else a }) ∧
    (s.Ready h 0x58 c w → exec (.call h) s = s.ranTo h { c.past with calls := (c.pc + 1) :: c.calls, pc := a }) ∧
    (s.Ready h 0x59 c w → exec (.callt h) s =
      s.ranTo h (if c.lb then { c.past with calls := (c.pc + 1) :: c.calls, pc := a } else c.past)) ∧
    (∀ (p : Nat) (l : List Nat), s.Ready h 0x5A c w → c.calls = p :: l →
      exec (.ret h) s = s.ranTo h { c.past with pc := p, calls := l }) ∧
    (s.Ready h 0x7F c w → exec (.nop h) s = s.ranTo h c.past)

/-! ### Heddles: timers and counters -/

/-- TMR in mode TP and in mode TON, by the rows of R237: Q, RUN and the elapsed time after the execution, INP and LB. TMR in mode TOF and in mode TONR, and TRST (R237). -/
def Obligations.HeddleTimers : Prop :=
  (∀ (s : State) (h : Fin 4) (c : Ctx) (w : BitVec 64) (i pt et : Nat) (x : Timer), s.Ready h 0x60 c w → insArea w = 5 → BitIn w c →
    i = insIndex w c.y → pt = min c.x.toNat (2 ^ 29 - 1) → x = s.timer i → et = x.et c.clk →
    (insAux w % 4 = 0 → ∃ (s' : State) (q run : Bool) (et' : Nat), exec (.tmrTp h) s = s'.ranTo h { c.past with lb := q } ∧
      s'.TimerSet s i c.clk q run c.lb et' ∧
      (x.run = false → c.lb = true → x.inp = false → q = decide (0 < pt) ∧ run = decide (0 < pt) ∧ et' = 0) ∧
      (x.run = true → et < pt → q = x.q ∧ run = true ∧ et' = et) ∧
      (x.run = true → pt ≤ et → q = false ∧ run = false ∧ et' = if c.lb then et else 0) ∧
      (x.run = false → (c.lb = false ∨ x.inp = true) → q = x.q ∧ run = false ∧ et' = if c.lb then et else 0)) ∧
    (insAux w % 4 = 1 → ∃ (s' : State) (q run : Bool) (et' : Nat), exec (.tmrTon h) s = s'.ranTo h { c.past with lb := q } ∧
      s'.TimerSet s i c.clk q run c.lb et' ∧
      (c.lb = false → q = false ∧ run = false ∧ et' = 0) ∧
      (c.lb = true → x.q = true → x.run = false → q = true ∧ run = false ∧ et' = et) ∧
      (c.lb = true → (x.q = false ∨ x.run = true) → et < pt → q = x.q ∧ run = true ∧ et' = et) ∧
      (c.lb = true → (x.q = false ∨ x.run = true) → pt ≤ et → q = true ∧ run = false ∧ et' = et))) ∧
  (∀ (s : State) (h : Fin 4) (c : Ctx) (w : BitVec 64) (i pt et : Nat) (x : Timer), insArea w = 5 → BitIn w c →
    i = insIndex w c.y → pt = min c.x.toNat (2 ^ 29 - 1) → x = s.timer i → et = x.et c.clk →
    (s.Ready h 0x60 c w → insAux w % 4 = 2 →
      ∃ (s' : State) (q run : Bool) (et' : Nat), exec (.tmrTof h) s = s'.ranTo h { c.past with lb := q } ∧
      s'.TimerSet s i c.clk q run c.lb et' ∧
      (c.lb = true → q = true ∧ run = false ∧ et' = 0) ∧
      (c.lb = false → x.inp = true → pt = 0 → q = false ∧ run = false ∧ et' = 0) ∧
      (c.lb = false → x.inp = true → 0 < pt → q = x.q ∧ run = true ∧ et' = 0) ∧
      (c.lb = false → x.inp = false → x.run = true → et < pt → q = x.q ∧ run = true ∧ et' = et) ∧
      (c.lb = false → x.inp = false → x.run = true → pt ≤ et → q = false ∧ run = false ∧ et' = et) ∧
      (c.lb = false → x.inp = false → x.run = false → q = x.q ∧ run = false ∧ et' = et)) ∧
    (s.Ready h 0x60 c w → insAux w % 4 = 3 → ∃ s' : State,
      exec (.tmrTonr h) s = s'.ranTo h { c.past with lb := x.q || decide (pt ≤ et) } ∧
      s'.TimerSet s i c.clk (x.q || decide (pt ≤ et)) c.lb c.lb et) ∧
    (s.Ready h 0x61 c w → ∃ s' : State, exec (.trst h) s = s'.ranTo h c.past ∧
      (c.lb = true → s'.TimerSet s i c.clk false false x.inp 0) ∧ (c.lb = false → s' = s)))

/-- CTU, CTD, CLD and CRST (R238): CV, OVF and the two edge memories; LB and everything else stays. -/
def Obligations.HeddleCounters : Prop :=
  ∀ (s : State) (h : Fin 4) (c : Ctx) (w : BitVec 64) (n cv : Nat) (ovf up down : Bool), n = insIndex w c.y → n < cCount →
    cv = s.counterCv n → ovf = (s.counterWord n).testBit 31 → up = (s.counterWord n).testBit 30 →
    down = (s.counterWord n).testBit 29 →
    (s.Ready h 0x64 c w → ∃ s' : State, exec (.ctu h) s = s'.ranTo h c.past ∧
      (c.lb = true → up = false → cv < 0xFFFFFFFF → s'.CounterSet s n (cv + 1) ovf true down) ∧
      (c.lb = true → up = false → cv = 0xFFFFFFFF → s'.CounterSet s n cv true true down) ∧
      (c.lb = false ∨ up = true → s'.CounterSet s n cv ovf c.lb down)) ∧
    (s.Ready h 0x65 c w → ∃ s' : State, exec (.ctd h) s = s'.ranTo h c.past ∧
      (c.lb = true → down = false → 0 < cv → s'.CounterSet s n (cv - 1) ovf up true) ∧
      (c.lb = true → down = false → cv = 0 → s'.CounterSet s n 0 true up true) ∧
      (c.lb = false ∨ down = true → s'.CounterSet s n cv ovf up c.lb)) ∧
    (s.Ready h 0x66 c w → ∃ s' : State, exec (.cld h) s = s'.ranTo h c.past ∧
      (c.lb = true → s'.CounterSet s n c.x.toNat false up down) ∧ (c.lb = false → s' = s)) ∧
    (s.Ready h 0x67 c w → ∃ s' : State, exec (.crst h) s = s'.ranTo h c.past ∧
      (c.lb = true → s'.CounterSet s n 0 false up down) ∧ (c.lb = false → s' = s))

/-! ### Heddles: device instructions, faults, the end of an execution -/

/-- What the device instructions do when LB = 1 (R239): URGC a pending urgent conversion (R49); TRKRST a cleared tracker (R60);
TRPRST a reset that waits for the minimum pulse, nothing with RST_LOGIC = 0 (R140); CAPT an extended record (R207); OVLY an
activation at T_apply (R433); EVTT a release (R250). A device instruction acts only when LB = 1 (R239). -/
def Obligations.HeddleDevice : Prop :=
  (∀ (s : State) (h : Fin 4) (c : Ctx) (w : BitVec 64) (a : Nat), a = insAddr w → c.lb = true →
    (∀ k p n : Nat, s.Ready h 0x70 c w → k = a / 65536 % 32 → p = a / 256 % 128 →
      (k < 16 ∧ p ≤ 10) ∨ (k = 16 ∧ p ≤ 107 ∧ s.s16Away = false) → s.firstOpen k = some n →
      (s.slice k).urgent = none →
      exec (.urgc h) s = (s.setSlice k { s.slice k with
        urgent := some { src := 1, pos := p, gain := a % 4, came := s.slotNow, slot := n, tag := 0, heddle := 0 } }).ranTo h c.past) ∧
    (∀ x : Nat, s.Ready h 0x71 c w → x = a % 128 → ∃ s' : State, exec (.trkrst h) s = s'.ranTo h c.past ∧
      s'.reg (A.ACQ_TRK_MIN x) = 0 ∧ s'.reg (A.ACQ_TRK_MAX x) = 0 ∧ s'.reg (A.ACQ_TRK_FLG x) = 0 ∧
      s'.bit (A.ACQ_TRK_STAT x) 29 = true ∧ { s' with regs := s.regs } = s) ∧
    (∀ x : Nat, s.Ready h 0x72 c w → x = a % 32 →
      (s.bit (A.PRT_TCH_CFG x) 28 = false → exec (.trprst h) s = s.ranTo h c.past) ∧
      (s.bit (A.PRT_TCH_CFG x) 28 = true → s.bit A.PRT_TCH_STATE x = true → s.channelLatched x = true →
        s.fld A.PRT_STAT F.PRT_STAT_WM_SRC = 2 → s.channelSource x = false → s.bit A.PRT_TCH_PULSE x = true →
        ∃ s' : State, exec (.trprst h) s = s'.ranTo h c.past ∧ x ∈ s'.trip.resetDue ∧ { s' with trip := s.trip } = s)) ∧
    (∀ (p e : Nat) (r : CapRec) (l : List Nat), s.Ready h 0x73 c w → p = a % 16 → s.bit (A.CAP_PLAN_CFG p) 31 = true →
      s.bit (A.CAP_PLAN_CFG p) 30 = false → (s.capPlan p).open_ = e :: l → s.capRec e = some r → r.shut = false → s.tim.now ≤ r.endT →
      s.tim.now ≤ r.first + 8000000000 → ∃ s' : State, exec (.capt h) s = s'.ranTo h c.past ∧ s'.capRec e = some { r with
        endT := min (max r.endT (s.tim.now + r.post)) (r.first + 8000000000), count := min (r.count + 1) 65535,
        flags := r.flags ||| 2 }) ∧
    (∀ k : Nat, s.Ready h 0x74 c w → k = a % 16 → s.mayStart = true → s.role ≠ 1 →
      (s.ovlUsable k = false → ∃ s' : State, exec (.ovly h) s = s'.ranTo h c.past ∧ s'.cfg = s.cfg) ∧
      (s.ovlUsable k = true → (s.cfg.acts.filter (fun b => b.src == 3)).length < 4 →
        ∃ (s' : State) (t : Nat), exec (.ovly h) s = s'.ranTo h c.past ∧ { k := k, t := t, src := 1 } ∈ s'.cfg.acts ∧
          s.tim.now + 5000000 ≤ t ∧ t < s.tim.now + 15000000 ∧ t % 10000000 = 0)) ∧
    (∀ g t : Nat, s.Ready h 0x75 c w → g = a / 16 % 4 → t = 16 + a % 16 → s.bit (A.HDL_TCFG g t) 31 = true →
      s.bit (A.HDL_TCFG g t) 30 = true → s.logicMode = 0 → (∀ r ∈ (s.heddle g).rels, r.task ≠ t) → (s.heddle g).rels.length < 16 →
      exec (.evtt h) s = ((s.setHeddle g { s.heddle g with
        rels := (s.heddle g).rels ++ [{ task := t, at_ := s.tim.now }] }).wakeFor 2).ranTo h c.past)) ∧
  (∀ (s : State) (h : Fin 4) (c : Ctx) (w : BitVec 64) (i : Instr) (opc : Nat), 0x70 ≤ opc → opc ≤ 0x75 → s.Ready h opc c w →
    heddleIns h w = some i → c.lb = false → exec i s = s.ranTo h c.past)

/-- A program fault (R241): past the instruction limit (code 3), or an operand outside its area (1) or misaligned (2). The fault is
recorded with its position, the instruction has no effect on memory and Q, and the execution leaves the Heddle. -/
def Obligations.HeddleProgramFault : Prop :=
  ∀ (s : State) (h : Fin 4) (c : Ctx) (w : BitVec 64) (i : Instr) (code : Nat), s.nextIns h = some (c, w) → s.mayRun h c = true →
    heddleIns h w = some i → (c.limit ≤ c.count ∧ code = 3) ∨ (c.count < c.limit ∧ operandFault w c = code ∧ code ≠ 0) →
    c.pc < 65536 → c.task < 32 →
    ∃ t : State, exec i s = .next t ∧
      t.reg (A.HDL_PFLT h) = BitVec.ofNat 32 (c.pc * 65536 + s.taskNumber c.task * 256 + code) ∧
      (s.logicMode = 0 → t.mem = s.mem) ∧ HeddleSt.Resumed (t.heddle h) (s.heddle h)

/-- END (R235, R254): every Q octet takes what the execution wrote, as one unit, and keeps its value where it wrote nothing; memory
outside Q stays, and the execution leaves the Heddle.
The breakpoint of LOGIC_HOLD (R260): the first execution that reaches the armed index stops before it, the logic is held, and
the breakpoint is no longer armed. -/
def Obligations.HeddleEnd : Prop :=
  (∀ (s : State) (h : Fin 4) (c : Ctx) (w : BitVec 64), s.Live → s.Ready h 0x5B c w → s.logicMode = 0 → s.forces 2 = [] →
    List.Nodup (c.out.map (·.1)) → (∀ e ∈ c.out, e.1 < qLen) →
    ∃ t : State, exec (.endExec h) s = .next t ∧ (∀ o : Nat, o < qLen → t.octet (qBase + o) =
        maskByte (tabGet (0, 0) c.out o).1 (tabGet (0, 0) c.out o).2 (s.octet (qBase + o))) ∧
      (∀ o : Nat, o < qBase ∨ mBase ≤ o → t.octet o = s.octet o) ∧ HeddleSt.Resumed (t.heddle h) (s.heddle h)) ∧
  (∀ (s : State) (h : Fin 4) (c : Ctx) (w : BitVec 64), s.Ready h 0x7F c w → s.logicMode = 0 →
    (s.hdl.brk = some (c.pc + 1) → ∃ t : State, exec (.nop h) s = .next t ∧ t.hdl.brk = none ∧ t.logicMode = 2 ∧
      (t.heddle h).run = some c.past) ∧
    (s.hdl.brk ≠ some (c.pc + 1) → exec (.nop h) s = .next (s.putCtx h c.past)))

/-! ### Heddles: releases and T_apply -/

/-- A periodic release that falls due is queued at its instant and wakes the Heddles' cluster (R15, R18), or is skipped while the task is released
or running (R249); an event release is queued (R250); the idle time of a free-run Heddle ends (R252). An execution starts with its registers, CW and stacks cleared and the inputs latched, pre-empting a task of lower priority
(R221, R224, R248); a free-run cycle starts with every declared periodic task in its order (R251). -/
def Obligations.HeddleReleases : Prop :=
  (∀ (s : State) (h : Fin 4) (k : Fin 16), s.Live →
    (∀ u : Nat, s.bit (A.HDL_TCFG h k) 31 = true → s.bit A.HDL_STAT 29 = false → 0 < s.taskPeriod h k →
      tabGet none (s.heddle h).lastRel k.val = some u → u ≤ s.tim.now → s.tim.now < u + s.taskPeriod h k → s.logicMode = 0 →
      (s.taskBusy h k = false → (s.heddle h).rels.length < 16 → ∃ t : State, exec (.periodicRelease h k) s = .next t ∧
        (t.heddle h).rels = (s.heddle h).rels ++ [{ task := k.val, at_ := u }] ∧
        tabGet none (t.heddle h).lastRel k.val = some (u + s.taskPeriod h k) ∧ State.Woken { t with hdl := s.hdl } s 2) ∧
      (s.taskBusy h k = true → ∃ t : State, exec (.periodicRelease h k) s = .next t ∧
        (t.heddle h).rels = (s.heddle h).rels ∧ tabGet none (t.heddle h).lastRel k.val = some (u + s.taskPeriod h k))) ∧
    (32 * h.val + 16 + k.val ∈ s.hdl.evReq → s.bit (A.HDL_TCFG h (16 + k.val)) 31 = true →
      s.bit (A.HDL_TCFG h (16 + k.val)) 30 = true → s.logicMode = 0 → (∀ r ∈ (s.heddle h).rels, r.task ≠ 16 + k.val) →
      (s.heddle h).rels.length < 16 → ∃ t : State, exec (.eventRelease h k) s = .next t ∧ t.hdl.evReq = s.hdl.evReq.erase (32 * h.val + 16 + k.val) ∧
        (t.heddle h).rels = (s.heddle h).rels ++ [{ task := 16 + k.val, at_ := s.tim.now }] ∧ State.Woken { t with hdl := s.hdl } s 2) ∧
    (∀ u : Nat, (s.heddle h).idleUntil = some u → u ≤ s.tim.now →
      exec (.budgetIdleEnd h) s = .next (s.setHeddle h { s.heddle h with idleUntil := none }))) ∧
  (∀ (s : State) (h : Fin 4), s.Live →
    (∀ r : Rel, s.startNext h = some r → s.mayStartRel h r = true → s.gateHolds 2 = false → s.hdl.brk = none →
      ∃ (t : State) (c : Ctx), exec (.executionStart h) s = .next t ∧ (t.heddle h).run = some c ∧
        c.task = r.task ∧ c.lb = false ∧ c.x = 0 ∧ c.y = 0 ∧ c.sat = false ∧ c.sats = false ∧ c.zero = false ∧ c.groups = [] ∧
        c.calls = [] ∧ c.out = [] ∧ c.count = 0 ∧ c.clk = s.tim.logic / 1000000 ∧
        (s.forces 1 = [] → c.img = s.rawImage) ∧
        (t.heddle h).stack = (match (s.heddle h).run with
          | some p => p :: (s.heddle h).stack
          | none => (s.heddle h).stack) ∧ r ∉ (t.heddle h).rels) ∧
    (s.bit A.HDL_STAT 29 = true → s.logicMode = 0 → (s.heddle h).inCycle = false → (s.heddle h).idleUntil = none →
      (∀ u, (s.heddle h).cycStart = some u → u + 250000 ≤ s.tim.now) → s.cycleTasks h ≠ [] →
      ∃ t : State, exec (.freeRunCycleStart h) s = .next t ∧ (t.heddle h).inCycle = true ∧
        (t.heddle h).cycStart = some s.tim.now ∧ (t.heddle h).cycQ = s.cycleTasks h ∧ (t.heddle h).run = (s.heddle h).run))

/-- The sweep of the timers makes no difference to any elapsed time (R236): at a sweep every timer keeps Q, RUN, INP and ET. At T_apply an online change of a constant replaces its word and no other octet, is remembered and raises its event (R262), while an execution that latched before it sees the old word (R264); a
released force table entry is cleared (R256). -/
def Obligations.HeddleTimedActions : Prop :=
  (∀ (s : State), s.Live → ∃ t : State, exec .timerSweep s = .next t ∧ { t with mem := s.mem } = s ∧
    (∀ o : Nat, o < tBase ∨ cBase ≤ o → t.octet o = s.octet o) ∧
    (∀ n : Nat, n < tCount → (t.timer n).q = (s.timer n).q ∧ (t.timer n).run = (s.timer n).run ∧ (t.timer n).inp = (s.timer n).inp ∧
      (t.timer n).et (s.tim.logic / 1000000) = (s.timer n).et (s.tim.logic / 1000000)) ∧
    (s.tim.logic / 1000000 % 2 ^ 20 = 0 → 0 < s.tim.logic / 1000000 → ∀ n : Nat, n < tCount → (s.timer n).run = true →
      (t.timer n).stamp = s.tim.logic / 1000000 % 2 ^ 32)) ∧
  (∀ (s : State) (u : Nat), s.Live → u ≤ s.tim.now →
    (∀ (i : Nat) (v : Word) (x : Tunable), s.hdl.acts = [(u, .online i v)] → s.hdl.tunables[i]? = some x → x.area = 7 →
      ∃ t : State, exec .onlineApply s = .next t ∧ t.hdl.acts = [] ∧ BitVec.ofNat 32 (t.octetsLE (kBase + 4 * x.index) 4) = v ∧
        (∀ o : Nat, o < kBase + 4 * x.index ∨ kBase + 4 * x.index + 4 ≤ o → t.octet o = s.octet o) ∧
        tabGet none t.hdl.online i = some v ∧
        (∀ (h : Fin 4) (c : Ctx), (s.heddle h).run = some c → ∃ c' : Ctx, (t.heddle h).run = some c' ∧
          ∀ o : Nat, c'.seen t o = c.seen s o)) ∧
    (∀ e : Nat, e < 256 → s.hdl.acts = [(u, .unforce e)] → s.bit (A.HDL_FRC_CFG e) 31 = true →
      ∃ t : State, exec .onlineApply s = .next t ∧ t.hdl.acts = [] ∧ t.reg (A.HDL_FRC_CFG e) = 0 ∧ t.reg (A.HDL_FRC_VAL e) = 0 ∧
        t.mem = s.mem))

/-! ### Acquisition -/

/-- A lane sample of a single conversion (R34, R36, R54, R61): once the newest conversion is available, the calibrated value, limited to full scale with
CLIPPED at a limit, VALID unless the path has failed, RANGE by the gain. A complete accumulator window is copied as one unit, counted in SEQ, and the bank
restarts (R58). -/
def Obligations.LaneResults : Prop :=
  ∀ (s : State) (lane : Fin 128) (x : Nat), x = lane.val →
    (∀ (d : LaneIn) (code : Int) (m : CalVal) (k n : Nat), s.laneConverts x = true → s.laneNewest x = some k → (s.lane x).k < k →
      (s.lane x).from_ ≤ s.laneFirst x k → s.laneRep x = 1 → d.codes = [code] → n = s.convAt (s.laneSlice x) (s.laneInstant x k) →
      s.convState n ≠ 3 → m = s.calCode x n code → ∃ (t : State) (f : SampleFlags), exec (.laneSample lane d) s = .next t ∧
        (t.lane x).last = some ({ v := m.v, f := f }, s.tim.smp) ∧ (t.lane x).k = k ∧ f.getLsbD 7 = !s.laneFailed x ∧
        f.getLsbD 5 = m.clipped ∧ f.getLsbD 4 = decide (s.laneGain x ≠ 0) ∧
        (s.laneAux x = false → -(2 : Int) ^ (23 - s.laneGain x) ≤ m.v ∧ m.v ≤ min (2 ^ (23 - s.laneGain x)) (2 ^ 23 - 1))) ∧
    (s.windowDone x (ratMin (s.laneInstant x ((s.lane x).k + 1)) (s.tim.smp : Rat)) = true → ∃ t : State, exec (.accWindowEnd lane) s = .next t ∧
      t.reg (A.ACQ_ACC_SEQ x) = s.reg (A.ACQ_ACC_SEQ x) + 1 ∧
      t.reg (A.ACQ_ACC_CNT x) = BitVec.ofNat 32 ((s.lane x).cnt % 2 ^ 21) ∧
      t.reg (A.ACQ_ACC_SUM_LO x) = BitVec.ofNat 32 (BitVec.ofInt 64 (s.lane x).sum).toNat ∧
      (t.lane x).sum = 0 ∧ (t.lane x).ssq = 0 ∧ (t.lane x).cnt = 0)

/-- An urgent conversion is delivered to its source, with TEST set, once its open slot's result is available (R36, R50–R53); every 1 ms a
test conversion is requested on each slice that has an open slot and none pending (R79). -/
def Obligations.UrgentConversions : Prop :=
  ∀ (s : State) (slice : Fin 17) (k : Nat), s.Live → k = slice.val →
    (∀ (u : Urgent) (code : Int) (n : Nat), (s.slice k).urgent = some u → s.slotDone u.slot = true →
      n = s.convAt k (slotStart ((u.slot : Rat) + 1 / 8)) →
      ∃ (t : State) (w : Word), exec (.urgentServe slice code) s = .next t ∧ (t.slice k).urgent = none ∧
        w.toNat / 256 = (BitVec.ofInt 24 (s.urgentVal k u.pos u.gain n u.slot code).v).toNat ∧ w.getLsbD 3 = true ∧
        (u.src = 1 → t.reg A.ACQ_URG_RES_HDL = w ∧ BitVec.ofNat 32 (t.octetsLE (iBase + 0xB0) 4) = w ∧
          BitVec.ofNat 32 (t.octetsLE (iBase + 0xB4) 4) = BitVec.ofNat 32 (s.octetsLE (iBase + 0xB4) 4 + 1)) ∧
        (u.src = 2 → t.reg A.ACQ_URG_RES_HOST = w)) ∧
    ((∀ u, s.acq.diagLast = some u → u + 1000000 ≤ s.tim.up) → s.bit A.PWR_DOMAIN_STAT 1 = true →
      ∃ t : State, exec .inputCheckRequest s = .next t ∧ t.acq.diagLast = some s.tim.up ∧
        (∀ n : Nat, s.firstOpen k = some n → (s.slice k).urgent = none → k < 16 ∨ s.s16Away = false →
          (∀ p, p = testPoint k ((s.slice k).test + 1) →
            (t.slice k).urgent = some { src := 0, pos := p.1, gain := p.2, came := s.slotNow, slot := n, tag := 0, heddle := 0 }) ∧
          (t.slice k).test = ((s.slice k).test + 1) % 6))

/-- Rotation (R68–R75): shadowing starts with the slice of NEXT at a Reel cycle boundary; after 64 Reel cycles the spare takes the slice over and the
released converter calibrates; an accepted calibration replaces the tables, a rejected one is repeated once and then retires the
converter. Take-overs left due by the start-up calibration are made at a cycle boundary. -/
def Obligations.ConverterRotation : Prop :=
  ∀ (s : State), s.Live →
    (s.rotFree = true → s.bit A.CAL_ROT_CFG 31 = true → s.rotDue 1 = true → s.onCycle = true → ∃ t : State, exec .rotationDue s = .next t ∧
      t.acq.use = .shadow (s.fld A.CAL_STAT F.CAL_STAT_NEXT) 0 s.slotNow 0 false ∧ t.acq.rotLast = some s.tim.up) ∧
    (∀ (k start n : Nat) (m : Bool), s.acq.use = .shadow k 0 start n m → k < 16 → s.shadowEnded start = true →
      k ∉ s.acq.searchQ → (k + 15) % 16 ∉ s.acq.searchQ → ∃ t : State, exec .shadowEnd s = .next t ∧ t.conv k = s.conv 16 ∧ t.conv 16 = s.conv k ∧
        t.acq.use = .cal (s.conv k) s.tim.up false 0 ∧ (∀ j < 16, j ≠ k → t.conv j = s.conv j)) ∧
    (∀ (n start why : Nat) (second : Bool) (r : CalResult), s.acq.use = .cal n start second why → n < 17 → n = s.conv 16 → why ≠ 2 →
      start + 12000000 ≤ s.tim.up →
      (s.calAccepted n r = true → ∃ t : State, exec (.calibrationDone r) s = .next t ∧ t.acq.use = .idle ∧ t.convState n = 1 ∧
        (∀ (g : Nat) (v : Nat), (calTables r).gain[g]? = some v → t.reg (A.CAL_GAIN n g) = BitVec.ofNat 32 v) ∧
        (∀ (p : Nat) (v : Int), (calTables r).lin[p]? = some v → t.reg (A.CAL_LIN n p) = BitVec.ofNat 32 (BitVec.ofInt 16 v).toNat)) ∧
      (s.calAccepted n r = false → second = false → ∃ t : State, exec (.calibrationDone r) s = .next t ∧
        t.acq.use = .cal n s.tim.up true why ∧ ∀ g < 4, t.reg (A.CAL_GAIN n g) = s.reg (A.CAL_GAIN n g)) ∧
      (s.calAccepted n r = false → second = true → ∃ t : State, exec (.calibrationDone r) s = .next t ∧
        t.acq.use = .idle ∧ t.convState n = 3 ∧ ∀ g < 4, t.reg (A.CAL_GAIN n g) = s.reg (A.CAL_GAIN n g))) ∧
    (∀ (k : Nat) (l : List Nat), s.cfg.switched.isSome = true → s.onCycle = true → s.rotHalted = false → s.acq.attachQ = k :: l → k < 16 →
      ∃ t : State, exec .reelCycleBoundary s = .next t ∧ t.acq.attachQ = l ∧ t.conv k = s.conv 16 ∧ t.conv 16 = s.conv k)

/-- The suspect search (R77) and the out-of-turn take-over (R80): the spare shadows the first slice of the oldest marked pair, then
the second; the slice that alone disagrees is taken over; a slice that failed its tests is taken over. -/
def Obligations.SuspectSearch : Prop :=
  ∀ (s : State), s.Live →
    (∀ (k : Nat) (l : List Nat), s.acq.searchQ = k :: l → (∀ n a b c, s.acq.use ≠ .cal n a b c) → s.acq.search = none →
      s.rotHalted = false → s.acq.calStart = none → s.onCycle = true → ∃ t : State, exec .searchStart s = .next t ∧ t.acq.searchQ = l ∧
        t.acq.use = .shadow k 1 s.slotNow 0 false ∧ t.acq.search = some { k := k, dis0 := false, second := false }) ∧
    (∀ (j st start n : Nat) (m : Bool) (q : Search), s.acq.use = .shadow j st start n m → s.acq.search = some q → 0 < st → q.k < 16 →
      s.shadowEnded start = true →
      (st = 1 → ∃ t : State, exec .searchPhaseEnd s = .next t ∧ t.acq.use = .shadow ((q.k + 1) % 16) 2 s.slotNow 0 false ∧
        t.acq.search = some { q with dis0 := m }) ∧
      (st = 2 → q.dis0 = true → m = false → ∃ t : State, exec .searchPhaseEnd s = .next t ∧ t.acq.search = none ∧
        t.conv q.k = s.conv 16 ∧ t.conv 16 = s.conv q.k ∧ t.bit A.ACQ_XCK_STAT q.k = false) ∧
      (st = 2 → q.dis0 = false → m = true → ∃ t : State, exec .searchPhaseEnd s = .next t ∧ t.acq.search = none ∧
        t.conv ((q.k + 1) % 16) = s.conv 16 ∧ t.conv 16 = s.conv ((q.k + 1) % 16) ∧ t.bit A.ACQ_XCK_STAT q.k = false) ∧
      (st = 2 → q.dis0 = false → m = false → ∃ t : State, exec .searchPhaseEnd s = .next t ∧ t.acq.search = none ∧ t.acq.use = .idle ∧
        t.bit A.ACQ_XCK_STAT q.k = false ∧ t.fld A.CAL_SEARCH F.CAL_SEARCH_RESULT = 0)) ∧
    (∀ slice : Fin 17, slice.val < 16 → slice.val ∈ s.acq.takeQ → (∀ n a b c, s.acq.use ≠ .cal n a b c) → s.rotHalted = false →
      s.acq.search = none → s.onCycle = true → ∃ t : State, exec (.outOfTurnTakeover slice) s = .next t ∧ slice.val ∉ t.acq.takeQ ∧
        t.conv slice = s.conv 16 ∧ t.conv 16 = s.conv slice ∧ t.acq.use = .cal (s.conv slice) s.tim.up false 1)

/-- Step injection and the open-input check (R81–R83): which inputs are injected, what fails a path, and three reversals in a row. -/
def Obligations.InputChecks : Prop :=
  ∀ (s : State), s.Live →
    (∀ (bay : Fin 8) (b : Nat), b = bay.val → s.injReady b false = true → s.bayPins b ≠ [] →
      ∃ t : State, exec (.stepInjectionStart bay false) s = .next t ∧ tabGet none t.acq.inj b = some (s.tim.smp, false) ∧
        ∀ p ∈ s.bayPins b, tabGet none t.acq.injPins p = some .injected) ∧
    (∀ (bay : Fin 8) (b : Nat), b < 9 → s.injReady b true = true → (∃ p ∈ s.bayPins b, s.pinQuiet p = true) →
      ∃ t : State, exec (.stepInjectionStart bay true) s = .next t ∧ tabGet none t.acq.inj b = some (s.tim.smp, true) ∧
        (∀ p ∈ s.bayPins b, s.pinQuiet p = true → tabGet none t.acq.injPins p = some .injected) ∧
        (∀ p ∈ s.bayPins b, s.pinQuiet p = false → tabGet none t.acq.injPins p = some .skipped)) ∧
    (∀ (bay : Fin 8) (p x : Nat) (st : Nat × Bool) (amp : Rat), tabGet none s.acq.inj bay.val = some st → st.1 + 20000000 ≤ s.tim.smp →
      p ∈ s.bayPins bay → s.injecting p = true → s.refLane p = some x → s.pinSignal p ≠ none → amp = s.injAmplitude x st.1 (s.injTau p) →
      ∃ t : State, exec (.stepInjectionEnd bay ⟨⟩) s = .next t ∧ tabGet none t.acq.inj bay.val = none ∧
        (t.pinBit A.CAL_INJ_W p = true ↔ |s.injGain p| / 4 < |amp - s.injGain p| ∨
          ∀ r : Rat, s.injRise x st.1 amp = some r → |s.injTau p| / 2 < |r - s.injTau p|)) ∧
    (∀ (pin : Fin 96) (t0 : Nat) (level : Rat), tabGet none s.acq.injPins pin.val = some (.watch t0 level false) →
      t0 + 2000000 ≤ s.tim.smp → ∃ t : State, exec (.injectionWatchEnd pin) s = .next t ∧
        tabGet none t.acq.injPins pin.val = none ∧ t.pinBit A.CAL_INJ_W pin = true) ∧
    (∀ (pin : Fin 96) (e : OpenChk) (mean m thr : Rat), s.lanesOn pin ≠ [] → e = s.openChk pin → e.at_ + 125000000 ≤ s.tim.smp → e.cnt ≠ 0 →
      mean = (e.sum : Rat) / e.cnt → e.mean = some m → thr = ((s.fld A.CAL_OPEN_THR F.CAL_OPEN_THR_THR * 2048 : Nat) : Rat) →
      (thr < 10 * |mean - m| → e.bad = 2 →
        ∃ t : State, exec (.openCheckReversal pin ⟨⟩) s = .next t ∧ t.pinBit A.CAL_OPEN_W pin = true) ∧
      (10 * |mean - m| ≤ thr → e.good = 2 →
        ∃ t : State, exec (.openCheckReversal pin ⟨⟩) s = .next t ∧ t.pinBit A.CAL_OPEN_W pin = false))

/-! ### Trip matrix, Watchman, inputs -/

/-- A LIGHT input that asserts is a matrix source at once: each channel that takes it asserts, with its minimum pulse (R139, R144);
when it falls, the light check of an ARC instance goes on for ARC.HOLD, and ends when that has passed (R168). -/
def Obligations.LightPath : Prop :=
  ∀ (s : State) (i : Fin 4),
    (s.bit A.PRT_LIGHT i = false → ∃ t : State, exec (.lightAssert i) s = .next t ∧ t.bit A.PRT_LIGHT i = true ∧
      (s.fld A.PRT_STAT F.PRT_STAT_WM_SRC = 2 → ∀ c < 32, bitGet (s.reg (A.PRT_TCH_SRC c 16)) (4 + i.val) = true →
        t.bit A.PRT_TCH_STATE c = true ∧
        (s.bit A.PRT_TCH_STATE c = false → t.bit A.PRT_TCH_PULSE c = true ∧
          tabGet 0 t.trip.pulseEnd c = s.tim.up + s.minPulse c))) ∧
    (s.bit A.PRT_LIGHT i = true → ∃ t : State, exec (.lightRelease i) s = .next t ∧ t.bit A.PRT_LIGHT i = false ∧
      ∀ x ∈ s.arcs, s.bit (A.PRT_EX x 0) i = true → 0 < s.arcHold x →
        (∀ j < 4, j ≠ i.val → (s.bit (A.PRT_EX x 0) j && s.bit A.PRT_LIGHT j) = false) →
        tabGet none t.trip.arcLightEnd x = some (s.tim.up + s.arcHold x)) ∧
    (∀ (x : Fin 512) (u : Nat), tabGet none s.trip.arcLightEnd x.val = some u → u ≤ s.tim.up →
      ∃ t : State, exec (.arcHoldExpire x true) s = .next t ∧ tabGet none t.trip.arcLightEnd x.val = none) ∧
    (∀ (x : Fin 512) (u : Nat), tabGet none s.trip.arcCurEnd x.val = some u → u ≤ s.tim.up →
      ∃ t : State, exec (.arcHoldExpire x false) s = .next t ∧ tabGet none t.trip.arcCurEnd x.val = none)

/-- The Watchman (R114, R145): from two lane samples the 23-tap half-band gives one; the third consecutive VALID one at or above the threshold operates the comparator and every output whose
bays include it; a comparator below that count does not operate; after 7,680 samples of all three phases below 0.9 of the
threshold the bay's comparators drop. -/
def Obligations.WatchmanComparators : Prop :=
  ∀ (s : State) (bay : Fin 8),
    (∀ (phase : Fin 3) (codes : List Int) (s1 : State) (x k thr : Nat) (f : SampleFlags), k = 3 * bay.val + phase.val →
      s1 = s.defaultFeed bay phase codes → 2 ≤ tabGet 0 s1.trip.wmNew k → s1.feedOut k = (x, f) →
      thr = s.fld (A.PRT_WM_THR bay) ⟨15, 0⟩ * 128 → 0 < thr → f.getLsbD 7 = true → f.getLsbD 3 = false → thr ≤ x →
      (2 ≤ tabGet 0 s.trip.wmCount k → ∃ t : State, exec (.watchmanFeedSample bay phase codes ⟨⟩) s = .next t ∧
        t.bit A.PRT_WM_STATE k = true ∧
        ∀ j < 4, (s.fld (A.PRT_WM_MAP j) ⟨7, 0⟩).testBit bay = true → t.bit A.PRT_WM_STATE (24 + j) = true) ∧
      (tabGet 0 s.trip.wmCount k < 2 → ∃ t : State, exec (.watchmanFeedSample bay phase codes ⟨⟩) s = .next t ∧
        t.bit A.PRT_WM_STATE k = s.bit A.PRT_WM_STATE k ∧ tabGet 0 t.trip.wmCount k = tabGet 0 s.trip.wmCount k + 1)) ∧
    ((∀ p < 3, tabGet 0 s.trip.wmLow (3 * bay.val + p) = 7680) → ∃ t : State, exec (.watchmanDrop bay) s = .next t ∧
      ∀ p < 3, t.bit A.PRT_WM_STATE (3 * bay.val + p) = false)

/-- A channel whose minimum pulse ends (R139, R140): it stays asserted while a source stands; without one it is released if it is
not latched or a reset waits, and stays latched otherwise. TRIP_FB levels are shown as they are (R486). The matrix drives the pins (R141): after every evaluation TRIP_OUT[p] stands exactly while a channel of its mask is asserted, for
a QUARANTINED ply only during its minimum pulse (R370). -/
def Obligations.TripChannels : Prop :=
  (∀ (s : State),
    (∀ (ch : Fin 32) (c : Nat), c = ch.val → s.bit A.PRT_TCH_STATE c = true → s.bit A.PRT_TCH_PULSE c = true →
      tabGet 0 s.trip.pulseEnd c ≤ s.tim.up → ∃ t : State, exec (.tripPulseEnd ch) s = .next t ∧ t.bit A.PRT_TCH_PULSE c = false ∧
        (s.channelSource c = true → t.bit A.PRT_TCH_STATE c = true) ∧
        (s.channelSource c = false → c ∈ s.trip.resetDue → t.bit A.PRT_TCH_STATE c = false) ∧
        (s.channelSource c = false → c ∉ s.trip.resetDue → s.channelLatched c = false → t.bit A.PRT_TCH_STATE c = false) ∧
        (s.channelSource c = false → c ∉ s.trip.resetDue → s.channelLatched c = true →
          t.bit A.PRT_TCH_STATE c = true ∧ t.bit A.PRT_TCH_LATCHED c = true)) ∧
    (∀ (p : Fin 16) (level : Bool), ∃ t : State, exec (.tripFbChange p level) s = .next t ∧ t.bit A.LIO_TOUT (16 + p.val) = level ∧
      (∀ i < 32, i ≠ 16 + p.val → t.bit A.LIO_TOUT i = s.bit A.LIO_TOUT i) ∧ (∀ a, a ≠ A.LIO_TOUT → t.reg a = s.reg a) ∧
      { t with regs := s.regs } = s)) ∧
  (∀ (s : State) (p : Nat), p < 16 →
    (s.tripEval.bit A.LIO_TOUT p = true ↔ ∃ c < 32, s.tripEval.bit A.PRT_TCH_STATE c = true ∧
      (s.tripEval.role ≠ 4 ∨ s.tripEval.bit A.PRT_TCH_PULSE c = true) ∧ bitGet (s.tripEval.toutMask c p) c = true))

/-- A binary input takes its level, by its polarity, once it has stood for the debounce time, with the time of the change (R486); a
rise of the input that RSTBIN names resets a latched channel whose pulse has ended and whose sources are gone (R140). -/
def Obligations.BinaryInputs : Prop :=
  ∀ (s : State) (i : Fin 32) (level v : Bool) (ts : Nat), s.Live → v = xor level (s.bit A.LIO_BIN_POL i) → s.bit A.LIO_BIN_STATE i ≠ v →
    ts + s.fld (A.LIO_BIN_CFG i) F.LIO_BIN_CFG_DEB * 100000 ≤ s.tim.now → ts < 2 ^ 64 →
    ∃ t : State, exec (.binChange i level ts) s = .next t ∧ t.bit A.LIO_BIN_STATE i = v ∧
      t.reg64 (A.LIO_BIN_TS_LO i) (A.LIO_BIN_TS_HI i) = ts ∧
      (∀ c < 32, v = true → s.bit (A.PRT_TCH_CFG c) 30 = true → s.fld (A.PRT_TCH_CFG c) F.PRT_TCH_CFG_RSTBIN = i.val →
        s.bit A.PRT_TCH_STATE c = true → s.bit (A.PRT_TCH_CFG c) 31 = true → s.fld A.PRT_STAT F.PRT_STAT_WM_SRC = 2 →
        s.bit A.PRT_TCH_PULSE c = false → s.channelSource c = false → s.arcs = [] → t.bit A.PRT_TCH_STATE c = false)

/-! ### Frames, arrivals, capture -/

/-- The chain (R94, R95, R98, R100): a stopped chain restarts at its instant; a frame that closes takes the next count, shown in
FRMCNT with its time, and joins the ring, whose oldest frame is dropped when four wait; the engine takes the oldest frame. -/
def Obligations.ChainFrames : Prop :=
  ∀ (s : State) (bay : Fin 8) (b : Nat), s.Live → b = bay.val →
    (∀ u : Rat, (s.bayChain b).restartAt = some u → u ≤ s.tim.smp → ∃ t : State, exec (.chainRestart bay) s = .next t ∧
      (t.bayChain b).restartAt = none ∧ (t.bayChain b).stopTo = some u ∧ t.bit A.FLT_STAT (8 + b) = false) ∧
    (s.closesFrames b = true → s.frameDue b = true → (s.bayChain b).n < 2 ^ 64 →
      ∃ (t : State) (fr : FrameBuf), exec (.frameClose bay) s = .next t ∧ fr.n = (s.bayChain b).n ∧ fr.at_ = (s.bayChain b).next ∧
        (t.bayChain b).n = (s.bayChain b).n + 1 ∧ t.reg64 (A.FLT_FRMCNT_LO b) (A.FLT_FRMCNT_HI b) = (s.bayChain b).n ∧
        (t.bayChain b).ring = (if 4 ≤ (s.bayChain b).ring.length then (s.bayChain b).ring.drop 1 else (s.bayChain b).ring) ++ [fr]) ∧
    (∀ (fr : FrameBuf) (l : List FrameBuf), (s.bayChain b).ring = fr :: l → fr.engine < 8 → s.gateHolds (fr.engine / 4) = false →
      ∀ resNs : Nat, ∃ t : State, exec (.frameProcess bay resNs) s = .next t ∧ (t.bayChain b).ring = l ∧
        (t.bayProt b).hist.head? = some fr ∧ t.reg (A.PRT_RESTIME b) = BitVec.ofNat 32 resNs)

/-- Arrivals (R112, R113, R194): a difference that reaches the threshold opens a record, its time on a 50 ns grid; four samples below half the
threshold complete it with the peak since its sample; with 32 records waiting it is lost and counted; the engine takes the records in order. Wavefront
elements (R195, R197): a supervised forward decision operates for HOLD, an unsupervised one does not; the operate ends with HOLD; a locator stores the
first arrival's time and, where it does not wait for the far end, does not locate the burst again. -/
def Obligations.ArrivalsAndWavefront : Prop :=
  (∀ (s : State) (bay : Fin 8) (b : Nat) (mode : Fin 3), s.Live → b = bay.val →
    (∀ (w v : WaveSmp) (l : List WaveSmp) (d : Int) (rest : List (Nat × Int)), s.waveOn b = true → (s.bayChain b).wave = w :: v :: l →
      waveDiffs mode (s.bayChain b).wave = (w.k, d) :: rest → w.ok = true → v.ok = true → s.waveThr b mode ≤ |(d : Rat)| →
      (∀ a ∈ (s.bayChain b).opened, a.1.mode ≠ mode.val) →
      ∃ (t : State) (a : Arrival), exec (.arrivalDetect bay mode ⟨⟩ ⟨⟩ ⟨⟩) s = .next t ∧ (t.bayChain b).opened = (s.bayChain b).opened ++ [(a, w.k)] ∧
        a.mode = mode.val ∧ a.neg = decide (d < 0) ∧ a.clipped = (w.clipped || v.clipped) ∧ a.t % 50 = 0 ∧ t.mem = s.mem) ∧
    (∀ (a : Arrival) (k : Nat), (s.bayChain b).opened.find? (fun a => a.1.mode == mode.val) = some (a, k) →
      (s.bayChain b).quiet4 mode k (s.waveThr b mode) = true → ∃ t : State, exec (.arrivalRearm bay mode ⟨⟩) s = .next t ∧
        (t.bayChain b).opened = (s.bayChain b).opened.filter (fun a => a.1.mode != mode.val) ∧
        ((s.bayChain b).arrivals.length < 32 → (t.bayChain b).arrivals = (s.bayChain b).arrivals ++
          [{ a with peak := min ((s.bayChain b).peakFrom mode k) (2 ^ 24 - 1), frame := (s.reg (A.FLT_FRMCNT_LO b)).toNat }]) ∧
        (32 ≤ (s.bayChain b).arrivals.length → (t.bayChain b).arrivals = (s.bayChain b).arrivals)) ∧
    ((s.bayChain b).arrivals ≠ [] → ∃ (t : State) (l : Nat), exec (.wfdRecordTake bay) s = .next t ∧
      (t.bayChain b).arrivals = [] ∧ (t.bayProt b).lastArr = some l ∧ ∀ a ∈ (s.bayChain b).arrivals, a.t ≤ l)) ∧
  (∀ (s : State) (inst : Fin 512) (x b : Nat), s.Live → x = inst.val → b = s.eiBay x →
    (∀ ta : Nat, (s.waveInst x).ta = some ta → s.eiType x = 0x1F → ta + nsOf (s.exf x 1) ≤ s.tim.now →
      (s.supPass b x ta = true → s.eiOn x = true → s.blocked x = false →
        (s.waveInst x).dec = s.exn x 0 F.EX_WFD_DIR + 1 → ∃ t : State, exec (.wfdSupervision inst ⟨⟩ ⟨⟩ ⟨⟩) s = .next t ∧
          tabGet false t.trip.liveOp x = true ∧ (t.waveInst x).holdEnd = some (s.tim.up + nsOf (s.exf x 3)) ∧
          (t.waveInst x).ta = none) ∧
      (s.supPass b x ta = false → ∃ t : State,
        exec (.wfdSupervision inst ⟨⟩ ⟨⟩ ⟨⟩) s = .next t ∧ t.bit (A.PRT_WFD b) 27 = false ∧ t.trip = s.trip ∧
        (t.waveInst x).ta = none)) ∧
    (∀ u : Nat, (s.waveInst x).holdEnd = some u → u ≤ s.tim.up → ∃ t : State, exec (.wfdHoldEnd inst) s = .next t ∧
      tabGet false t.trip.liveOp x = false ∧ (t.waveInst x).holdEnd = none) ∧
    (∀ ta : Nat, (s.waveInst x).locate = some ta → (s.waveInst x).far = false → s.eiType x = 0x20 → s.eiOn x = true → s.blocked x = false →
      ta < 2 ^ 64 → (ta : Rat) + 2 * s.cflLen x / s.cflVel x * 1000 ≤ s.tim.now → ∃ t : State, exec (.cflLocate inst) s = .next t ∧
        (s.exb x 3 0 = false → (t.waveInst x).locate = none) ∧ (t.waveInst x).ta = some ta ∧ t.reg64 (A.PRT_CFL_TA_LO b) (A.PRT_CFL_TA_HI b) = ta))

/-- Fault capture (R204–R211): a plan's samples go on along its grid; results posted by a bay are taken; a record closes once its last
sample and results are there; a burst is copied once; a peer's trigger extends a running record, which takes the peer's record number. -/
def Obligations.FaultCapture : Prop :=
  ∀ (s : State), s.Live →
    (∀ (plan : Fin 16) (p k : Nat), p = plan.val → (s.capPlan p).next = some k → s.bit (A.CAP_PLAN_CFG p) 31 = true →
      (s.capPlan p).closing = false → ((gridNs (s.planRate p) k : Nat) : Rat) + s.chainDelay (s.planBay p) ≤ s.tim.now →
      ∃ (t : State) (y : CapSample), exec (.captureSampleWrite plan) s = .next t ∧ (t.capPlan p).next = some (k + 1) ∧
        (t.capPlan p).ring.getLast? = some y ∧ y.t = gridNs (s.planRate p) k) ∧
    (∀ (bay : Fin 8) (q : CapPost), s.cap.posted = [q] → q.bay = bay.val → ∃ t : State,
      exec (.captureResultsReceive bay) s = .next t ∧ t.cap.posted = [] ∧ tabGet 0 t.cap.lastPost bay.val = q.t) ∧
    (∀ (plan : Fin 16) (p e : Nat) (s1 : State) (r : CapRec) (y : CapSample), p = plan.val → (s.capPlan p).open_.getLast? = some e →
      s1 = (s.recFill p e).recSnaps p e → s1.capRec e = some r → r.samples.getLast? = some y → r.endT ≤ y.t → r.endT + 6190000 ≤ s.tim.now →
      ∃ t : State, exec (.recordClose plan) s = .next t ∧ (t.capPlan p).open_ = (s1.capPlan p).open_.filter (· != e)) ∧
    (∀ (bay : Fin 8) (p e : Nat) (r : CapRec) (a : Arrival) (l : List Arrival), (s.bayProt bay).burst = a :: l →
      a.t + 1250000 ≤ s.tim.now → a.t < 2 ^ 64 → (s.waveLanes bay).length = 3 → tabGet [] s.cap.snaps bay.val = [] →
      (List.range 16).filter (fun p => s.planBay p == bay.val) = [p] →
      (s.capPlan p).open_ = [e] → s.capRec e = some r → (r.samples.head?.map (·.t)).getD r.trig ≤ a.t → a.t ≤ r.endT →
      (∀ u, r.lastBurst = some u → u < a.t) → r.snaps.length < 16 →
      1536 + r.samples.length * s.capS p + (r.snaps.length + 1) * 29520 ≤ 65536 * r.blocks.length →
      ∃ (t : State) (sn : CapSnap), exec (.snapshotCopy bay) s = .next t ∧ sn.record = arrivalWords a ∧ sn.data.length = 2458 ∧
        t.capRec e = some { r with lastBurst := some a.t, snaps := r.snaps ++ [sn] }) ∧
    (∀ (plan : Fin 16) (p e u : Nat) (num : Word) (r : CapRec) (l : List Nat), p = plan.val → s.bit A.PLY_STAT 24 = true →
      s.bit (A.CAP_PLAN_CFG p) 31 = true → (s.capPlan p).open_ = e :: l → s.capRec e = some r →
      (s.bit (A.CAP_PLAN_CFG p) 29 = true → r.shut = false → u ≤ r.endT → u ≤ r.first + 8000000000 → ∃ t : State,
        exec (.peerCaptureRequest plan ⟨u, num, true⟩) s = .next t ∧
        t.capRec e = some { r with endT := min (max r.endT (u + r.post)) (r.first + 8000000000), count := min (r.count + 1) 65535,
                                   flags := r.flags ||| 2, peerRec := num } ∧
        t.ply.sent = s.ply.sent ++ [.recordNumber p (s.reg (A.CAP_DIR_REC e))]) ∧
      (∃ t : State, exec (.peerCaptureRequest plan ⟨u, num, false⟩) s = .next t ∧ t.capRec e = some { r with peerRec := num } ∧
        t.ply = s.ply))

/-! ### Clusters and the Reeve -/

/-- Gating of a cluster (R15–R17): an idle cluster starts to enter the state that the time to its next known release asks for, is gated when entry is
done, and wakes counted. The Reeve (R29, R450): its cycle records the sensors and feeds the claim watchdog; an engine's write into another's loaded
area is counted and changes no memory; ECC errors are counted, a capture block with an
uncorrectable error is withdrawn; a raised clock returns to its floor after 1 s without lateness; throttling lowers the clock one point
every 10 ms. -/
def Obligations.ClustersAndReeve : Prop :=
  (∀ (s : State) (c : Fin 4), s.Live →
    (s.fld (A.PWR_CLUSTER c) F.PWR_CLUSTER_STATE = 0 → tabGet none s.pwr.gates c.val = none → s.clusterIdle c = true →
      ∃ t : State, exec (.clusterGateEnter c ⟨⟩) s = .next t ∧ { t with pwr := s.pwr } = s ∧
        ((∀ u ∈ s.knownReleases c, 200000 < u) → tabGet none t.pwr.gates c.val = some { target := 2, at_ := s.tim.up, wake := false }) ∧
        ((∃ u ∈ s.knownReleases c, u ≤ 200000) → tabGet none t.pwr.gates c.val = some { target := 1, at_ := s.tim.up, wake := false })) ∧
    (∀ g : GateSt, tabGet none s.pwr.gates c.val = some g → g.at_ + 2000 ≤ s.tim.up → g.target = 1 ∨ g.target = 2 →
      (g.wake = false → ∃ t : State, exec (.clusterGateEntryDone c) s = .next t ∧ tabGet none t.pwr.gates c.val = none ∧
        t.fld (A.PWR_CLUSTER c) F.PWR_CLUSTER_STATE = g.target) ∧
      (g.wake = true → ∃ t : State, exec (.clusterGateEntryDone c) s = .next t ∧ tabGet none t.pwr.gates c.val = none ∧
        t.fld (A.PWR_CLUSTER c) F.PWR_CLUSTER_STATE = 0)) ∧
    (tabGet none s.pwr.gates c.val = none →
      (s.fld (A.PWR_CLUSTER c) F.PWR_CLUSTER_STATE = 1 → ∃ t : State, exec (.clusterWake c) s = .next t ∧
        t.fld (A.PWR_CLUSTER c) F.PWR_CLUSTER_STATE = 0 ∧ t.reg (A.PWR_CGWAKE c) = s.reg (A.PWR_CGWAKE c) + 1) ∧
      (s.fld (A.PWR_CLUSTER c) F.PWR_CLUSTER_STATE = 2 → ∃ t : State, exec (.clusterWake c) s = .next t ∧
        t.fld (A.PWR_CLUSTER c) F.PWR_CLUSTER_STATE = 0 ∧ t.reg (A.PWR_PGWAKE c) = s.reg (A.PWR_PGWAKE c) + 1))) ∧
  (∀ (s : State), s.Live →
    (∀ x : ReeveIn, x.temps.length = 8 → (∀ u, s.pwr.reeveAt = some u → u + 1000000 ≤ s.tim.up) →
      ∃ t : State, exec (.reeveCycle x) s = .next t ∧ t.pwr.reeveAt = some s.tim.up ∧ t.ply.claimFed = s.tim.up ∧ t.mem = s.mem ∧
        (∀ (k : Nat) (v : Int), x.temps[k]? = some v → t.fld (A.SUP_TEMP k) F.SUP_TEMP_TEMP = (BitVec.ofInt 16 v).toNat) ∧
        (∀ e a : Nat, x.strays = [(e, a)] → s.fld A.SUP_PFLT F.SUP_PFLT_COUNT < fldMax F.SUP_PFLT_COUNT →
          t.fld A.SUP_PFLT F.SUP_PFLT_COUNT = s.fld A.SUP_PFLT F.SUP_PFLT_COUNT + (if foreignLoaded e a then 1 else 0))) ∧
    (∀ e : Fin 24, s.fld A.SUP_ECC F.SUP_ECC_CORR < fldMax F.SUP_ECC_CORR → ∃ t : State,
      exec (.eccErrorDetect .engineLocal e false) s = .next t ∧ t.fld A.SUP_ECC F.SUP_ECC_CORR = s.fld A.SUP_ECC F.SUP_ECC_CORR + 1 ∧
        tabGet [] t.pwr.corr e.val = s.tim.up :: tabGet [] s.pwr.corr e.val ∧ t.pwr.corrSec = s.pwr.corrSec + 1) ∧
    (∀ (e : Fin 24) (blk : Nat), ∃ t : State, exec (.eccErrorDetect (.capture blk) e true) s = .next t ∧ blk ∈ t.cap.withdrawn) ∧
    (∀ (c : Fin 4) (u : Nat), s.fld (A.PWR_CLUSTER c) F.PWR_CLUSTER_STATE ≠ 3 →
      (s.raisedAt c = some u → u + 1000000000 ≤ s.tim.up → s.floorPoint c ≤ 4 → ∃ t : State, exec (.clusterClockReturn c) s = .next t ∧
        t.raisedAt c = none ∧ t.point c = s.floorPoint c) ∧
      (s.throttle c = some u → u ≤ s.tim.up → s.point c ≤ 4 → ∃ t : State, exec (.thermalThrottleStep c) s = .next t ∧
        t.throttle c = some (s.tim.up + 10000000) ∧ t.point c = max 1 (s.point c - 1))))

/-! ### Time -/

/-- A measurement of the source in use (R298–R303), by any of the commands that carry one: TIM_OFS shows the offset, lock is kept while
it stays within 10 µs, and the eighth measurement in a row within 100 ns locks. A two-step Sync waits for its Follow_Up. -/
def Obligations.TimeMeasurements : Prop :=
  ∀ s : State, s.Live →
    (∀ (c : Instr) (k : Nat) (ofs : Int), s.srcEnabled k = true → s.timSrc = k →
      ((∃ (port : Fin 4) (m : PtpSync), c = .ptpSyncReceive port m ∧ k = 1 ∧ s.ptpMine port m.gmId m.domain = true ∧
          m.twoStep = false ∧ ofs = m.offset) ∨
        (∃ (port : Fin 4) (seq : BitVec 16) (u : Nat), c = .ptpFollowUpReceive port seq ofs ∧ k = 1 ∧ s.ptpPort port = true ∧
          s.tim.syncWait = some (port.val, seq, u)) ∨
        (∃ (n dly : Int), c = .ppsEdge ∧ k = 2 ∧ dly = (s.reg A.TIM_PPSDLY).toNat ∧ ofs = n * 1000000000 + dly - s.tim.now ∧
          2 * ofs.natAbs < 1000000000) ∨
        (c = .irigbFrame ofs ∧ k = 3)) →
      (s.timState = 2 → ofs.natAbs ≤ 10000 → ∃ t : State, exec c s = .next t ∧ (t.reg A.TIM_OFS).toInt = ofs ∧ t.timState = 2 ∧
        t.timSrc = k ∧ t.tim.outCount = 0 ∧ t.tim.now = s.tim.now ∧ t.mem = s.mem) ∧
      (s.timState = 1 → ofs.natAbs ≤ 100 → ∃ t : State, exec c s = .next t ∧ (t.reg A.TIM_OFS).toInt = ofs ∧ t.timSrc = k ∧
        t.tim.now = s.tim.now ∧ t.mem = s.mem ∧ (7 ≤ s.tim.lockCount → t.timState = 2) ∧
        (s.tim.lockCount < 7 → t.timState = 1 ∧ t.tim.lockCount = s.tim.lockCount + 1))) ∧
    (∀ (port : Fin 4) (m : PtpSync), s.ptpMine port m.gmId m.domain = true → m.twoStep = true → ∃ t : State,
      exec (.ptpSyncReceive port m) s = .next t ∧ t.tim.syncWait = some (port.val, m.seq, s.tim.up) ∧ t.regs = s.regs)

/-- PTP messages (R299, R300, R307): the first usable master is taken with its identity and quality, and dropped after three intervals without
an Announce unless a master is heard on the pair's other port, from which PTP then goes on; path delay is asked for every second, answered on the same port, and kept for each port of the pair. -/
def Obligations.PtpMessages : Prop :=
  ∀ s : State, s.Live →
    (∀ (port : Fin 4) (m : PtpAnnounce), s.ptpPort port = true → m.domain = s.fld A.TIM_CFG F.TIM_CFG_DOMAIN → m.clockClass < 248 →
      s.tim.best = none → m.accuracy < 256 → m.stepsRemoved < 65536 → ∃ t : State, exec (.ptpAnnounceReceive port m) s = .next t ∧
        t.tim.best = some (m.gmId, m.clockClass, m.accuracy, m.stepsRemoved, port.val) ∧
        t.reg64 A.TIM_GMID_LO A.TIM_GMID_HI = m.gmId.toNat ∧ t.fld A.TIM_GMQ F.TIM_GMQ_CLASS = m.clockClass ∧
        t.fld A.TIM_GMQ F.TIM_GMQ_ACCURACY = m.accuracy ∧ t.fld A.TIM_GMQ F.TIM_GMQ_STEPSRM = m.stepsRemoved ∧
        t.tim.annAt = some s.tim.up) ∧
    (∀ u : Nat, s.tim.annAt = some u → u + 3 * s.tim.annMs * 1000000 ≤ s.tim.up → ∃ t : State, exec .ptpAnnounceTimeout s = .next t ∧
      t.tim.syncWait = none ∧ (s.altMaster = none → t.tim.best = none ∧ t.tim.annAt = none) ∧
      (∀ x, s.altMaster = some x → t.tim.best = some x.1 ∧ t.timState = s.timState ∧ t.timSrc = s.timSrc ∧ t.tim.now = s.tim.now ∧
        t.tim.target = s.tim.target)) ∧
    (∀ ports : List Nat, ports = (s.pairPorts s.ptpProcess).filter (fun p => s.ptpPort p) → ports ≠ [] → s.mayTransmit = true →
      (∀ u, s.tim.pdLast = some u → u + 1000000000 ≤ s.tim.up) → ∃ t : State, exec .ptpPdelayReqSend s = .next t ∧
        t.tim.pdSeq = s.tim.pdSeq + 1 ∧ t.tim.pdLast = some s.tim.up ∧ t.tim.pdWait = ports) ∧
    (∀ (port : Fin 4) (seq : BitVec 16), s.ptpPort port = true → s.mayTransmit = true → (s.txRing (8 + 2 * port.val)).length < 64 →
      (s.txRing (9 + 2 * port.val)).length < 64 → ∃ t : State, exec (.ptpPdelayReqReceive port seq) s = .next t ∧ State.Woken { t with net := s.net } s 3 ∧
        t.txRing (8 + 2 * port.val) = s.txRing (8 + 2 * port.val) ++
          [{ body := .pdelayResp seq, process := s.ptpProcess, prpSeq := none, high := true }] ∧
        t.txRing (9 + 2 * port.val) = s.txRing (9 + 2 * port.val) ++
          [{ body := .pdelayFollowUp seq, process := s.ptpProcess, prpSeq := none, high := false }]) ∧
    (∀ (port : Fin 4) (delay : Nat), s.ptpPort port = true → port.val ∈ s.tim.pdWait → ∃ t : State,
      exec (.ptpPdelayRespReceive port delay) s = .next t ∧ t.tim.pdWait = s.tim.pdWait.filter (· != port.val) ∧
        (t.reg (if port.val % 2 = 0 then A.TIM_PDLY_0 else A.TIM_PDLY_1)).toNat = min delay 0xFFFFFFFF)

/-- Sources and seconds (R297, R302, R304, R305): a source of higher priority, present for 10 s, is acquired; the loss of the only source
leaves HOLDOVER without a source, which is flagged 60 s after the lock; a leap second moves the UTC offset; the RTC follows device time at
each second only in LOCKED or HOLDOVER. -/
def Obligations.TimeSources : Prop :=
  ∀ s : State, s.Live →
    (∀ (src : Fin 4) (u : Nat), s.srcSince src = some u → s.srcEnabled src = true → u + 10000000000 ≤ s.tim.up →
      srcRank s.timSrc < srcRank src → ∃ t : State, exec (.sourceSwitch src) s = .next t ∧ t.timSrc = src.val ∧ t.timState = 1) ∧
    (∀ src : Fin 4, s.srcEnabled src = true → s.timSrc = src.val → s.timState = 2 → s.bit A.TIM_STAT 25 = false →
      (∀ j : Nat, j ≠ src.val → s.srcEnabled j = true → s.srcSince j = none) → (src.val = 1 → s.altMaster = none) → ∃ t : State,
      exec (.timeSourceLoss src) s = .next t ∧
        t.timState = 3 ∧ t.timSrc = 0 ∧ t.srcSince src = none ∧ t.tim.target = s.meanCorr ∧ t.tim.lockEnd = some s.tim.up) ∧
    (s.timState = 3 → s.bit A.TIM_STAT 26 = false → s.tim.lockEnd.getD 0 + 60000000000 ≤ s.tim.up → ∃ t : State,
      exec .holdoverExpire s = .next t ∧ t.bit A.TIM_STAT 26 = true ∧ t.timState = 3 ∧ t.tim = s.tim) ∧
    (∀ x : Nat × Int, s.tim.leapAt = some x → x.1 ≤ s.tim.now → ∃ t : State, exec .leapSecond s = .next t ∧ t.tim.leapAt = none ∧
      t.bit A.TIM_UTCOFS 30 = false ∧ t.bit A.TIM_UTCOFS 29 = false ∧
      (t.fld A.TIM_UTCOFS F.TIM_UTCOFS_OFFSET : Int) = (signExt 16 (s.fld A.TIM_UTCOFS F.TIM_UTCOFS_OFFSET) + x.2) % 65536) ∧
    (∀ sec : Nat, sec = s.tim.now / 1000000000 → sec ≠ s.tim.lastSec → ∃ t : State, exec .secondBoundary s = .next t ∧
      t.tim.lastSec = sec ∧ (2 ≤ s.timState → t.tim.rtc = sec * 1000000000) ∧ (s.timState < 2 → t.tim.rtc = s.tim.rtc) ∧
      t.regs = s.regs ∧ t.mem = s.mem)

/-! ### Loops and the Peal table -/

/-- Loop blocks (R270, R271, R277, R287): a released block issues now and is released next at the first grid instant after now; a follower keeps
the actor's values for the block's next release. Controlled closing (R314–R316) and timed messages (R313): at t_cmd the output is driven for its pulse and the window opens; at the pulse's
end it releases; at the window's end the close is done once the pulse has ended too; a message held to its launch time is applied then. -/
def Obligations.LoopsAndClosing : Prop :=
  (∀ (s : State) (b : Fin 512), s.Live →
    (∀ u : Nat, (s.loopB b).next = some u → u ≤ s.tim.now → s.loopTurn b u = true → s.loopPeriod b ≠ 0 → s.gateHolds 2 = false → s.tim.now < 2 ^ 64 →
      ∃ (t : State) (v : Nat), exec (.blockRelease b) s = .next t ∧ (t.loopB b).next = some v ∧ s.tim.now < v ∧
        v ≤ s.tim.now + s.loopPeriod b ∧ s.loopPeriod b ∣ (v - u) ∧ t.reg64 (A.SPN_TISS_LO b) (A.SPN_TISS_HI b) = s.tim.now) ∧
    (∀ v : LoopValues, s.loopFollow = true → ∃ t : State, exec (.loopValuesReceive b v) s = .next t ∧
      tabGet none t.spn.rx b.val = some v ∧ (∀ c : Nat, c ≠ b.val → tabGet none t.spn.rx c = tabGet none s.spn.rx c) ∧
      { t with spn := s.spn } = s)) ∧
  (∀ (s : State) (bay : Fin 8) (b : Nat) (c : CloseSt), b = bay.val → s.close b = some c →
    (s.Live → s.ccState b = 1 → c.tCmd ≤ s.tim.now → ∃ t : State, exec (.closeCommand bay) s = .next t ∧ t.ccState b = 2 ∧
      t.bit A.LIO_GOUT (s.ccGout b) = true ∧ ∃ w : Nat, w = nsOf ((s.fpReg (A.PEL_CC_TNOM b) + 10) / 1000) ∧
        t.close b = some { c with driven := true, pulseEnd := s.tim.up + c.pulse, winEnd := s.tim.up + w }) ∧
    (c.driven = true → c.pulseEnd ≤ s.tim.up → ∃ t : State, exec (.closePulseEnd bay) s = .next t ∧
      t.bit A.LIO_GOUT (s.ccGout b) = false ∧ (s.ccState b = 3 → t.ccState b = 0 ∧ t.close b = none) ∧
      (s.ccState b ≠ 3 → t.ccState b = s.ccState b ∧ t.close b = some { c with driven := false })) ∧
    (s.ccState b = 2 → c.winEnd ≤ s.tim.up → ∃ t : State, exec (.closeWindowEnd bay) s = .next t ∧
      (c.driven = true → t.ccState b = 3 ∧ t.close b = some c) ∧ (c.driven = false → t.ccState b = 0 ∧ t.close b = none)) ∧
    (∀ (n : Fin 128) (l : LaunchWait), s.Live → tabGet none s.peal.launches n.val = some l → l.t ≤ s.tim.now → ∃ t : State,
      exec (.launchApply n) s = .next t ∧ tabGet none t.peal.launches n.val = none ∧ t.tim = s.tim))

/-- Occurrences of the Peal table (R308–R312, R318): the due occurrence of an entry is taken by its action in its turn, counted, and the entry
goes on to the next or is done; each action has its effect. The launch slots take an entry whose occurrence is among the next 16. -/
def Obligations.PealOccurrences : Prop :=
  ∀ (s : State) (e : Fin 1024) (i : Nat), s.Live → i = s.pealNext e → s.pealOn e = true →
    (∀ (c : Instr) (k : Nat), s.pealAction e = k → s.pealAt e i ≤ s.tim.now + s.pealLead e → s.pealTurn e = true →
      (c, k) ∈ [(.pealSetGout e, 1), (.pealOverlay e, 2), (.pealCapture e, 3), (.pealProfileStart e, 4), (.pealEventTask e, 5),
        (.pealHankOutput e, 6), (.pealGoosePublish e, 7), (.pealControlledClose e, 8)] →
      ∃ t : State, exec c s = .next t ∧ t.reg (A.PEL_ECNT e) = s.reg (A.PEL_ECNT e) + 1 ∧ t.pealNext e = i + 1 ∧
        t.bit (A.PEL_ST e) 29 = decide (s.pealAt e i < tabGet 0 s.peal.late e.val) ∧
        t.fld (A.PEL_ST e) F.PEL_ST_STATE = (if s.pealRepeat e ≠ 0 ∧ s.pealRepeat e ≤ i + 1 then 2 else 1) ∧
        (k = 1 → t.bit A.LIO_GOUT ((s.reg (A.PEL_P0 e)).toNat % 8) = s.bit (A.PEL_P0 e) 8) ∧
        (k = 2 → s.ovlUsable ((s.reg (A.PEL_P0 e)).toNat % 16) = true → s.cfg.acts.length < 4 →
          ∃ a ∈ t.cfg.acts, a.k = (s.reg (A.PEL_P0 e)).toNat % 16 ∧ a.src = 3 ∧
            a.t = (if s.pealAt e i < tabGet 0 s.peal.late e.val then s.tim.now else s.pealAt e i)) ∧
        (∀ b : Nat, k = 4 → b = (s.reg (A.PEL_P0 e)).toNat % 512 → s.spnMode b ≠ 0 → s.spnMode b ≠ 3 → s.spnMode b ≠ 5 →
          (t.loopB b).target = (s.reg (A.PEL_P1 e)).toInt ∧ (t.loopB b).profAt = some (s.pealAt e i)) ∧
        (∀ h n : Nat, k = 5 → h = (s.reg (A.PEL_P0 e)).toNat / 16 % 4 → n = 16 + (s.reg (A.PEL_P0 e)).toNat % 16 →
          s.bit (A.HDL_TCFG h n) 31 = true → s.bit (A.HDL_TCFG h n) 30 = true → s.logicMode = 0 →
          (∀ r ∈ (s.heddle h).rels, r.task ≠ n) → (s.heddle h).rels.length < 16 → (t.heddle h).rels = (s.heddle h).rels ++ [{ task := n, at_ := s.tim.now }]) ∧
        (∀ m : Nat, k = 6 → m = (s.reg (A.PEL_P0 e)).toNat % 64 → (s.hnkMod m).exchange = true → s.role = 0 ∨ s.role = 1 →
          t.fld (A.HNK_MOD_SEQ m) F.HNK_MOD_SEQ_SEQTX = (s.fld (A.HNK_MOD_SEQ m) F.HNK_MOD_SEQ_SEQTX + 1) % 65536) ∧
        (∀ (g : Nat) (b : PubBlock), k = 7 → g = (s.reg (A.PEL_P0 e)).toNat % 32 → s.pubBlock g = some b → s.pubOn g = true →
          (t.pub g).launch = s.pealAt e i ∧ t.reg (A.NET_GP_SQNUM g) = 0) ∧
        (∀ b : Nat, k = 8 → b = (s.reg (A.PEL_P0 e)).toNat % 8 → s.bit (A.PEL_CC_CFG b) 31 = true → s.ccState b ≠ 0 →
          t.fld (A.PEL_CC_STAT b) F.PEL_CC_STAT_CAUSE = 3)) ∧
    (∀ held : List (Nat × (Nat × Nat)), held = s.peal.slots.filter (fun x => s.pealSoon x.1) → (∀ x ∈ s.peal.slots, x.1 ≠ e.val) →
      s.pealSoon e = true → held.length < 16 → s.tim.now < s.pealAt e i → ∃ t : State,
      exec (.pealSlotLoad e) s = .next t ∧ t.peal.slots = held ++ [(e.val, i, s.pealAt e i)] ∧
        { t with peal := { t.peal with slots := s.peal.slots } } = s)

/-! ### Network -/

/-- Ports and redundancy (R325–R328): the link bit follows the port; supervision is sent every LIFECHK with the next PRP number; another
node's supervision sets LANOK, which 3 × LIFECHK without one clears. Sampled values (R341–R344): a frame whose last sample has left the resampler is published and counted; a matching frame makes its
stream good and places its samples; 10 ms without one lose it. -/
def Obligations.NetworkAndStreams : Prop :=
  (∀ s : State, s.Live →
    (∀ (p : Fin 4) (up : Bool), s.bit A.NET_STAT (28 + p.val) ≠ up → (up = true → s.portPowered p = true) → ∃ t : State,
      exec (.portLinkChange p up) s = .next t ∧ t.bit A.NET_STAT (28 + p.val) = up ∧
        ∀ i : Nat, i ≠ 28 + p.val → t.bit A.NET_STAT i = s.bit A.NET_STAT i) ∧
    (∀ process : Bool, s.pairMode process = 0 → s.role = 0 ∨ s.role = 1 → s.cfg.switched ≠ none →
      (∀ u, tabGet none s.net.lifeAt (pairIx process) = some u → u + s.lifeNs ≤ s.tim.up) → ∃ t : State,
      exec (.prpSupervisionSend process) s = .next t ∧ tabGet none t.net.lifeAt (pairIx process) = some s.tim.up ∧
        tabGet 0 t.net.prpSeq (pairIx process) = (tabGet 0 s.net.prpSeq (pairIx process) + 1) % 65536) ∧
    (∀ (p : Fin 4) (tag : PrpTag), s.rxPort p = true → tag.mac ≠ s.pairMac (p.val / 2 == 1) → ∃ t : State,
      exec (.prpSupervisionReceive p tag) s = .next t ∧ t.bit A.NET_STAT (20 + p.val) = true ∧
        tabGet none t.net.lanSeen p.val = some s.tim.up) ∧
    (∀ (p : Fin 4) (u : Nat), tabGet none s.net.lanSeen p.val = some u → s.bit A.NET_STAT (20 + p.val) = true →
      u + 3 * s.lifeNs ≤ s.tim.up → ∃ t : State, exec (.lanokTimeout p) s = .next t ∧ t.bit A.NET_STAT (20 + p.val) = false)) ∧
  (∀ s : State, s.Live →
    (∀ (bay : Fin 8) (b rate n k : Nat), b = bay.val → rate = s.fixedRate b → n = max 1 (s.fld (A.NET_SVP_CFG b) F.NET_SVP_CFG_NOASDU) →
      k = s.svNext b → s.bit (A.NET_SVP_CFG b) 31 = true → rate ≠ 0 → s.cfg.switched ≠ none → s.role = 0 ∨ s.role = 1 →
      (gridNs rate (k + n - 1) : Rat) + s.bayDelay b ≤ s.tim.now → ∃ t : State, exec (.svFramePublish bay) s = .next t ∧
        t.svNext b = k + n ∧ t.reg (A.NET_SVP_CNT b) = s.reg (A.NET_SVP_CNT b) + 1 ∧
        (t.reg (A.NET_SVP_STAT b)).toNat % 2 ^ 30 = (k + n - 1) % rate) ∧
    (∀ (p : Fin 4) (m : SvMsg) (r : Fin 16) (b : SvBlock), (s.rxAccept p m.lenOk (s.dstKnown true m.dst) m.prp).1 = true → 2 ≤ p.val →
      s.cfg.switched ≠ none → s.svMatches m = [b] → b.n = r.val → m.simulation = false → m.confRev = b.confRev → m.datasetOk = true →
      (∀ a ∈ m.asdus, a.smpCnt < s.svRate r) → ∃ t : State, exec (.svReceive p m) s = .next t ∧ t.svState r = 1 ∧
        (t.svs r).lastAt = some s.tim.up ∧ ∀ a : SvAsdu, m.asdus = [a] → ∃ e ∈ (t.svs r).buf, e.1 = s.svIndex (s.svRate r) a.smpCnt) ∧
    (∀ (r : Fin 16) (u : Nat), (s.svs r).lastAt = some u → u + 10000000 ≤ s.tim.up → s.svState r ≠ 2 → ∃ t : State,
      exec (.svStreamLost r) s = .next t ∧ t.svState r = 2))

/-- GOOSE (R331, R333, R335–R340): a changed dataset makes a new state, numbered one up with SQNUM 0; a retransmission counts SQNUM and doubles the
interval up to TMAX; a timed publication stops holding changes back at its T. A matching message of the stNum last accepted whose sqNum is not newer
(difference 0 or at least 2³¹, modulo 2³²) is discarded and counted in DUPS; every other matching message is accepted (R339): its numbers are kept and
its subscription is valid until its time allowed to live has passed. `deadline` is none until a message has been accepted. -/
def Obligations.GoosePublishSubscribe : Prop :=
  ∀ s : State, s.Live →
    (∀ (g : Fin 32) (b : PubBlock), s.pubBlock g = some b → s.pubOn g = true →
      ((s.pub g).hold = none → ((s.pub g).started = true → s.pubCore b.members 0 ≠ (s.pub g).core) → ∃ t : State,
        exec (.gooseStateBuild g) s = .next t ∧ (t.pub g).started = true ∧ (t.pub g).core = s.pubCore b.members 0 ∧
          t.reg (A.NET_GP_SQNUM g) = 0 ∧ (t.pub g).interval = s.fld (A.NET_GP_TIM g) F.NET_GP_TIM_TMIN ∧
          t.reg (A.NET_GP_STNUM g) = (if (s.pub g).started then nextNum (s.reg (A.NET_GP_STNUM g)) else 1)) ∧
      (∀ u : Nat, (s.pub g).nextTx = some u → (s.pub g).started = true → u ≤ s.tim.up → ∃ t : State,
        exec (.gooseRetransmit g) s = .next t ∧ t.reg (A.NET_GP_SQNUM g) = nextNum (s.reg (A.NET_GP_SQNUM g)) ∧
          t.reg (A.NET_GP_STNUM g) = s.reg (A.NET_GP_STNUM g) ∧ (t.pub g).interval = min (2 * (s.pub g).interval) (s.pub g).tmax ∧
          (t.pub g).nextTx = some (s.tim.up + (t.pub g).interval * 1000000)) ∧
      (∀ u : Nat, (s.pub g).hold = some u → u ≤ s.tim.now → ∃ t : State, exec (.gooseLaunchTimeReached g) s = .next t ∧
        (t.pub g).hold = none ∧ (t.pub g).core = s.pubCore b.members 0)) ∧
    (∀ (p : Fin 4) (m : GooseMsg) (n : Fin 128) (b : SubBlock),
      (s.rxAccept p m.lenOk (s.dstKnown (p.val / 2 == 1) m.dst) m.prp).1 = true → s.cfg.switched ≠ none →
      s.subMatches (p.val / 2 == 1) m = [b] → b.s = n.val → m.simulation = false → m.test = false → m.datSet = b.datSet →
      m.confRev = b.confRev → m.ndsCom = false → m.vals.map valType = b.types → ∀ d : Nat, d = (m.sqNum - s.reg (A.NET_GS_SQNUM n)).toNat →
      ((s.gsSub n).deadline ≠ none → s.reg (A.NET_GS_STNUM n) = m.stNum → d = 0 ∨ 2 ^ 31 ≤ d → ∃ t : State,
        exec (.gooseReceive p m) s = .next t ∧
          t.fld (A.NET_GS_CNT n) F.NET_GS_CNT_DUPS = min (s.fld (A.NET_GS_CNT n) F.NET_GS_CNT_DUPS + 1) (fldMax F.NET_GS_CNT_DUPS) ∧
          t.mem = s.mem ∧ t.reg (A.NET_GS_STNUM n) = s.reg (A.NET_GS_STNUM n) ∧ t.reg (A.NET_GS_SQNUM n) = s.reg (A.NET_GS_SQNUM n) ∧
          t.reg (A.NET_GS_STAT n) = s.reg (A.NET_GS_STAT n) ∧ t.gsSub n = s.gsSub n) ∧
      ((s.gsSub n).deadline = none ∨ s.reg (A.NET_GS_STNUM n) ≠ m.stNum ∨ 0 < d ∧ d < 2 ^ 31 → ∃ t : State,
        exec (.gooseReceive p m) s = .next t ∧
          t.reg (A.NET_GS_STNUM n) = m.stNum ∧ t.reg (A.NET_GS_SQNUM n) = m.sqNum ∧ t.gooseValid n = true ∧ t.gsState n = 1 ∧
          (t.gsSub n).deadline = some (s.tim.up + (if m.tal = 0 then 2000 else m.tal) * 1000000))) ∧
    (∀ (n : Fin 128) (u : Nat), (s.gsSub n).deadline = some u → u ≤ s.tim.up → s.gooseValid n = true → ∃ t : State,
      exec (.gooseSubLost n) s = .next t ∧ t.gooseValid n = false ∧ t.gsState n = 2)

/-- Hank remote I/O (R347–R355, R359): an announcing module of the declared product is joined and configured, again every 50 ms until it
acknowledges; exchanges then run, each OUTPUT with the next sequence number; an INPUT in sequence is taken as one set; a module that stays
silent for STALE cycles is lost. -/
def Obligations.HankExchange : Prop :=
  ∀ (s : State) (m : Fin 64), s.Live →
    (∀ (p : Fin 4) (d : HankPdu) (h : HankDecl), d.m = m.val → (s.hankRx p d).1 = true → s.hankDecl m = some h →
      d.payload.length = 20 →
      (h.product.toNat = beVal (d.payload.take 4) → ∃ t : State, exec (.hankAnnounceReceive p d) s = .next t ∧ t.modState m = 1 ∧
        (t.hnkMod m).exchange = false ∧ (t.hnkMod m).rxSeq = d.seq ∧
        (d.mac ≠ 0 → s.role = 0 ∨ s.role = 1 → (t.hnkMod m).cfgAt = some s.tim.up)) ∧
      (h.product.toNat ≠ beVal (d.payload.take 4) → ∃ t : State, exec (.hankAnnounceReceive p d) s = .next t ∧ t.modState m = 5)) ∧
    (∀ u : Nat, (s.hnkMod m).cfgAt = some u → u + 50000000 ≤ s.tim.up → s.role = 0 ∨ s.role = 1 → s.hankDecl m ≠ none → ∃ t : State,
      exec (.hankConfigResend m) s = .next t ∧ (t.hnkMod m).cfgAt = some s.tim.up ∧
        t.fld (A.HNK_MOD_SEQ m) F.HNK_MOD_SEQ_SEQTX = (s.fld (A.HNK_MOD_SEQ m) F.HNK_MOD_SEQ_SEQTX + 1) % 65536) ∧
    (∀ (p : Fin 4) (d : HankPdu), d.m = m.val → (s.hankRx p d).1 = true → d.payload.length = 6 → s.modState m = 1 →
      (s.hnkMod m).exchange = false →
      (d.payload.headD 0 = 0 → ∃ t : State, exec (.hankConfigAckReceive p d) s = .next t ∧ (t.hnkMod m).exchange = true ∧
        (t.hnkMod m).anySeq = true ∧ (t.hnkMod m).cfgAt = none) ∧
      (d.payload.headD 0 ≠ 0 → ∃ t : State, exec (.hankConfigAckReceive p d) s = .next t ∧ t.modState m = 5)) ∧
    (∀ u : Nat, (s.hnkMod m).nextOut = some u → u ≤ s.tim.now + 20000 → (s.hnkMod m).exchange = true → s.role = 0 ∨ s.role = 1 →
      ∃ t : State, exec (.hankOutputSend m) s = .next t ∧ (t.hnkMod m).nextOut = s.hankNext m (u + 1) ∧
        (t.hnkMod m).delivered = false ∧
        t.fld (A.HNK_MOD_SEQ m) F.HNK_MOD_SEQ_SEQTX = (s.fld (A.HNK_MOD_SEQ m) F.HNK_MOD_SEQ_SEQTX + 1) % 65536) ∧
    (∀ (p : Fin 4) (d : HankPdu) (n k : Nat), d.m = m.val → (s.hankRx p d).1 = true → n = s.fld (A.HNK_MOD_CFG m) F.HNK_MOD_CFG_ILEN →
      d.payload.length = n + 2 → (s.hnkMod m).exchange = true → k = (d.seq.toNat + 65536 - (s.hnkMod m).rxSeq.toNat) % 65536 →
      ((s.hnkMod m).anySeq = true ∨ (0 < k ∧ k < 32768)) → ∃ t : State, exec (.hankInputReceive p d) s = .next t ∧
        (∀ (i : Nat) (b : Byte), i < n → d.payload[i]? = some b → t.octet (iBase + 0x1000 + 64 * m.val + i) = b) ∧
        t.modState m = 2 ∧ (t.hnkMod m).rxSeq = d.seq ∧ (t.hnkMod m).lastIn = some s.tim.up) ∧
    (∀ u : Nat, (s.hnkMod m).lastIn = some u → s.modState m = 2 →
      u + s.fld (A.HNK_MOD_CFG m) F.HNK_MOD_CFG_STALE * s.hankPeriod m < s.tim.up → ∃ t : State,
      exec (.hankModuleLost m) s = .next t ∧ t.modState m = 3)

/-! ### Twins -/

/-- The link and the claim line (R367, R370–R377, R384): what the link's loss and return, the peer's claim, its silence and the timers of
a twin do to claim, gate and role. -/
def Obligations.TwinClaims : Prop :=
  ∀ s : State,
    (s.Live → s.linkUp = false → ∃ t : State, exec .plyLinkUp s = .next t ∧ t.linkUp = true ∧ t.ply.linkDown = none ∧
      (s.role = 3 ∨ (s.role = 2 ∧ s.isol = true) → t.role = 3 ∧ t.jstep = 1) ∧ (s.role ≠ 3 → s.role ≠ 2 → t.role = s.role)) ∧
    (s.Live → s.linkUp = true → ∃ t : State, exec .plyLinkDown s = .next t ∧ t.linkUp = false ∧ t.ply.lost = true ∧
      t.ply.linkDown = some s.tim.up ∧ t.peerRole = 7 ∧
      (s.mayTake = true → s.peerClaims = false → t.role = 1 ∧ t.claiming = true) ∧
      (s.mayTake = false ∨ s.peerClaims = true → t.role = s.role)) ∧
    (∀ u : Nat, s.Live → s.ply.linkDown = some u → s.role = 2 → s.isol = false → s.linkUp = false → s.peerClaims = true →
      u + 5000 ≤ s.tim.up → ∃ t : State, exec .isolationTimeout s = .next t ∧ t.isol = true ∧ t.net.tx = [] ∧ t.role = 2) ∧
    (∀ u : Nat, s.Live → s.cfg.switched = some u → s.role = 3 → s.linkUp = false → s.peerClaims = false →
      u + s.fld A.PLY_CFG F.PLY_CFG_ALONE * 500000000 ≤ s.tim.up → ∃ t : State, exec .aloneTimeout s = .next t ∧ t.role = 1 ∧
        t.claiming = true ∧ t.bit A.PLY_STAT 25 = true) ∧
    (s.peerClaims = false → ∃ t : State, exec .peerClaimStart s = .next t ∧ t.peerClaims = true ∧ t.bit A.PLY_STAT 25 = false ∧
      ((∃ u, s.ply.claimAt = some u ∧ s.tim.up ≤ u + 3000) → s.claiming = true → t.claiming = false ∧
        (s.sideB = false → t.ply.backoff = some s.tim.up) ∧ (s.sideB = true → t.role = 3)) ∧
      (s.role = 1 → s.claiming = false → s.ply.backoff = none → t.role = 2 ∧ t.takeOk = true)) ∧
    (∀ stopped : Bool, s.peerClaims = true → s.tim.now < 2 ^ 64 → ∃ t : State, exec (.peerClaimSilent stopped) s = .next t ∧
      t.peerClaims = false ∧ (s.mayTake = true → (s.linkUp = false ∨ stopped = true) → t.role = 1 ∧ t.claiming = true ∧
        t.bit A.PLY_STAT 25 = true ∧ t.reg64 A.PLY_LASTTO_LO A.PLY_LASTTO_HI = s.tim.now) ∧
      (s.mayTake = false ∨ (s.linkUp = true ∧ stopped = false) → t.role = s.role ∧ t.bit A.PLY_STAT 25 = s.claiming)) ∧
    (s.Live → s.linkUp = true → s.role ≠ 0 → s.role ≠ 7 → ∃ t : State, exec .claimDisagreeTimeout s = .next t ∧
      t.bit A.PLY_STAT 20 = true ∧ t.role = s.role ∧ (s.role ≠ 1 → .claimFault ∈ t.ply.sent)) ∧
    (∀ u : Nat, s.Live → s.ply.backoff = some u → u + 2000 ≤ s.tim.up → ∃ t : State, exec .claimBackoffEnd s = .next t ∧
      t.claiming = true ∧ t.ply.backoff = none ∧ t.bit A.PLY_STAT 25 = !s.peerClaims)

/-- Admission (R369): an admissible peer is admitted and shown; one whose identity does not pass is turned away; a refused ply becomes
QUARANTINED and stops its claim. -/
def Obligations.TwinAdmission : Prop :=
  ∀ s : State, s.Live → s.linkUp = true → s.role = 1 ∨ s.role = 2 ∨ s.role = 3 →
    (∀ (p : PeerIdentity) (im : Image) (r : Pairing), s.cfg.image = some im → im.pairing = some r → im.hash = p.imageHash →
      s.ownAdmissible r = true →
      (s.peerAdmissible r p = true → p.sideB = !s.sideB → ∃ t : State, exec (.peerIdentityReceive p) s = .next t ∧
        t.bit A.PLY_PEERST 28 = true ∧ t.ply.peer = some p ∧ t.ply.lastPeer = p.certDigest ∧
        ∀ w < 12, t.reg (A.PLY_PEERID w) = hashWord p.certDigest w) ∧
      (s.peerAdmissible r p = false → ∃ t : State, exec (.peerIdentityReceive p) s = .next t ∧ t.bit A.PLY_PEERST 28 = false ∧
        t.fld A.PLY_PEERST F.PLY_PEERST_QREASON = (if r.adoptive then 3 else 2) ∧ t.role = s.role)) ∧
    (∃ t : State, exec .peerRefusalReceive s = .next t ∧ t.role = 4 ∧ t.claiming = false ∧
      t.fld A.PLY_PEERST F.PLY_PEERST_QREASON = 4)

/-- Results of every frame (R376, R377, R387): own and peer results of one frame are ORed; what comes early waits; after 25 µs the ply's own
results stand, and the third miss in a row loses the peer; a joiner whose bay has not agreed within 1,000 frames goes on as FOLLOWER with a warning. -/
def Obligations.TwinResults : Prop :=
  ∀ (s : State) (bay : Fin 8) (b : Nat), s.Live → b = bay.val →
    (∀ (n : Nat) (bits : List (Nat × (Bool × Bool))), s.merging = true →
      (∀ w : BayResult, tabGet none s.ply.waiting b = some w → w.n = n → ∃ t : State,
        exec (.peerResultsReceive bay n bits) s = .next t ∧ tabGet none t.ply.waiting b = none ∧
        ∀ (x : Nat) (o : Bool × Bool), w.bits.filter (fun e => e.1 == x) = [(x, o)] → tabGet (false, false) t.ply.merged x =
          (o.1 || ((peerBits bits x).getD (false, false)).1, o.2 || ((peerBits bits x).getD (false, false)).2)) ∧
      (tabGet none s.ply.waiting b = none → (∀ fr, (s.bayProt b).hist.head? = some fr → fr.n < n) → ∃ t : State,
        exec (.peerResultsReceive bay n bits) s = .next t ∧
          tabGet none t.ply.early b = some { n := n, bits := bits, at_ := s.tim.up } ∧ t.regs = s.regs)) ∧
    (∀ w : BayResult, tabGet none s.ply.waiting b = some w → w.at_ + 25000 ≤ s.tim.up → ∃ t : State,
      exec (.mergeWindowEnd bay) s = .next t ∧ tabGet none t.ply.waiting b = none ∧
        (s.fld (A.PLY_BAY b) F.PLY_BAY_CONSEC < 2 → t.fld (A.PLY_BAY b) F.PLY_BAY_CONSEC = s.fld (A.PLY_BAY b) F.PLY_BAY_CONSEC + 1) ∧
        (2 ≤ s.fld (A.PLY_BAY b) F.PLY_BAY_CONSEC → t.ply.lost = true) ∧
        ∀ (x : Nat) (o : Bool × Bool), w.bits.filter (fun e => e.1 == x) = [(x, o)] → tabGet (false, false) t.ply.merged x = o) ∧
    (∀ w : Word, ∃ t : State, exec (.peerTripStateReceive w) s = .next t ∧ t.trip.peerState = w ∧ { t with trip := s.trip } = s) ∧
    (s.role = 3 → s.jstep = 3 → s.bit A.PRT_STAT (24 + b) = true → 1000 ≤ tabGet 0 s.ply.shadowN b →
      s.fld (A.PLY_BAY b) F.PLY_BAY_SHADOW ≠ 100 → ∃ t : State, exec .shadowPassTimeout s = .next t ∧ t.role = 2 ∧ t.takeOk = true ∧
        t.bit A.PLY_STAT 21 = true)

/-- What a twin shares (R378–R382, R385, R386): shipped frames are relayed unchanged and acknowledged, and sent by the actor on the acknowledgement
or after 4 µs; the actor's snapshot goes out at T_copy, a sound one is applied and a bad one starts the join again; streamed changes are
applied while joining; forwarded commands, overlays and trip resets act on this ply. -/
def Obligations.TwinSharing : Prop :=
  ∀ s : State, s.Live →
    (∀ f : TxFrame, s.role = 2 → s.isol = false → s.linkUp = true → (∀ m, f.body = .goose m → m.g < 32) →
      (∀ d, f.body = .hank d → d.m < 64) → ∃ t : State, exec (.shippedFrameReceive f) s = .next t ∧
        t.ply.sent = s.ply.sent ++ [.ack] ∧ ∀ (p q : Nat), p ∈ s.pairPorts f.process → q = (if f.high then 8 else 9) + 2 * p →
          (s.txRing q).length < 64 → t.txRing q = s.txRing q ++ [f]) ∧
    (∀ (u : TxFrame × Nat) (l : List (TxFrame × Nat)) (c : Instr), s.ply.unacked = u :: l → s.holdUntil u.1 = none →
      (c = .shipAckReceive ∨ (c = .shipAckTimeout ∧ u.2 + 4000 ≤ s.tim.up)) → ∃ t : State, exec c s = .next t ∧ t.ply.unacked = l ∧
        ∀ (p q : Nat), p ∈ s.pairPorts u.1.process → q = (if u.1.high then 8 else 9) + 2 * p → (s.txRing q).length < 64 →
          t.txRing q = s.txRing q ++ [u.1]) ∧
    (∀ u : Nat, s.ply.copyAt = some u → u ≤ s.tim.now → s.role = 1 → s.linkUp = true → ∃ t : State,
      exec .copySnapshotTake s = .next t ∧ t.ply.copyAt = none ∧ t.ply.stream = some s.snapshotNow ∧
        t.ply.sent = s.ply.sent ++ [.snapshot s.snapshotNow]) ∧
    (∀ c : Snapshot, s.role = 3 → s.jstep = 2 →
      (c.crcOk = false → ∃ t : State, exec (.copySnapshotReceive c) s = .next t ∧ t.jstep = 1 ∧ t.role = 3 ∧ t.mem = s.mem) ∧
      (c.crcOk = true → ∃ t : State, exec (.copySnapshotReceive c) s = .next t ∧ t.ply.lost = false ∧ t.ply.waiting = [] ∧
        tabGet 0 t.net.prpSeq 0 = c.prpSeqS.toNat ∧ tabGet 0 t.net.prpSeq 1 = c.prpSeqP.toNat)) ∧
    (∀ (a : Nat) (b : Byte), s.role = 3 → s.jstep = 3 → (s.retentive a = true ∨ inC a = true) → ∃ t : State,
      exec (.streamedChangeReceive (.mem a b)) s = .next t ∧ t.octet a = b ∧ (∀ o : Nat, o ≠ a → t.octet o = s.octet o) ∧
        { t with mem := s.mem } = s) ∧
    (∀ (e : HostEntry) (u : Nat), s.linkUp = true →
      (s.role = 1 → ∃ t : State, exec (.forwardedCommandReceive 0x40 e u) s = .next t ∧
        t.hdl.acts = s.hdl.acts ++ [(s.tApply, .run)] ∧ .response ((replyAt s.tApply).entry e.tag 0x40) ∈ t.ply.sent) ∧
      (s.role = 2 → s.isol = false → ∃ t : State, exec (.forwardedCommandReceive 0x40 e u) s = .next t ∧
        t.hdl.acts = s.hdl.acts ++ [(u, .run)])) ∧
    (s.linkUp = true → s.role = 2 → s.isol = false →
      (∀ (k : Fin 9) (src : Fin 6) (u : Nat), s.ovlUsable k = true → ∃ t : State, exec (.peerOverlayReceive k src u) s = .next t ∧
        { k := k.val, t := u, src := src.val } ∈ t.cfg.acts) ∧
      (∀ (ch : Fin 32) (c : Nat), c = ch.val → s.bit A.PRT_TCH_STATE c = true → s.channelLatched c = true →
        s.fld A.PRT_STAT F.PRT_STAT_WM_SRC = 2 →
        (s.channelSource c = true → ∃ t : State, exec (.peerTripResetReceive ch) s = .next t ∧ .tripResetRefused c ∈ t.ply.sent ∧
          t.bit A.PRT_TCH_STATE c = true) ∧
        (s.channelSource c = false → s.bit A.PRT_TCH_PULSE c = false → ∃ t : State, exec (.peerTripResetReceive ch) s = .next t ∧
          t.bit A.PRT_TCH_STATE c = false)))

/-! ### Almanac and overlays -/

/-- The Almanac (R393–R408, R411): a value goes to its bin or its extreme; an interval's boundary stages its records; a commit numbers and keeps
the oldest staged record, a failed one degrades the store; the scan allows commits; a peer's record is staged with REMOTE. -/
def Obligations.AlmanacRecords : Prop :=
  ∀ s : State, s.Live →
    (∀ (src : BitVec 16) (v : Word) (invalid : Bool), s.almSource src.toNat = some (v, invalid) → fpIsFinite v = true →
      (∀ h i : Nat, (List.range 256).filter (fun h => (s.almPlan h).running && s.fld (A.ALM_PLAN_SRC h) F.ALM_PLAN_SRC_SRC == src.toNat) = [h] →
        (List.range 1024).filter (fun k => (s.almTrk k).running && s.fld (A.ALM_XT_CFG k) F.ALM_XT_CFG_SRC == src.toNat) = [] →
        s.fld (A.ALM_PLAN_CFG h) F.ALM_PLAN_CFG_MODE = 1 →
        i = (if invalid then s.fld (A.ALM_PLAN_CFG h) F.ALM_PLAN_CFG_NB + 2 else s.almBinOf h (fpVal v)) → ∃ t : State,
        exec (.almanacValue src {} {}) s = .next t ∧
          (t.reg (A.ALM_BIN (s.fld (A.ALM_PLAN_SRC h) F.ALM_PLAN_SRC_BASE + i))).toNat =
            min ((s.reg (A.ALM_BIN (s.fld (A.ALM_PLAN_SRC h) F.ALM_PLAN_SRC_BASE + i))).toNat + 1) 0xFFFFFFFF) ∧
      (∀ k : Nat, (List.range 256).filter (fun h => (s.almPlan h).running && s.fld (A.ALM_PLAN_SRC h) F.ALM_PLAN_SRC_SRC == src.toNat) = [] →
        (List.range 1024).filter (fun k => (s.almTrk k).running && s.fld (A.ALM_XT_CFG k) F.ALM_XT_CFG_SRC == src.toNat) = [k] →
        invalid = false → (s.bit (A.ALM_XL_FLG k) 0 = true ∨ (fpIsFinite (s.reg (A.ALM_XL_MIN k)) = true ∧
          fpVal v < fpVal (s.reg (A.ALM_XL_MIN k)))) → s.tim.now < 2 ^ 64 → ∃ t : State,
        exec (.almanacValue src {} {}) s = .next t ∧ t.reg (A.ALM_XL_MIN k) = v ∧ t.bit (A.ALM_XL_FLG k) 0 = false ∧
          t.reg64 (A.ALM_XL_TMIN_LO k) (A.ALM_XL_TMIN_HI k) = s.tim.now)) ∧
    (∀ (ch : Fin 32) (m : Interruption), tabGet none s.alm.interrupt ch.val = some m →
      (s.phasesBelow (s.fld (A.PRT_TCH_CFG ch) F.PRT_TCH_CFG_BFBAY) = true ∨ m.since + 2000000000 ≤ s.tim.up) → ∃ t : State,
      exec (.interruptionMeasureEnd ch) s = .next t ∧ tabGet none t.alm.interrupt ch.val = none) ∧
    (∀ (k : Fin 5) (u : Nat), tabGet none s.alm.nextB k.val = some u → u ≤ s.tim.now → ∃ t : State,
      exec (.intervalBoundary k) s = .next t ∧ tabGet none t.alm.nextB k.val = some (s.nextBoundary k s.tim.now) ∧
        t.alm.staged = s.alm.staged ++ ((s.plansOf k).flatMap (fun h => s.planRecords h (s.reg A.ALM_OPSEC) 0) ++
          (s.trkSets k).map (fun r => s.trkRecord r (s.reg A.ALM_OPSEC) 0)).map (fun r => { body := r, at_ := u, remote := false })) ∧
    (∀ (cause : Fin 6) (addr : Word) (g : Staged) (l : List Staged), s.alm.staged = g :: l → s.alm.scanned = true →
      s.fld A.ALM_STAT F.ALM_STAT_STATE ≠ 0 →
      (∀ (area : Nat) (old : Option Stored), s.almRoom g.body = some (area, old) → ∃ t : State, exec (.almanacCommit true cause addr) s = .next t ∧
        t.alm.staged = l ∧ t.reg A.ALM_NEXTREC = s.reg A.ALM_NEXTREC + 1 ∧
        ∃ e : Stored, t.alm.store.getLast? = some e ∧ e.body.number = s.reg A.ALM_NEXTREC ∧ e.area = area ∧ e.body.payload = g.body.payload) ∧
      (s.almRoom g.body = none → ∃ t : State, exec (.almanacCommit true cause addr) s = .next t ∧ t.alm.staged = l ∧
        t.alm.store = s.alm.store ∧ t.alm.refSince = s.alm.refSince + 1) ∧
      (cause.val ≠ 0 → s.fld A.ALM_STAT F.ALM_STAT_STATE ≠ 2 → ∃ t : State, exec (.almanacCommit false cause addr) s = .next t ∧
        t.fld A.ALM_STAT F.ALM_STAT_STATE = 2 ∧ t.alm.staged = s.alm.staged)) ∧
    (∀ (g : Staged) (l : List Staged), s.alm.staged = g :: l → s.alm.late = false → g.at_ + 5000000000 ≤ s.tim.now → ∃ t : State,
      exec .commitLate s = .next t ∧ t.alm.late = true ∧ t.alm.staged = s.alm.staged) ∧
    (s.alm.scanned = false → s.cfg.image ≠ none → s.fld A.ALM_STAT F.ALM_STAT_STATE ≠ 2 → ∃ t : State, exec .keepScanDone s = .next t ∧
      t.alm.scanned = true ∧ (t.fld A.ALM_STAT F.ALM_STAT_STATE = 1 ∨ t.fld A.ALM_STAT F.ALM_STAT_STATE = 3) ∧ t.alm.held = none ∧
      ∀ e : Stored, s.alm.store.getLast? = some e → t.reg A.ALM_NEXTREC = e.body.number + 1) ∧
    (∀ r : AlmRecord, s.fld A.ALM_STAT F.ALM_STAT_STATE ≠ 2 → ∃ (t : State) (g : Staged), exec (.remoteRecordReceive r) s = .next t ∧
      t.alm.staged = s.alm.staged ++ [g] ∧ g.remote = true ∧ g.body.payload = r.payload ∧ { t with alm := { t.alm with staged := s.alm.staged } } = s)

/-- An overlay takes effect at its T (R432–R435): INFORCE shows it, a changed trip channel register takes its word at once, and what
belongs to a bay waits for the bay's boundary. -/
def Obligations.OverlayTakesEffect : Prop :=
  ∀ (s : State) (a : OvlAct) (l : List OvlAct) (was : Nat) (ch : List (Nat × Word)), s.Live → s.cfg.acts = a :: l → a.t ≤ s.tim.now → a.k ≤ 8 →
    was = s.fld A.CFG_OVL F.CFG_OVL_INFORCE → was ≠ a.k → ch = s.ovlChanges was a.k →
    (∀ e ∈ s.ovlPatch was ++ s.ovlPatch a.k, e.1 ≠ A.CFG_OVL ∧ e.1 ≠ A.CFG_OVL_T_LO ∧ e.1 ≠ A.CFG_OVL_T_HI) →
    ∃ t : State, exec .overlayTakeEffect s = .next t ∧ t.fld A.CFG_OVL F.CFG_OVL_INFORCE = a.k ∧ t.cfg.acts = l ∧
      (∀ (c : Nat) (w : Word), c < 32 → (A.PRT_TCH_CFG c, w) ∈ ch → t.reg (A.PRT_TCH_CFG c) = w) ∧
      (∀ (b : Nat) (e : Nat × Word) (x : Bool), b < 8 → e ∈ ch → s.ovlPlace e.1 = some (b, x) → ∃ d : BayChange,
        tabGet [] t.cfg.bayDue b = tabGet [] s.cfg.bayDue b ++ [d] ∧ d.t = a.t ∧ d.k = a.k ∧ e ∈ (if x then d.chain else d.prot))

/-! ### Power, resets and the start -/

/-- Restarts (R375, R440, R444, R521): RESTART, RESET_N, a fatal fault, the claim watchdog and the end of Watchman mode show their cause,
keep the trip matrix, the keep-alive counters and the RTC, stop the claim, and leave the acquisition not switched. -/
def Obligations.Restarts : Prop :=
  ∀ (s : State) (c : Instr) (k : Nat),
    ((∃ (u : Nat) (w : Word), c = .restartReset ∧ k = 1 ∧ s.host.restartAt = some (u, w) ∧ u + 1000000 ≤ s.tim.up) ∨
      (c = .supervisorWatchdogExpiry ∧ k = 2 ∧ s.pwr.on = true) ∨
      (c = .claimWatchdogExpire ∧ k = 2 ∧ s.role = 1 ∧ s.claiming = true ∧
        s.ply.claimFed + s.fld A.PLY_CFG F.PLY_CFG_CLAIMWD * 1000000 ≤ s.tim.up) ∨
      (c = .watchmanExit ∧ k = 3 ∧ s.pwr.on = true ∧ s.inWatchman = true ∧ s.pwr.pfwAt + 100000000 ≤ s.tim.up) ∨
      (∃ b : Option Boot, c = .resetNAssert b ∧ k = 4 ∧ s.pwr.on = true)) →
    ∃ t : State, exec c s = .next t ∧ t.fld A.SUP_RSTCAUSE F.SUP_RSTCAUSE_CAUSE = k ∧
      t.fld A.SUP_TSTART F.SUP_TSTART_TPROT = 0xFFFF ∧
      (∀ j < 32, t.bit A.PRT_TCH_STATE j = s.bit A.PRT_TCH_STATE j ∧ t.bit A.PRT_TCH_PULSE j = s.bit A.PRT_TCH_PULSE j ∧
        t.bit A.PRT_TCH_LATCHED j = s.bit A.PRT_TCH_LATCHED j) ∧
      t.trip.pulseEnd = s.trip.pulseEnd ∧ t.reg A.ALM_OPSEC = s.reg A.ALM_OPSEC ∧ t.reg A.ALM_PWRCYC = s.reg A.ALM_PWRCYC ∧
      t.tim.rtc = s.tim.rtc ∧ t.claiming = false ∧ t.cfg.switched = none ∧ t.inWatchman = false ∧ t.pending = s.pending

/-- Supplies (R26, R262, R440, R452, R453, R505, R514, R518): power-good starts the device with cause 0 and every channel released, a rail
out of range stops it; the power-fail warning stops the claim and drops what waits; Watchman mode gates the rest off and saves; the keep-alive supply
and the crystal are followed. -/
def Obligations.PowerAndWatchman : Prop :=
  ∀ s : State,
    (∀ p : PowerIn, ∃ t : State, exec (.powerGood p) s = .next t ∧ t.pwr.on = true ∧ t.fld A.SUP_RSTCAUSE F.SUP_RSTCAUSE_CAUSE = 0 ∧
      t.fld A.HST_STAT F.HST_STAT_MODE = (if p.spiMode then 2 else 1) ∧ t.bit A.PLY_STAT 28 = p.sideB ∧ t.cfg.boot = some p.boot ∧
      t.cfg.image = none ∧ (∀ j < 32, t.bit A.PRT_TCH_STATE j = false) ∧ t.reg A.SUP_HEALTH = BitVec.ofNat 32 p.healthy.toNat ∧
      (p.vbatLost = false → (t.reg A.ALM_PWRCYC).toNat = min ((s.reg A.ALM_PWRCYC).toNat + 1) 0xFFFFFFFF) ∧ t.pending = s.pending) ∧
    (s.pwr.on = true → ∃ t : State, exec .railOutOfRange s = .next t ∧ t.pwr.on = false ∧ (∀ j < 32, t.bit A.PRT_TCH_STATE j = false) ∧
      t.reg A.ALM_OPSEC = s.reg A.ALM_OPSEC ∧ t.tim.rtc = s.tim.rtc) ∧
    (s.pwr.on = true → s.pwr.pfw = false → ∃ t : State, exec .pfwAssert s = .next t ∧ t.pwr.pfw = true ∧ t.pwr.pfwAt = s.tim.up ∧
      t.hdl.acts = [] ∧ t.cfg.acts = [] ∧ t.claiming = false ∧ (s.claiming = true → t.net.tx = [])) ∧
    (s.pwr.on = true → s.inWatchman = false → s.fld A.SUP_STAT F.SUP_STAT_PHASE ≠ 0 →
      ((s.pwr.pfw = true ∧ s.pwr.pfwAt + 50000 ≤ s.tim.up) ∨ s.tooHot = true) → ∃ t : State, exec .watchmanEntry s = .next t ∧
      t.inWatchman = true ∧ t.fld A.SUP_STAT F.SUP_STAT_PHASE = 8 ∧ t.claiming = false ∧ t.net.tx = [] ∧
      t.bit A.PWR_DOMAIN_STAT 2 = false ∧ t.bit A.PWR_DOMAIN_STAT 3 = false ∧ (∀ c < 4, t.reg (A.PWR_CLUSTER c) = 3) ∧
      (∀ im : Image, s.cfg.switched ≠ none → s.cfg.image = some im → s.fld A.ALM_STAT F.ALM_STAT_STATE ≠ 2 →
        ∃ d : SaveData, t.keep.save = some d ∧ d.hash = im.hash ∧ d.mode = s.logicMode ∧ d.rtc = s.tim.rtc)) ∧
    (∃ t : State, exec .keepAliveToVbat s = .next t ∧ t.pwr.onVbat = true ∧ t.bit A.PWR_DOMAIN_STAT 0 = true ∧
      { t with regs := s.regs, pwr := s.pwr } = s) ∧
    (∃ t : State, exec .keepAliveToVddKa s = .next t ∧ t.pwr.onVbat = false ∧ { t with pwr := s.pwr } = s) ∧
    (∃ t : State, exec .crystalStop s = .next t ∧ t.tim.rtcSlow = true ∧ { t with tim := { t.tim with rtcSlow := s.tim.rtcSlow } } = s)

/-- The start (R47, R48, R75, R440, R441, R470): the sample clock's lock begins the start-up calibration, which repeats for rejected
converters and then ends; a boot memory without a directory fails the start, a good image is loaded; on the second boundary the image takes over; the
PCIe link shows. -/
def Obligations.StartSequence : Prop :=
  ∀ s : State,
    (∀ q : List CalResult, q.length = 17 → s.fld A.SUP_STAT F.SUP_STAT_PHASE = 0 → s.pwr.refclk = true →
      s.bit A.PWR_DOMAIN_STAT 1 = false → ∃ t : State, exec (.sampleClockLock q) s = .next t ∧ t.bit A.PWR_DOMAIN_STAT 1 = true ∧
        (s.pwr.pfw = false → t.acq.calStart = some s.tim.up ∧ t.fld A.SUP_STAT F.SUP_STAT_PHASE = 1) ∧
        (s.pwr.pfw = true → t.acq.calStart = none ∧ t.fld A.SUP_STAT F.SUP_STAT_PHASE = 8 ∧ ∀ c < 4, t.reg (A.PWR_CLUSTER c) = 3)) ∧
    (∀ (r : List CalResult) (u : Nat), s.acq.calStart = some u → u + 12000000 ≤ s.tim.up → s.acq.failed1 = [] → r.length = 17 →
      (∀ n < 17, s.convState n ≠ 3) →
      ((∀ (n : Nat) (x : CalResult), r[n]? = some x → s.calAccepted n x = true) → ∃ t : State, exec (.startupCalDone r) s = .next t ∧ t.acq.calStart = none ∧ t.acq.failed1 = []) ∧
      (∀ (n : Nat) (x : CalResult), r[n]? = some x → s.calAccepted n x = false → ∃ t : State, exec (.startupCalDone r) s = .next t ∧
        t.acq.calStart = some s.tim.up ∧ n ∈ t.acq.failed1)) ∧
    (∀ m : Boot, s.Live → s.fld A.SUP_STAT F.SUP_STAT_PHASE = 1 → s.cfg.boot = some m →
      (bootDirectory m = none → ∃ t : State, exec .enginesLoaded s = .next t ∧ t.fld A.SUP_STAT F.SUP_STAT_PHASE = 9 ∧
        t.fld A.CFG_STAT F.CFG_STAT_STATE = 2) ∧
      (∀ (d : Directory) (f i : Nat) (fw : Firmware) (c : Chosen) (s1 s2 : State), bootDirectory m = some d →
        firstSlot (tryFw m d) s (slotOrder d.prefFw) = (some (f, fw), s1) →
        firstSlot (tryImage m d fw) s1 (slotOrder d.prefImage) = (some (i, c), s2) → ∃ t : State, exec .enginesLoaded s = .next t ∧
          t.fld A.SUP_STAT F.SUP_STAT_PHASE = 6 ∧ t.cfg.image = some c.im)) ∧
    (∀ im : Image, s.Live → s.fld A.SUP_STAT F.SUP_STAT_PHASE = 6 → s.tim.now % 1000000000 = 0 → s.cfg.image = some im → ∃ t : State,
      exec .acqReelSwitch s = .next t ∧ t.cfg.switched = some s.tim.up ∧ t.fld A.PRT_STAT F.PRT_STAT_WM_SRC = 2 ∧
        (im.pairing = none → t.role = 0) ∧ (im.pairing ≠ none → s.ply.peer = none → t.role = 3) ∧
        ∀ b < 8, t.bit (A.PRT_BAYCFG b) 31 = true → (t.bayChain b).next = (s.tim.smp : Rat)) ∧
    (∀ (up : Bool) (speed : Fin 4) (width : Fin 3), s.Live → s.bit A.PWR_DOMAIN_STAT 3 = true → s.fld A.HST_STAT F.HST_STAT_MODE = 1 →
      ∃ t : State, exec (.pcieLinkChange up speed width) s = .next t ∧ t.bit A.HST_STAT 29 = up ∧
        t.fld A.HST_STAT F.HST_STAT_SPEED = (if up then speed.val else 0) ∧ t.fld A.HST_STAT F.HST_STAT_WIDTH = (if up then width.val else 0) ∧
        t.fld A.HST_STAT F.HST_STAT_MODE = 1 ∧ { t with regs := s.regs } = s)

/-! ### Host -/

/-- Commands answered on their own (R483–R485): each takes the entry at HEAD and answers on Q01, with the effect of its row. -/
def Obligations.HostCommands : Prop :=
  ∀ (s : State) (e : HostEntry), s.Offers 0 e →
    (e.p3 = 0 → ∃ t : State, exec (.echo e) s = .next t ∧ t.Answered s 0 e 0x01 0 e.p0 e.p1 e.p2) ∧
    (listedOnly e 1 3 = true → ∃ t : State, exec (.restart e) s = .next t ∧ t.Answered s 0 e 0x70 0 0 0 0 ∧
      t.host.restartAt = some (s.tim.up, e.p0)) ∧
    (s.noImage = false →
      (∀ k pos : Nat, k = par e.p0 20 16 → pos = par e.p0 14 8 → listedOnly e 1 0x1F7F03 = true → k ≤ 16 → (k < 16 → pos ≤ 10) → pos ≤ 107 →
        (k = 16 → s.s16Away = false) → ∀ n : Nat, s.firstOpen k = some n → (s.slice k).urgent = none → ∃ t : State,
        exec (.urgentConvert e) s = .next t ∧ t.qHead 0 = (s.qHead 0 + 1) % s.qDepth 0 % 65536 ∧ t.qTail 1 = s.qTail 1 ∧
          (t.slice k).urgent = some { src := 2, pos := pos, gain := par e.p0 1 0, came := s.slotNow, slot := n, tag := e.tag.toNat, heddle := 0 }) ∧
      (listedOnly e 0 0 = true → s.role = 1 → s.linkUp = true → s.ply.lost = false → s.peerRole = 2 → ∃ t : State,
        exec (.plyYield e) s = .next t ∧ t.Answered s 0 e 0x60 0 0 0 0 ∧ t.claiming = false) ∧
      (∀ h : Nat, listedOnly e 0 0 = true → s.logicMode = 2 → h = (s.reg A.HDL_BRK).toNat / 2 ^ 28 % 4 → (s.heddle h).run ≠ none →
        ∃ t : State, exec (.logicStep e) s = .next t ∧
          t = (((s.qTake 0).wakeFor 3).logicStepOne h).respond (respEntry e.tag.toNat 0 0x43 0 0 0)) ∧
      (listedOnly e 1 0xFFFFFFFF = true →
        (e.p0.toNat ≤ 127 → ∃ t : State, exec (.trackerReset e) s = .next t ∧ t.Answered s 0 e 0x11 0 0 0 0 ∧
          t.reg (A.ACQ_TRK_MIN e.p0.toNat) = 0 ∧ t.reg (A.ACQ_TRK_MAX e.p0.toNat) = 0 ∧ t.bit (A.ACQ_TRK_STAT e.p0.toNat) 29 = true) ∧
        (e.p0.toNat ≤ 15 → s.bit (A.CAP_PLAN_CFG e.p0.toNat) 31 = true → ∃ t : State, exec (.captureTrigger e) s = .next t ∧
          t.Answered s 0 e 0x21 0 0 0 0 ∧ ∀ (d : Nat) (l : List Nat) (r : CapRec), (s.capPlan e.p0.toNat).open_ = d :: l →
            s.capRec d = some r → s.tim.now ≤ r.endT → s.tim.now ≤ r.first + 8000000000 → ∃ r' : CapRec, t.capRec d = some r' ∧
              r'.count = min (r.count + 1) 0xFFFF ∧ r'.endT = min (max r.endT (s.tim.now + r.post)) (r.first + 8000000000)) ∧
        (∀ d : Nat, s.heldRec e.p0 = some d →
          (2 ≤ s.capState d → ∃ t : State, exec (.captureAck e) s = .next t ∧ t.Answered s 0 e 0x22 0 0 0 0 ∧ t.capState d = 3) ∧
          (∃ t : State, exec (.captureLock e) s = .next t ∧ t.Answered s 0 e 0x23 0 0 0 0 ∧ t.bit (A.CAP_DIR_INFO d) 29 = true) ∧
          (∃ t : State, exec (.captureUnlock e) s = .next t ∧ t.Answered s 0 e 0x24 0 0 0 0 ∧ t.bit (A.CAP_DIR_INFO d) 29 = false)) ∧
        (s.logicMode ≠ 3 → e.p0.toNat ≤ 0xFFFF → (s.fld A.PRT_STAT F.PRT_STAT_ARMED = 0 ∨ s.commOn = true) → s.role ≠ 1 → ∃ t : State,
          exec (.logicHold e) s = .next t ∧ t.Answered s 0 e 0x42 0 0 0 0 ∧
            ((∀ h < 4, (s.heddle h).run = none) → t.hdl.brk = some e.p0.toNat)) ∧
        (∀ c : Nat, c = e.p0.toNat → c ≤ 31 → s.role = 0 → s.bit (A.PRT_TCH_CFG c) 29 = true → s.bit A.PRT_TCH_STATE c = true →
          s.channelLatched c = true → s.fld A.PRT_STAT F.PRT_STAT_WM_SRC = 2 →
          (s.channelSource c = true → ∃ t : State, exec (.tripReset e) s = .next t ∧ t.Answered s 0 e 0x20 3 0 0 0 ∧
            t.bit A.PRT_TCH_STATE c = true) ∧
          (s.channelSource c = false → s.bit A.PRT_TCH_PULSE c = false → ∃ t : State, exec (.tripReset e) s = .next t ∧
            t.Answered s 0 e 0x20 0 0 0 0 ∧ t.bit A.PRT_TCH_STATE c = false))))

/-- Commands that change what a twin shares (R256, R264, R379, R433, R485): where this ply acts itself each is accepted for its T_apply, which the
response names; without an actor in reach it is refused. -/
def Obligations.SharedCommands : Prop :=
  ∀ (s : State) (e : HostEntry), s.Offers 0 e → s.noImage = false →
    (s.sharedWay = .here →
      (∀ (k area size addr : Nat), area = par e.p0 30 28 → size = par e.p0 27 26 → addr = par e.p0 23 0 → listedOnly e 2 0x7CFFFFFF = true →
        forceParOk area size addr e.p1 = true → forceKnown area size addr = true → s.forceTaken area size addr = false →
        (area = 2 → (forceSpan size addr).1 < 8 * 0x204 → s.commOn = true) → s.forceFree = some k → ∃ t : State,
        exec (.forceSet e) s = .next t ∧ t.Answered s 0 e 0x30 0 (lo32 s.tApply) (hi32 s.tApply) (BitVec.ofNat 32 k) ∧
          t.hdl.acts = s.hdl.acts ++ [(s.tApply, .force k area size addr e.p1)]) ∧
      (listedOnly e 1 0xFFFFFFFF = true → e.p0.toNat ≤ 255 → ∃ t : State, exec (.forceClear e) s = .next t ∧
        t.Answered s 0 e 0x31 0 (lo32 s.tApply) (hi32 s.tApply) 0 ∧ t.hdl.acts = s.hdl.acts ++ [(s.tApply, .unforce e.p0.toNat)]) ∧
      (∀ tn : Tunable, listedOnly e 2 0xFFFFFFFF = true → s.hdl.tunables[e.p0.toNat]? = some tn → tunableTakes tn e.p1 = true →
        s.pendingOnline < 16 → ∃ t : State, exec (.onlineSet e) s = .next t ∧
        t.Answered s 0 e 0x38 0 (lo32 s.tApply) (hi32 s.tApply) 0 ∧ t.hdl.acts = s.hdl.acts ++ [(s.tApply, .online e.p0.toNat e.p1)]) ∧
      (∀ (c : Instr) (opc : Nat) (a : LogicAct), listedOnly e 0 0 = true →
        (c, opc, a) ∈ [(.forceClearAll e, 0x32, .unforceAll), (.logicRun e, 0x40, .run), (.logicStop e, 0x41, .stop)] → ∃ t : State,
        exec c s = .next t ∧ t.Answered s 0 e opc 0 (lo32 s.tApply) (hi32 s.tApply) 0 ∧ t.hdl.acts = s.hdl.acts ++ [(s.tApply, a)]) ∧
      (listedOnly e 1 0xFFFFFFFF = true → e.p0.toNat ≤ 8 → s.ovlUsable e.p0.toNat = true →
        (s.cfg.acts.filter (fun a => a.src == 3)).length < 4 → ∃ t : State, exec (.overlaySet e) s = .next t ∧
        t.Answered s 0 e 0x50 0 (lo32 s.tApply) (hi32 s.tApply) 0 ∧ { k := e.p0.toNat, t := s.tApply, src := 2 } ∈ t.cfg.acts)) ∧
    (∀ (c : Instr) (opc : Nat), listedOnly e 0 0 = true → (c, opc) ∈ [(.forceClearAll e, 0x32), (.logicRun e, 0x40), (.logicStop e, 0x41)] →
      (s.sharedWay = .nowhere → ∃ t : State, exec c s = .next t ∧ t.Answered s 0 e opc 5 0 0 0 ∧ t.hdl = s.hdl) ∧
      (s.sharedWay = .forward → ∃ (t : State) (st : Nat) (p0 p1 p2 : Word), exec c s = .next t ∧ t.Answered s 0 e opc st p0 p1 p2 ∧
        st ∈ [0, 2, 3, 5] ∧ .command (BitVec.ofNat 8 opc) e 0 ∈ t.ply.sent ∧ t.hdl = s.hdl))

/-- Security and reports (R454, R461–R466, R482): attestation starts a report, refreshed every hour; a verified token writes or revokes its slot, unlocks
debug with a new challenge or bans it for good; a refused one answers and counts; telemetry goes to Q06 every second. -/
def Obligations.SecurityCommands : Prop :=
  ∀ s : State,
    (∀ (e : HostEntry), s.Offers 3 e → listedOnly e 0 0 = true →
      (∀ nonce : BitVec 256, s.sec.report = none → s.qFull 7 = false → ∃ t : State, exec (.attest e nonce) s = .next t ∧
        t.Answered s 3 e 0x80 0 0 0 0 ∧ t.sec.report = some (nonce, (s.tim.up, true)) ∧ t.bit A.SEC_STAT 12 = true) ∧
      (∀ tk : Token, s.noImage = false →
        (s.noOwner = false → s.tokenCause 3 false tk = 0 → s.slotBlank tk.target = true → ∃ t : State,
          exec (.ownerWrite e tk) s = .next t ∧ t.Answered s 3 e 0x81 0 0 0 0 ∧ t.slotWritten tk.target = true ∧
            ∀ i < 48, t.octet (otpBase + slotAt tk.target + i) = hashOctet tk.rsaHash i ∧
              t.octet (otpBase + slotAt tk.target + 48 + i) = hashOctet tk.slhHash i) ∧
        (s.noOwner = true → s.tokenCause 3 true tk = 0 → tk.target = 0 → s.slotBlank 0 = true → ∃ t : State,
          exec (.ownerWrite e tk) s = .next t ∧ t.Answered s 3 e 0x81 0 0 0 0 ∧ t.slotWritten 0 = true) ∧
        (∀ j : Nat, s.tokenCause 4 false tk = 0 → tk.target ≤ 3 → tk.signSlot ≠ tk.target → j < 4 → j ≠ tk.target →
          s.slotSigns j = true → ∃ t : State, exec (.ownerRevoke e tk) s = .next t ∧ t.Answered s 3 e 0x82 0 0 0 0 ∧
            t.slotRevoked tk.target = true) ∧
        (s.tokenCause 2 false tk = 0 → tk.identity = s.ownDigest → s.challengeIs tk.challenge = true → s.bit A.SEC_STAT 30 = false →
          s.role ≠ 1 → ∃ t : State, exec (.debugUnlock e tk) s = .next t ∧ t.Answered s 3 e 0x83 0 0 0 0 ∧ t.bit A.SEC_STAT 31 = true) ∧
        (s.tokenCause 5 false tk = 0 → tk.identity = s.ownDigest → ∃ t : State, exec (.debugBan e tk) s = .next t ∧
          t.Answered s 3 e 0x84 0 0 0 0 ∧ t.bit A.SEC_STAT 30 = true) ∧
        (s.tokenCause 5 false tk ≠ 0 → ∃ t : State, exec (.debugBan e tk) s = .next t ∧ t.Answered s 3 e 0x84 6 0 0 0 ∧
          t.mem = s.mem))) ∧
    (∀ u : Nat, s.Live → u = s.pwr.attestAt.getD s.tim.upStart + 3600000000000 → u ≤ s.tim.up → ∃ t : State,
      exec .attestRefresh s = .next t ∧ t.pwr.attestAt = some u ∧
        (s.sec.report = none → t.sec.report = some (0, (s.tim.up, false))) ∧ (s.sec.report ≠ none → t.sec.refreshDue = true)) ∧
    (∀ x : BitVec 256 × (Nat × Bool), s.Live → s.sec.report = some x → s.sec.cert = true → s.sec.refreshDue = false → s.qFull 7 = false →
      s.host.q07Wait = [] → ∃ t : State, exec .attestReportDone s = .next t ∧ t.sec.report = none ∧ t.bit A.SEC_STAT 12 = false ∧
        t.qTail 7 = (s.qTail 7 + 1) % s.qDepth 7 % 65536) ∧
    (∀ u : Nat, s.Live → u = s.pwr.telemAt.getD s.tim.upStart + 1000000000 → u ≤ s.tim.up → s.qFull 6 = false → ∃ t : State,
      exec .telemetryPost s = .next t ∧ t.pwr.telemAt = some u ∧ t.pwr.corrSec = 0 ∧
        t.qTail 6 = (s.qTail 6 + 1) % s.qDepth 6 % 65536 ∧ (tabGet ringEntryInit t.host.slots (6144 + s.qTail 6)).typ = 6)

/-- An access that is not 32 bits wide or not aligned to 4 octets (R4): a read returns 0, a write is discarded, either raises
HST_BAD_ACCESS; beyond the report in the host block nothing changes while the report's counter does not saturate. -/
def Obligations.NarrowHostAccess : Prop :=
  ∀ (s : State) (bar2 : Bool) (off width : Nat), s.Live → s.bit A.PWR_DOMAIN_STAT 3 = true → (width ≠ 32 ∨ off % 4 ≠ 0) →
    (∃ t : State, exec (.badHostRead bar2 off width) s = .next t ∧ t.host.rdata = 0 ∧ t.evtPend Ev.HST_BAD_ACCESS = true ∧
      (s.fld A.HST_CNT F.HST_CNT_BAD + 1 < 0xFFFF → (∀ a, a < 0x10000 ∨ 0x20000 ≤ a → t.reg a = s.reg a) ∧
        { t with regs := s.regs, host := s.host } = s)) ∧
    (∀ v : Word, ∃ t : State, exec (.registerWriteOther bar2 off width v) s = .next t ∧ t.evtPend Ev.HST_BAD_ACCESS = true ∧
      (s.fld A.HST_CNT F.HST_CNT_BAD + 1 < 0xFFFF → (∀ a, a < 0x10000 ∨ 0x20000 ≤ a → t.reg a = s.reg a) ∧
        t.host.win = s.host.win ∧ { t with regs := s.regs, host := s.host } = s))

/-- Reads with an effect (R4, R60, R474, R491): the named first word of a group is returned and the whole group latched; a tracker's STAT resets
it where TRK_RDRST asks for it; a read that the device refuses returns 0 and is shown. -/
def Obligations.HostReads : Prop :=
  ∀ s : State, s.Live → s.bit A.PWR_DOMAIN_STAT 3 = true →
    (∀ (c : Instr) (a n : Nat), ((∃ x : Fin 128, (c = .accSeqRead x ∧ a = A.ACQ_ACC_SEQ x ∧ n = 7) ∨ (c = .trkMinRead x ∧ a = A.ACQ_TRK_MIN x ∧ n = 7)) ∨
        (∃ b : Fin 8, (c = .frmcntLoRead b ∧ a = A.FLT_FRMCNT_LO b ∧ n = 4) ∨ (c = .measFrmRead b ∧ a = A.PRT_MEAS_FRM b ∧ n = 58) ∨
          (c = .motStatRead b ∧ a = A.PRT_MOT_STAT b ∧ n = 9) ∨ (c = .cflStatRead b ∧ a = A.PRT_CFL_STAT b ∧ n = 7)) ∨
        (∃ b : Fin 512, c = .bstatRead b ∧ a = A.SPN_BSTAT b ∧ n = 3) ∨ (∃ i : Fin 32, c = .binTsLoRead i ∧ a = A.LIO_BIN_TS_LO i ∧ n = 2) ∨
        (c = .timNowLoRead ∧ a = A.TIM_NOW_LO ∧ n = 2) ∨ (c = .lasttoLoRead ∧ a = A.PLY_LASTTO_LO ∧ n = 2) ∨
        (c = .ovlTLoRead ∧ a = A.CFG_OVL_T_LO ∧ n = 2)) →
      ∃ t : State, exec c s = .next t ∧ t.host.rdata = s.reg a ∧ (∀ i < n, t.latchedReg (a + 4 * i) = s.reg (a + 4 * i)) ∧
        { t with host := { t.host with rdata := s.host.rdata }, latched := s.latched } = s) ∧
    (∀ x : Fin 128, ∃ t : State, exec (.trkStatRead x) s = .next t ∧ t.host.rdata = s.reg (A.ACQ_TRK_STAT x) ∧
      (s.bit (A.ACQ_ACCCFG x) 29 = true → t.reg (A.ACQ_TRK_MIN x) = 0 ∧ t.reg (A.ACQ_TRK_MAX x) = 0 ∧ t.bit (A.ACQ_TRK_STAT x) 29 = true) ∧
      (s.bit (A.ACQ_ACCCFG x) 29 = false → t.regs = s.regs)) ∧
    (∀ (bar2 : Bool) (off width : Nat), (width ≠ 32 ∨ off % 4 ≠ 0 ∨ unassigned bar2 off = true) → ∃ t : State,
      exec (.badHostRead bar2 off width) s = .next t ∧ t.host.rdata = 0 ∧
        (t.reg A.HST_BADADDR).toNat = bar2.toNat * 2 ^ 31 + off % 2 ^ 30) ∧
    (∃ t : State, exec .almWinW63Read s = .next t ∧ t.host.rdata = s.reg (A.ALM_WIN 63) ∧
      (s.bit A.ALM_CUR 29 = false → s.fld A.ALM_CUR F.ALM_CUR_MODE % 2 = 0 → s.bit A.ALM_STAT 29 = false →
        (∀ x : Stored, s.alm.store.reverse.find? (fun e => Nat.blt (e.seq + 1) s.alm.cursor) = some x → t.alm.cursor = x.seq + 1 ∧
          t.reg (A.ALM_WIN 1) = x.body.number) ∧
        (s.alm.store.reverse.find? (fun e => Nat.blt (e.seq + 1) s.alm.cursor) = none → t.bit A.ALM_STAT 29 = true)))

/-- Writes of the host (R4, R26, R406, R475, R477, R479, R480): ring pointers move forward over what their ring allows and are refused
otherwise; pending bits are cleared by ones, masks replaced; the cursor is placed; every other write is stored in a window that takes it
or refused. -/
def Obligations.HostWrites : Prop :=
  ∀ s : State, s.Live → s.bit A.PWR_DOMAIN_STAT 3 = true →
    (∀ (r : Fin 8) (v : Word), (r.val = 0 ∨ r.val = 3) → v.toNat < s.qDepth r →
      (v.toNat + s.qDepth r - s.qTail r) % s.qDepth r ≤ s.qDepth r - 1 - s.qCount r → ∃ t : State,
      exec (.hstQTailWrite r v) s = .next t ∧ t.qTail r = v.toNat ∧
        State.Woken (t.setReg (A.HST_Q_TAIL r) (s.reg (A.HST_Q_TAIL r))) s 3) ∧
    (∀ (r : Fin 8) (v : Word), r.val ≠ 0 → r.val ≠ 3 → v.toNat < s.qDepth r →
      (v.toNat + s.qDepth r - s.qHead r) % s.qDepth r ≤ s.qCount r → ∃ t : State,
      exec (.hstQHeadWrite r v) s = .next t ∧ t.qHead r = v.toNat) ∧
    (∀ (r : Fin 8) (v : Word), (r.val = 0 ∨ r.val = 3) → ∃ t : State, exec (.hstQHeadWrite r v) s = .next t ∧
      t.qHead r = s.qHead r ∧ (t.reg A.HST_BADADDR).toNat = 2 ^ 30 + A.HST_Q_HEAD r) ∧
    (∀ (k : Fin 4) (v : Word), ∃ t : State, exec (.hstEvtPendWrite k v) s = .next t ∧
      t.reg (A.HST_EVT_PEND k) = s.reg (A.HST_EVT_PEND k) &&& ~~~v ∧ (∀ a, a ≠ A.HST_EVT_PEND k → t.reg a = s.reg a) ∧
      { t with regs := s.regs } = s) ∧
    (∀ (k : Fin 4) (v : Word), ∃ t : State, exec (.hstEvtMaskWrite k v) s = .next t ∧ t.reg (A.HST_EVT_MASK k) = v ∧
      (s.fld A.HST_STAT F.HST_STAT_MODE = 1 → ∀ i < 32, s.bit (A.HST_EVT_PEND k) i = true → s.bit (A.HST_EVT_MASK k) i = true →
        v.toNat.testBit i = false → (s.bit (A.HST_MSIX_CTL (32 * k.val + i)) 0 = false → (32 * k.val + i) ∈ t.host.msixOut) ∧
          (s.bit (A.HST_MSIX_CTL (32 * k.val + i)) 0 = true → t.bit (A.HST_MSIX_PBA k) i = true))) ∧
    (∀ v : Word, ∃ t : State, exec (.kaOnVbatClear v) s = .next t ∧
      t.bit A.PWR_DOMAIN_STAT 0 = (s.bit A.PWR_DOMAIN_STAT 0 && !v.toNat.testBit 0) ∧ { t with regs := s.regs } = s) ∧
    (∀ v : Word, v.toNat.testBit 29 = false → (v.toNat / 2 ^ 30 = 0 ∨ v.toNat / 2 ^ 30 = 1) → ∃ t : State,
      exec (.almCurWrite v) s = .next t ∧ t.reg A.ALM_CUR = v &&& 0xE0000000 ∧
        ∀ x : Stored, (if v.toNat / 2 ^ 30 = 0 then s.alm.store.getLast? else s.alm.store.head?) = some x →
          t.alm.cursor = x.seq + 1 ∧ t.reg (A.ALM_WIN 1) = x.body.number ∧ t.bit A.ALM_STAT 29 = false) ∧
    (∀ (bar2 : Bool) (off width : Nat) (v : Word),
      ((width ≠ 32 ∨ off % 4 ≠ 0) → ∃ t : State, exec (.registerWriteOther bar2 off width v) s = .next t ∧
        (t.reg A.HST_BADADDR).toNat = bar2.toNat * 2 ^ 31 + 2 ^ 30 + off % 2 ^ 30 ∧ t.host.win = s.host.win) ∧
      (width = 32 → off % 4 = 0 → bar2 = true → s.ringWritable off = true → ∃ t : State,
        exec (.registerWriteOther bar2 off width v) s = .next t ∧ tabGet 0 t.host.win off = v ∧ t.regs = s.regs) ∧
      (width = 32 → bar2 = false → off = A.ALM_CURREC → ∃ t : State,
        exec (.registerWriteOther bar2 off width v) s = .next t ∧ t.reg A.ALM_CURREC = v))

/-! ### Every command completes -/

/-- Every Heddle instruction that its Heddle may execute now, within its limit and with its operand in its area (R241, R248, R259), completes: the execution
goes on with the context the instruction leaves, one instruction more counted. -/
def Obligations.HeddleInstructionsComplete : Prop :=
  ∀ (s : State) (h : Fin 4) (c : Ctx) (w : BitVec 64) (i : Instr), s.nextIns h = some (c, w) → s.mayRun h c = true → c.count < c.limit →
    heddleIns h w = some i → operandFault w c = 0 →
    ∃ (t : State) (c' : Ctx), exec i s = .next t ∧ (t.heddle h).run = some c' ∧ c'.count = c.count + 1 ∧ c'.task = c.task ∧
      (t.heddle h).stack = (s.heddle h).stack

/-- The commands of the start, the acquisition, the chains, the trip path, the capture and the Heddles' tasks complete (R15–R17, R36, R47–R58, R68–R84,
R94–R113, R139–R145, R194–R211, R236, R249–R256, R440, R486): when what each waits for has come, it answers a next state that shows its effect. -/
def Obligations.AcquisitionCommandsComplete : Prop :=
  (∀ p : PowerIn, ∀ s : State, ∃ t : State, exec (.powerGood p) s = .next t ∧ t.pwr.on = true) ∧
  (∀ s : State, s.Live →
    -- the start
    (∀ q : List CalResult, s.fld A.SUP_STAT F.SUP_STAT_PHASE = 0 → s.pwr.refclk = true → s.bit A.PWR_DOMAIN_STAT 1 = false → ∃ t : State,
      exec (.sampleClockLock q) s = .next t ∧ t.bit A.PWR_DOMAIN_STAT 1 = true) ∧
    (∀ (r : List CalResult) (u : Nat), s.acq.calStart = some u → u + 12000000 ≤ s.tim.up → ∃ t : State,
      exec (.startupCalDone r) s = .next t ∧ t.acq.calStart ≠ s.acq.calStart) ∧
    (∀ m : Boot, s.fld A.SUP_STAT F.SUP_STAT_PHASE = 1 → s.cfg.boot = some m → ∃ t : State, exec .enginesLoaded s = .next t ∧
      (t.fld A.SUP_STAT F.SUP_STAT_PHASE = 6 ∨ t.fld A.SUP_STAT F.SUP_STAT_PHASE = 9)) ∧
    (∀ im : Image, s.fld A.SUP_STAT F.SUP_STAT_PHASE = 6 → s.tim.now % 1000000000 = 0 → s.cfg.image = some im → ∃ t : State,
      exec .acqReelSwitch s = .next t ∧ t.cfg.switched = some s.tim.up) ∧
    -- the acquisition
    (∀ (bay : Fin 8) (b : Nat) (atStart : Bool), (if atStart = true then b < 9 else b = bay.val) → s.injReady b atStart = true → ∃ t : State,
      exec (.stepInjectionStart bay atStart) s = .next t ∧
        (tabGet none t.acq.inj b = some (s.tim.smp, atStart) ∨ tabGet none t.acq.injLast b = some s.tim.up)) ∧
    (∀ (bay : Fin 8) (u : Nat × Bool), tabGet none s.acq.inj bay.val = some u → u.1 + 20000000 ≤ s.tim.smp → ∃ t : State,
      exec (.stepInjectionEnd bay ⟨⟩) s = .next t ∧ tabGet none t.acq.inj bay.val = none) ∧
    (∀ (pin : Fin 96) (t0 : Nat) (level : Rat) (ex : Bool), tabGet none s.acq.injPins pin.val = some (.watch t0 level ex) →
      t0 + 2000000 ≤ s.tim.smp → ∃ t : State, exec (.injectionWatchEnd pin) s = .next t ∧ tabGet none t.acq.injPins pin.val = none) ∧
    (∀ pin : Fin 96, s.lanesOn pin ≠ [] → (s.openChk pin).at_ + 125000000 ≤ s.tim.smp → ∃ t : State,
      exec (.openCheckReversal pin ⟨⟩) s = .next t ∧ (t.openChk pin).at_ = s.tim.smp ∧ (t.openChk pin).cnt = 0) ∧
    (s.bit A.PWR_DOMAIN_STAT 1 = true → (∀ u, s.acq.diagLast = some u → u + 1000000 ≤ s.tim.up) → ∃ t : State,
      exec .inputCheckRequest s = .next t ∧ t.acq.diagLast = some s.tim.up) ∧
    (∀ (lane : Fin 128) (d : LaneIn) (x k : Nat), x = lane.val → s.laneConverts x = true → s.laneNewest x = some k → (s.lane x).k < k →
      (s.lane x).from_ ≤ s.laneFirst x k → d.codes.length = s.laneRep x → ∃ t : State,
      exec (.laneSample lane d) s = .next t ∧ (t.lane x).k = k) ∧
    (∀ (lane : Fin 128) (x : Nat), x = lane.val →
      s.windowDone x (ratMin (s.laneInstant x ((s.lane x).k + 1)) (s.tim.smp : Rat)) = true → ∃ t : State,
      exec (.accWindowEnd lane) s = .next t ∧ t.reg (A.ACQ_ACC_SEQ x) = s.reg (A.ACQ_ACC_SEQ x) + 1) ∧
    (∀ (slice : Fin 17) (code : Int) (k : Nat), k = slice.val →
      (∀ u : Urgent, (s.slice k).urgent = some u → s.slotDone u.slot = true → ∃ t : State,
        exec (.urgentServe slice code) s = .next t ∧ (t.slice k).urgent = none) ∧
      (∀ n pos gain : Nat, (s.slice k).urgent = none → s.diagNewest k = some (n, pos, gain) → ∃ t : State,
        exec (.urgentServe slice code) s = .next t ∧ (t.slice k).diagSlot = n)) ∧
    (∀ (k : Nat) (l : List Nat), s.cfg.switched ≠ none → s.onCycle = true → s.acq.attachQ = k :: l → ∃ t : State,
      exec .reelCycleBoundary s = .next t ∧ t.acq.attachQ = l) ∧
    (s.rotFree = true →
      (s.bit A.CAL_ROT_CFG 31 = true → s.rotDue 1 = true → s.onCycle = true → ∃ t : State, exec .rotationDue s = .next t ∧
        t.acq.use = .shadow (s.fld A.CAL_STAT F.CAL_STAT_NEXT) 0 s.slotNow 0 false) ∧
      (s.bit A.CAL_ROT_CFG 31 = false → s.rotDue 17 = true → ∃ t : State, exec .rotationDue s = .next t ∧
        t.acq.use = .cal (s.conv 16) s.tim.up false 1)) ∧
    (∀ (k start n : Nat) (m : Bool), s.acq.use = .shadow k 0 start n m → s.shadowEnded start = true → ∃ t : State,
      exec .shadowEnd s = .next t ∧ t.acq.use ≠ s.acq.use) ∧
    (∀ (n start why : Nat) (second : Bool) (r : CalResult), s.acq.use = .cal n start second why → start + 12000000 ≤ s.tim.up → ∃ t : State,
      exec (.calibrationDone r) s = .next t ∧ t.acq.use ≠ s.acq.use) ∧
    (∀ (k : Nat) (l : List Nat), s.acq.searchQ = k :: l → (∀ n a b c, s.acq.use ≠ .cal n a b c) → s.acq.search = none →
      s.rotHalted = false → s.acq.calStart = none → s.onCycle = true → ∃ t : State, exec .searchStart s = .next t ∧ t.acq.searchQ = l ∧
        t.acq.use = .shadow k 1 s.slotNow 0 false) ∧
    (∀ (j st start n : Nat) (m : Bool) (q : Search), s.acq.use = .shadow j st start n m → s.acq.search = some q → st = 1 ∨ st = 2 →
      s.shadowEnded start = true → ∃ t : State, exec .searchPhaseEnd s = .next t ∧ t.acq.use ≠ s.acq.use) ∧
    (∀ slice : Fin 17, slice.val ∈ s.acq.takeQ → (∀ n a b c, s.acq.use ≠ .cal n a b c) → s.rotHalted = false → s.acq.search = none →
      slice.val = 16 ∨ s.onCycle = true → ∃ t : State, exec (.outOfTurnTakeover slice) s = .next t ∧ slice.val ∉ t.acq.takeQ) ∧
    -- chains, frames, clusters
    (∀ (bay : Fin 8) (b : Nat), b = bay.val →
      (∀ u : Rat, (s.bayChain b).restartAt = some u → u ≤ s.tim.smp → ∃ t : State, exec (.chainRestart bay) s = .next t ∧
        (t.bayChain b).restartAt = none) ∧
      (s.closesFrames b = true → s.frameDue b = true → ∃ t : State, exec (.frameClose bay) s = .next t ∧
        (t.bayChain b).n = (s.bayChain b).n + 1) ∧
      (∀ (fr : FrameBuf) (l : List FrameBuf) (resNs : Nat), (s.bayChain b).ring = fr :: l → fr.engine < 8 →
        s.gateHolds (fr.engine / 4) = false → ∃ t : State, exec (.frameProcess bay resNs) s = .next t ∧ (t.bayChain b).ring = l)) ∧
    (∀ c : Fin 4,
      (s.fld (A.PWR_CLUSTER c) F.PWR_CLUSTER_STATE = 0 → tabGet none s.pwr.gates c.val = none → s.clusterIdle c = true → ∃ t : State,
        exec (.clusterGateEnter c ⟨⟩) s = .next t ∧ tabGet none t.pwr.gates c.val ≠ none) ∧
      (∀ g : GateSt, tabGet none s.pwr.gates c.val = some g → g.at_ + (if g.target = 1 then 100 else 2000) ≤ s.tim.up → ∃ t : State,
        exec (.clusterGateEntryDone c) s = .next t ∧ tabGet none t.pwr.gates c.val = none) ∧
      (tabGet none s.pwr.gates c.val = none → s.fld (A.PWR_CLUSTER c) F.PWR_CLUSTER_STATE = 1 ∨ s.fld (A.PWR_CLUSTER c) F.PWR_CLUSTER_STATE = 2 →
        ∃ t : State, exec (.clusterWake c) s = .next t ∧ t.fld (A.PWR_CLUSTER c) F.PWR_CLUSTER_STATE = 0)) ∧
    -- the trip path
    (∀ (bay : Fin 8) (phase : Fin 3) (codes : List Int) (k n : Nat), k = 3 * bay.val + phase.val →
      tabGet 0 (s.defaultFeed bay phase codes).trip.wmNew k = n + 2 → ∃ t : State,
      exec (.watchmanFeedSample bay phase codes ⟨⟩) s = .next t ∧ tabGet 0 t.trip.wmNew k = n) ∧
    (∀ bay : Fin 8, (∀ p < 3, tabGet 0 s.trip.wmLow (3 * bay.val + p) = 7680) → ∃ t : State, exec (.watchmanDrop bay) s = .next t ∧
      ∀ p < 3, t.bit A.PRT_WM_STATE (3 * bay.val + p) = false) ∧
    (∀ (x : Fin 512) (u : Nat), u ≤ s.tim.up →
      (tabGet none s.trip.arcLightEnd x.val = some u → ∃ t : State, exec (.arcHoldExpire x true) s = .next t ∧
        tabGet none t.trip.arcLightEnd x.val = none) ∧
      (tabGet none s.trip.arcCurEnd x.val = some u → ∃ t : State, exec (.arcHoldExpire x false) s = .next t ∧
        tabGet none t.trip.arcCurEnd x.val = none)) ∧
    (∀ i : Fin 4, (s.bit A.PRT_LIGHT i = false → ∃ t : State, exec (.lightAssert i) s = .next t ∧ t.bit A.PRT_LIGHT i = true) ∧
      (s.bit A.PRT_LIGHT i = true → ∃ t : State, exec (.lightRelease i) s = .next t ∧ t.bit A.PRT_LIGHT i = false)) ∧
    (∀ (ch : Fin 32) (c : Nat), c = ch.val → s.bit A.PRT_TCH_STATE c = true → s.bit A.PRT_TCH_PULSE c = true →
      tabGet 0 s.trip.pulseEnd c ≤ s.tim.up → ∃ t : State, exec (.tripPulseEnd ch) s = .next t ∧ t.bit A.PRT_TCH_PULSE c = false) ∧
    (∀ (i : Fin 32) (level v : Bool) (ts : Nat), v = xor level (s.bit A.LIO_BIN_POL i) → s.bit A.LIO_BIN_STATE i ≠ v →
      ts + s.fld (A.LIO_BIN_CFG i) F.LIO_BIN_CFG_DEB * 100000 ≤ s.tim.now → ∃ t : State, exec (.binChange i level ts) s = .next t ∧
        t.bit A.LIO_BIN_STATE i = v) ∧
    (∀ (p : Fin 16) (level : Bool), ∃ t : State, exec (.tripFbChange p level) s = .next t ∧ t.bit A.LIO_TOUT (16 + p.val) = level) ∧
    -- arrivals and wavefront elements
    (∀ (bay : Fin 8) (mode : Fin 3) (b : Nat), b = bay.val →
      (∀ (w v : WaveSmp) (l : List WaveSmp) (d : Int) (rest : List (Nat × Int)), s.waveOn b = true → (s.bayChain b).wave = w :: v :: l →
        waveDiffs mode (s.bayChain b).wave = (w.k, d) :: rest → w.ok = true → v.ok = true → s.waveThr b mode ≤ |(d : Rat)| →
        (∀ a ∈ (s.bayChain b).opened, a.1.mode ≠ mode.val) → ∃ t : State, exec (.arrivalDetect bay mode ⟨⟩ ⟨⟩ ⟨⟩) s = .next t ∧
          (t.bayChain b).opened.length = (s.bayChain b).opened.length + 1) ∧
      (∀ (a : Arrival) (k : Nat), (s.bayChain b).opened.find? (fun a => a.1.mode == mode.val) = some (a, k) →
        (s.bayChain b).quiet4 mode k (s.waveThr b mode) = true → ∃ t : State, exec (.arrivalRearm bay mode ⟨⟩) s = .next t ∧
          (t.bayChain b).opened = (s.bayChain b).opened.filter (fun a => a.1.mode != mode.val)) ∧
      ((s.bayChain b).arrivals ≠ [] → ∃ t : State, exec (.wfdRecordTake bay) s = .next t ∧ (t.bayChain b).arrivals = [])) ∧
    (∀ (inst : Fin 512) (x : Nat), x = inst.val →
      (∀ ta : Nat, (s.waveInst x).ta = some ta → s.eiType x = 0x1F → ta + nsOf (s.exf x 1) ≤ s.tim.now → ∃ t : State,
        exec (.wfdSupervision inst ⟨⟩ ⟨⟩ ⟨⟩) s = .next t ∧ (t.waveInst x).ta = none) ∧
      (∀ u : Nat, (s.waveInst x).holdEnd = some u → u ≤ s.tim.up → ∃ t : State, exec (.wfdHoldEnd inst) s = .next t ∧
        (t.waveInst x).holdEnd = none) ∧
      (∀ ta : Nat, (s.waveInst x).locate = some ta → (s.waveInst x).far = false → s.eiType x = 0x20 → s.eiOn x = true → s.blocked x = false →
        (ta : Rat) + 2 * s.cflLen x / s.cflVel x * 1000 ≤ s.tim.now → ∃ t : State, exec (.cflLocate inst) s = .next t ∧
          (t.waveInst x).ta = some ta)) ∧
    -- fault capture
    (∀ (plan : Fin 16) (p : Nat), p = plan.val →
      (∀ k : Nat, (s.capPlan p).next = some k → s.bit (A.CAP_PLAN_CFG p) 31 = true → (s.capPlan p).closing = false →
        ((gridNs (s.planRate p) k : Nat) : Rat) + s.chainDelay (s.planBay p) ≤ s.tim.now → ∃ t : State,
        exec (.captureSampleWrite plan) s = .next t ∧ (t.capPlan p).next = some (k + 1)) ∧
      (∀ (e : Nat) (s1 : State) (r : CapRec) (y : CapSample), (s.capPlan p).open_.getLast? = some e → s1 = (s.recFill p e).recSnaps p e →
        s1.capRec e = some r → r.samples.getLast? = some y → r.endT ≤ y.t → r.endT + 6190000 ≤ s.tim.now → ∃ t : State,
        exec (.recordClose plan) s = .next t ∧ e ∉ (t.capPlan p).open_) ∧
      (∀ (e u : Nat) (num : Word) (r : CapRec) (l : List Nat), s.bit A.PLY_STAT 24 = true → (s.capPlan p).open_ = e :: l → s.capRec e = some r →
        ∃ t : State, exec (.peerCaptureRequest plan ⟨u, num, false⟩) s = .next t ∧ t.capRec e = some { r with peerRec := num }) ∧
      (∀ (e u : Nat) (num : Word) (r : CapRec) (l : List Nat), s.bit A.PLY_STAT 24 = true → s.bit (A.CAP_PLAN_CFG p) 29 = true →
        s.bit (A.CAP_PLAN_CFG p) 31 = true → (s.capPlan p).open_ = e :: l → s.capRec e = some r → r.shut = false → u ≤ r.endT →
        u ≤ r.first + 8000000000 → ∃ (t : State) (r' : CapRec), exec (.peerCaptureRequest plan ⟨u, num, true⟩) s = .next t ∧
          t.capRec e = some r' ∧ r'.count = min (r.count + 1) 65535 ∧ r'.peerRec = num)) ∧
    (∀ bay : Fin 8,
      (∀ q : CapPost, s.cap.posted = [q] → q.bay = bay.val → ∃ t : State, exec (.captureResultsReceive bay) s = .next t ∧ t.cap.posted = []) ∧
      (∀ (a : Arrival) (l : List Arrival), (s.bayProt bay).burst = a :: l → a.t + 1250000 ≤ s.tim.now → (s.waveLanes bay).length = 3 →
        (∀ x ∈ tabGet [] s.cap.snaps bay.val, x.at_ ≠ a.t) → ∃ t : State, exec (.snapshotCopy bay) s = .next t ∧
          (tabGet [] t.cap.snaps bay.val).head? = some (s.snapOf bay a))) ∧
    -- the Heddles' tasks
    (∀ (h : Fin 4) (k : Fin 16),
      (∀ u : Nat, s.bit (A.HDL_TCFG h k) 31 = true → s.bit A.HDL_STAT 29 = false → 0 < s.taskPeriod h k →
        tabGet none (s.heddle h).lastRel k.val = some u → u ≤ s.tim.now → ∃ (t : State) (v : Nat), exec (.periodicRelease h k) s = .next t ∧
          tabGet none (t.heddle h).lastRel k.val = some v ∧ s.tim.now < v ∧ v ≤ s.tim.now + s.taskPeriod h k) ∧
      (32 * h.val + 16 + k.val ∈ s.hdl.evReq → ∃ t : State, exec (.eventRelease h k) s = .next t ∧
        t.hdl.evReq = s.hdl.evReq.erase (32 * h.val + 16 + k.val)) ∧
      (∀ r : Rel, s.startNext h = some r → s.mayStartRel h r = true → s.gateHolds 2 = false → ∃ (t : State) (c : Ctx),
        exec (.executionStart h) s = .next t ∧ (t.heddle h).run = some c ∧ c.task = r.task) ∧
      (s.bit A.HDL_STAT 29 = true → s.logicMode = 0 → (s.heddle h).inCycle = false → (s.heddle h).idleUntil = none →
        (∀ u, (s.heddle h).cycStart = some u → u + 250000 ≤ s.tim.now) → s.cycleTasks h ≠ [] → ∃ t : State,
        exec (.freeRunCycleStart h) s = .next t ∧ (t.heddle h).inCycle = true) ∧
      (∀ u : Nat, (s.heddle h).idleUntil = some u → u ≤ s.tim.now → ∃ t : State, exec (.budgetIdleEnd h) s = .next t ∧
        (t.heddle h).idleUntil = none)) ∧
    (∀ n : Nat, s.tim.logic / 1000000 % 2 ^ 20 = 0 → 0 < s.tim.logic / 1000000 → n < tCount → (s.timer n).run = true → ∃ t : State,
      exec .timerSweep s = .next t ∧ (t.timer n).stamp = s.tim.logic / 1000000 % 2 ^ 32) ∧
    (∀ e u : Nat, e < 256 → s.hdl.acts = [(u, .unforce e)] → u ≤ s.tim.now → ∃ t : State, exec .onlineApply s = .next t ∧ t.hdl.acts = []))

/-- The commands of the loops, the time base, the Peal table, the networks, the publishers and subscribers, Hank and the twin complete (R270–R287,
R297–R316, R325–R359, R367–R387): when what each waits for has come, it answers a next state that shows its effect. -/
def Obligations.TimeAndNetworkCommandsComplete : Prop :=
  ∀ s : State, s.Live →
    -- loops
    (∀ b : Fin 512,
      (∀ u : Nat, (s.loopB b).next = some u → u ≤ s.tim.now → s.loopTurn b u = true → s.loopPeriod b ≠ 0 → s.gateHolds 2 = false →
        ∃ (t : State) (v : Nat), exec (.blockRelease b) s = .next t ∧ (t.loopB b).next = some v ∧ s.tim.now < v) ∧
      (∀ v : LoopValues, s.loopFollow = true → ∃ t : State, exec (.loopValuesReceive b v) s = .next t ∧ tabGet none t.spn.rx b.val = some v)) ∧
    -- the time base
    (s.tim.now / 1000000000 ≠ s.tim.lastSec → ∃ t : State, exec .secondBoundary s = .next t ∧ t.tim.lastSec = s.tim.now / 1000000000) ∧
    (∀ (port : Fin 4) (m : PtpSync), s.ptpMine port m.gmId m.domain = true →
      (m.twoStep = true → ∃ t : State, exec (.ptpSyncReceive port m) s = .next t ∧ t.tim.syncWait = some (port.val, m.seq, s.tim.up)) ∧
      (m.twoStep = false → s.srcEnabled 1 = true → s.timSrc = 1 → s.timState = 2 → m.offset.natAbs ≤ 10000 → ∃ t : State,
        exec (.ptpSyncReceive port m) s = .next t ∧ (t.reg A.TIM_OFS).toInt = m.offset)) ∧
    (∀ (port : Fin 4) (seq : BitVec 16) (ofs : Int) (u : Nat), s.tim.syncWait = some (port.val, seq, u) → s.ptpPort port = true →
      ∃ t : State, exec (.ptpFollowUpReceive port seq ofs) s = .next t ∧ t.tim.syncWait = none) ∧
    (∀ (port : Fin 4) (m : PtpAnnounce), s.ptpPort port = true → m.domain = s.fld A.TIM_CFG F.TIM_CFG_DOMAIN → m.clockClass < 248 →
      s.tim.best = none → ∃ t : State, exec (.ptpAnnounceReceive port m) s = .next t ∧ t.tim.annAt = some s.tim.up) ∧
    (∀ u : Nat, s.tim.annAt = some u → u + 3 * s.tim.annMs * 1000000 ≤ s.tim.up → ∃ t : State, exec .ptpAnnounceTimeout s = .next t ∧
      t.tim.syncWait = none) ∧
    ((s.pairPorts s.ptpProcess).filter (fun p => s.ptpPort p) ≠ [] → s.mayTransmit = true →
      (∀ u, s.tim.pdLast = some u → u + 1000000000 ≤ s.tim.up) → ∃ t : State, exec .ptpPdelayReqSend s = .next t ∧
        t.tim.pdLast = some s.tim.up) ∧
    (∀ (port : Fin 4) (seq : BitVec 16), s.ptpPort port = true → s.mayTransmit = true → (s.txRing (8 + 2 * port.val)).length < 64 → ∃ t : State,
      exec (.ptpPdelayReqReceive port seq) s = .next t ∧ (t.txRing (8 + 2 * port.val)).length = (s.txRing (8 + 2 * port.val)).length + 1) ∧
    (∀ (port : Fin 4) (delay : Nat), s.ptpPort port = true → port.val ∈ s.tim.pdWait → ∃ t : State,
      exec (.ptpPdelayRespReceive port delay) s = .next t ∧ port.val ∉ t.tim.pdWait) ∧
    (∀ (n dly ofs : Int), s.srcEnabled 2 = true → s.timSrc = 2 → s.timState = 2 → dly = (s.reg A.TIM_PPSDLY).toNat →
      ofs = n * 1000000000 + dly - s.tim.now → ofs.natAbs ≤ 10000 → ∃ t : State, exec .ppsEdge s = .next t ∧ (t.reg A.TIM_OFS).toInt = ofs) ∧
    (∀ ofs : Int, s.srcEnabled 3 = true → s.timSrc = 3 → s.timState = 2 → ofs.natAbs ≤ 10000 → ∃ t : State, exec (.irigbFrame ofs) s = .next t ∧
      (t.reg A.TIM_OFS).toInt = ofs) ∧
    (∀ (src : Fin 4) (u : Nat), s.srcSince src = some u → s.srcEnabled src = true → u + 10000000000 ≤ s.tim.up →
      srcRank s.timSrc < srcRank src → ∃ t : State, exec (.sourceSwitch src) s = .next t ∧ t.timSrc = src.val) ∧
    (∀ src : Fin 4, s.srcEnabled src = true → (src.val = 1 → s.altMaster = none) → ∃ t : State, exec (.timeSourceLoss src) s = .next t ∧
      t.srcSince src = none) ∧
    (s.timState = 3 → s.bit A.TIM_STAT 26 = false → s.tim.lockEnd.getD 0 + 60000000000 ≤ s.tim.up → ∃ t : State,
      exec .holdoverExpire s = .next t ∧ t.bit A.TIM_STAT 26 = true) ∧
    (∀ x : Nat × Int, s.tim.leapAt = some x → x.1 ≤ s.tim.now → ∃ t : State, exec .leapSecond s = .next t ∧ t.tim.leapAt = none) ∧
    -- the Peal table and controlled closing
    (∀ (e : Fin 1024) (i : Nat), i = s.pealNext e → s.pealOn e = true →
      (∀ (c : Instr) (k : Nat), s.pealAction e = k → s.pealAt e i ≤ s.tim.now + s.pealLead e → s.pealTurn e = true →
        (c, k) ∈ [(.pealSetGout e, 1), (.pealOverlay e, 2), (.pealCapture e, 3), (.pealProfileStart e, 4), (.pealEventTask e, 5),
          (.pealHankOutput e, 6), (.pealGoosePublish e, 7), (.pealControlledClose e, 8)] →
        ∃ t : State, exec c s = .next t ∧ t.reg (A.PEL_ECNT e) = s.reg (A.PEL_ECNT e) + 1 ∧ t.pealNext e = i + 1) ∧
      (∀ held : List (Nat × (Nat × Nat)), held = s.peal.slots.filter (fun x => s.pealSoon x.1) → (∀ x ∈ s.peal.slots, x.1 ≠ e.val) →
        s.pealSoon e = true → held.length < 16 → s.tim.now < s.pealAt e i → ∃ t : State,
        exec (.pealSlotLoad e) s = .next t ∧ t.peal.slots = held ++ [(e.val, i, s.pealAt e i)])) ∧
    (∀ (bay : Fin 8) (b : Nat) (c : CloseSt), b = bay.val → s.close b = some c →
      (s.ccState b = 1 → c.tCmd ≤ s.tim.now → ∃ t : State, exec (.closeCommand bay) s = .next t ∧ t.ccState b = 2) ∧
      (c.driven = true → c.pulseEnd ≤ s.tim.up → ∃ t : State, exec (.closePulseEnd bay) s = .next t ∧ t.bit A.LIO_GOUT (s.ccGout b) = false) ∧
      (s.ccState b = 2 → c.winEnd ≤ s.tim.up → ∃ t : State, exec (.closeWindowEnd bay) s = .next t ∧ t.ccState b ≠ 2)) ∧
    (∀ (n : Fin 128) (l : LaunchWait), tabGet none s.peal.launches n.val = some l → l.t ≤ s.tim.now → ∃ t : State,
      exec (.launchApply n) s = .next t ∧ tabGet none t.peal.launches n.val = none) ∧
    -- ports and supervision
    (∀ (p : Fin 4) (up : Bool), s.bit A.NET_STAT (28 + p.val) ≠ up → (up = true → s.portPowered p = true) → ∃ t : State,
      exec (.portLinkChange p up) s = .next t ∧ t.bit A.NET_STAT (28 + p.val) = up) ∧
    (∀ process : Bool, s.pairMode process = 0 → s.role = 0 ∨ s.role = 1 → s.cfg.switched ≠ none →
      (∀ u, tabGet none s.net.lifeAt (pairIx process) = some u → u + s.lifeNs ≤ s.tim.up) → ∃ t : State,
      exec (.prpSupervisionSend process) s = .next t ∧ tabGet none t.net.lifeAt (pairIx process) = some s.tim.up) ∧
    (∀ (p : Fin 4) (tag : PrpTag), s.rxPort p = true → tag.mac ≠ s.pairMac (p.val / 2 == 1) → ∃ t : State,
      exec (.prpSupervisionReceive p tag) s = .next t ∧ t.bit A.NET_STAT (20 + p.val) = true) ∧
    (∀ (p : Fin 4) (u : Nat), tabGet none s.net.lanSeen p.val = some u → s.bit A.NET_STAT (20 + p.val) = true →
      u + 3 * s.lifeNs ≤ s.tim.up → ∃ t : State, exec (.lanokTimeout p) s = .next t ∧ t.bit A.NET_STAT (20 + p.val) = false) ∧
    -- GOOSE and sampled values
    (∀ (p : Fin 4) (m : GooseMsg) (n : Fin 128) (b : SubBlock),
      (s.rxAccept p m.lenOk (s.dstKnown (p.val / 2 == 1) m.dst) m.prp).1 = true → s.cfg.switched ≠ none →
      s.subMatches (p.val / 2 == 1) m = [b] → b.s = n.val → m.simulation = false → m.test = false → m.datSet = b.datSet →
      m.confRev = b.confRev → m.ndsCom = false → m.vals.map valType = b.types → (s.gsSub n).deadline = none → ∃ t : State,
      exec (.gooseReceive p m) s = .next t ∧ t.gooseValid n = true) ∧
    (∀ (n : Fin 128) (u : Nat), (s.gsSub n).deadline = some u → u ≤ s.tim.up → s.gooseValid n = true → ∃ t : State,
      exec (.gooseSubLost n) s = .next t ∧ t.gooseValid n = false) ∧
    (∀ (g : Fin 32) (b : PubBlock), s.pubBlock g = some b → s.pubOn g = true →
      ((s.pub g).hold = none → (s.pub g).started = false → ∃ t : State, exec (.gooseStateBuild g) s = .next t ∧ (t.pub g).started = true) ∧
      (∀ u : Nat, (s.pub g).nextTx = some u → (s.pub g).started = true → u ≤ s.tim.up → ∃ t : State, exec (.gooseRetransmit g) s = .next t ∧
        t.reg (A.NET_GP_SQNUM g) = nextNum (s.reg (A.NET_GP_SQNUM g))) ∧
      (∀ u : Nat, (s.pub g).hold = some u → u ≤ s.tim.now → ∃ t : State, exec (.gooseLaunchTimeReached g) s = .next t ∧
        (t.pub g).hold = none)) ∧
    (∀ (bay : Fin 8) (b rate n k : Nat), b = bay.val → rate = s.fixedRate b → n = max 1 (s.fld (A.NET_SVP_CFG b) F.NET_SVP_CFG_NOASDU) →
      k = s.svNext b → s.bit (A.NET_SVP_CFG b) 31 = true → rate ≠ 0 → s.cfg.switched ≠ none → s.role = 0 ∨ s.role = 1 →
      (gridNs rate (k + n - 1) : Rat) + s.bayDelay b ≤ s.tim.now → ∃ t : State, exec (.svFramePublish bay) s = .next t ∧
        t.reg (A.NET_SVP_CNT b) = s.reg (A.NET_SVP_CNT b) + 1) ∧
    (∀ (p : Fin 4) (m : SvMsg) (r : Fin 16) (b : SvBlock), (s.rxAccept p m.lenOk (s.dstKnown true m.dst) m.prp).1 = true → 2 ≤ p.val →
      s.cfg.switched ≠ none → s.svMatches m = [b] → b.n = r.val → m.simulation = false → m.confRev = b.confRev → m.datasetOk = true →
      (∀ a ∈ m.asdus, a.smpCnt < s.svRate r) → ∃ t : State, exec (.svReceive p m) s = .next t ∧ (t.svs r).lastAt = some s.tim.up) ∧
    (∀ (r : Fin 16) (u : Nat), (s.svs r).lastAt = some u → u + 10000000 ≤ s.tim.up → s.svState r ≠ 2 → ∃ t : State,
      exec (.svStreamLost r) s = .next t ∧ t.svState r = 2) ∧
    -- Hank
    (∀ (m : Fin 64) (p : Fin 4) (d : HankPdu), d.m = m.val → (s.hankRx p d).1 = true →
      (d.payload.length = 20 → ∃ t : State, exec (.hankAnnounceReceive p d) s = .next t ∧ (t.hnkMod m).rxSeq = d.seq) ∧
      (d.payload.length = 6 → s.modState m = 1 → (s.hnkMod m).exchange = false → ∃ t : State, exec (.hankConfigAckReceive p d) s = .next t ∧
        (t.hnkMod m).cfgAt = none) ∧
      (d.payload.length = s.fld (A.HNK_MOD_CFG m) F.HNK_MOD_CFG_ILEN + 2 → (s.hnkMod m).exchange = true → (s.hnkMod m).anySeq = true →
        ∃ t : State, exec (.hankInputReceive p d) s = .next t ∧ (t.hnkMod m).lastIn = some s.tim.up)) ∧
    (∀ (m : Fin 64) (u : Nat),
      ((s.hnkMod m).cfgAt = some u → u + 50000000 ≤ s.tim.up → s.role = 0 ∨ s.role = 1 → s.hankDecl m ≠ none → ∃ t : State,
        exec (.hankConfigResend m) s = .next t ∧ (t.hnkMod m).cfgAt = some s.tim.up) ∧
      ((s.hnkMod m).nextOut = some u → u ≤ s.tim.now + 20000 → (s.hnkMod m).exchange = true → s.role = 0 ∨ s.role = 1 → ∃ t : State,
        exec (.hankOutputSend m) s = .next t ∧ (t.hnkMod m).delivered = false) ∧
      ((s.hnkMod m).lastIn = some u → s.modState m = 2 → u + s.fld (A.HNK_MOD_CFG m) F.HNK_MOD_CFG_STALE * s.hankPeriod m < s.tim.up →
        ∃ t : State, exec (.hankModuleLost m) s = .next t ∧ t.modState m = 3)) ∧
    -- the twin
    (s.linkUp = false → ∃ t : State, exec .plyLinkUp s = .next t ∧ t.linkUp = true) ∧
    (s.linkUp = true → ∃ t : State, exec .plyLinkDown s = .next t ∧ t.linkUp = false) ∧
    (s.linkUp = true → s.role ≠ 0 → s.role ≠ 4 → s.role ≠ 7 → ∃ t : State, exec .peerRefusalReceive s = .next t ∧ t.role = 4) ∧
    (∀ p : PeerIdentity, s.linkUp = true → ∃ t : State, exec (.peerIdentityReceive p) s = .next t ∧ t.ply.peer = some p) ∧
    (s.peerClaims = false → ∃ t : State, exec .peerClaimStart s = .next t ∧ t.peerClaims = true) ∧
    (∀ stopped : Bool, s.peerClaims = true → ∃ t : State, exec (.peerClaimSilent stopped) s = .next t ∧ t.peerClaims = false) ∧
    (s.linkUp = true → s.role ≠ 0 → s.role ≠ 7 → ∃ t : State, exec .claimDisagreeTimeout s = .next t ∧ t.bit A.PLY_STAT 20 = true) ∧
    (∀ u : Nat, s.ply.backoff = some u → u + 2000 ≤ s.tim.up → ∃ t : State, exec .claimBackoffEnd s = .next t ∧ t.claiming = true) ∧
    (∀ u : Nat, s.cfg.switched = some u → s.role = 3 → s.linkUp = false → s.peerClaims = false →
      u + s.fld A.PLY_CFG F.PLY_CFG_ALONE * 500000000 ≤ s.tim.up → ∃ t : State, exec .aloneTimeout s = .next t ∧ t.role = 1) ∧
    (∀ u : Nat, s.ply.linkDown = some u → s.role = 2 → s.isol = false → s.linkUp = false → s.peerClaims = true → u + 5000 ≤ s.tim.up →
      ∃ t : State, exec .isolationTimeout s = .next t ∧ t.isol = true) ∧
    (∀ (bay : Fin 8) (b : Nat), b = bay.val →
      (∀ (n : Nat) (bits : List (Nat × (Bool × Bool))) (w : BayResult), s.merging = true → tabGet none s.ply.waiting b = some w → w.n = n →
        ∃ t : State, exec (.peerResultsReceive bay n bits) s = .next t ∧ tabGet none t.ply.waiting b = none) ∧
      (∀ w : BayResult, tabGet none s.ply.waiting b = some w → w.at_ + 25000 ≤ s.tim.up → ∃ t : State,
        exec (.mergeWindowEnd bay) s = .next t ∧ tabGet none t.ply.waiting b = none) ∧
      (s.role = 3 → s.jstep = 3 → s.bit A.PRT_STAT (24 + b) = true → 1000 ≤ tabGet 0 s.ply.shadowN b →
        s.fld (A.PLY_BAY b) F.PLY_BAY_SHADOW ≠ 100 → ∃ t : State, exec .shadowPassTimeout s = .next t ∧ t.role = 2)) ∧
    (∀ w : Word, ∃ t : State, exec (.peerTripStateReceive w) s = .next t ∧ t.trip.peerState = w) ∧
    (∀ f : TxFrame, s.role = 2 → s.isol = false → s.linkUp = true → (∀ m, f.body = .goose m → m.g < 32) →
      (∀ d, f.body = .hank d → d.m < 64) → ∃ t : State, exec (.shippedFrameReceive f) s = .next t ∧
      t.ply.sent = s.ply.sent ++ [.ack]) ∧
    (∀ (u : TxFrame × Nat) (l : List (TxFrame × Nat)), s.ply.unacked = u :: l →
      (∃ t : State, exec .shipAckReceive s = .next t ∧ t.ply.unacked = l) ∧
      (u.2 + 4000 ≤ s.tim.up → ∃ t : State, exec .shipAckTimeout s = .next t ∧ t.ply.unacked = l)) ∧
    (∀ u : Nat, s.ply.copyAt = some u → u ≤ s.tim.now → s.role = 1 → ∃ t : State, exec .copySnapshotTake s = .next t ∧ t.ply.copyAt = none) ∧
    (∀ c : Snapshot, s.role = 3 → s.jstep = 2 → c.crcOk = true → ∃ t : State, exec (.copySnapshotReceive c) s = .next t ∧ t.ply.lost = false) ∧
    (∀ (a : Nat) (v : Byte), s.role = 3 → s.jstep = 3 → (s.retentive a = true ∨ inC a = true) → ∃ t : State,
      exec (.streamedChangeReceive (.mem a v)) s = .next t ∧ t.octet a = v) ∧
    (∀ (e : HostEntry) (u : Nat), s.linkUp = true → s.role = 2 → s.isol = false → ∃ t : State,
      exec (.forwardedCommandReceive 0x40 e u) s = .next t ∧ t.hdl.acts = s.hdl.acts ++ [(u, .run)]) ∧
    (∀ (k : Fin 9) (src : Fin 6) (u : Nat), s.linkUp = true → s.role = 2 → s.isol = false → s.ovlUsable k = true → ∃ t : State,
      exec (.peerOverlayReceive k src u) s = .next t ∧ { k := k.val, t := u, src := src.val } ∈ t.cfg.acts) ∧
    (∀ (ch : Fin 32) (c : Nat), c = ch.val → s.linkUp = true → s.role = 2 → s.isol = false → s.bit A.PRT_TCH_STATE c = true →
      s.channelLatched c = true → s.fld A.PRT_STAT F.PRT_STAT_WM_SRC = 2 → s.channelSource c = false → s.bit A.PRT_TCH_PULSE c = false →
      ∃ t : State, exec (.peerTripResetReceive ch) s = .next t ∧ t.bit A.PRT_TCH_STATE c = false)

/-- The commands of the Almanac, the overlays, supervision, power and resets, the security processor and the host complete (R4, R26, R393–R408, R432–R435,
R440–R453, R454–R466, R470–R485, R505): when what each waits for has come, it answers a next state that shows its effect. A host command completes by
taking its entry from the ring: what each accepted one does, HostCommands, SharedCommands and SecurityCommands state. -/
def Obligations.HostAndPowerCommandsComplete : Prop :=
  (∀ s : State, s.Live →
    -- the Almanac and overlays
    (∀ (src : BitVec 16) (v : Word) (h i : Nat), s.almSource src.toNat = some (v, false) → fpIsFinite v = true →
      (List.range 256).filter (fun h => (s.almPlan h).running && s.fld (A.ALM_PLAN_SRC h) F.ALM_PLAN_SRC_SRC == src.toNat) = [h] →
      (List.range 1024).filter (fun k => (s.almTrk k).running && s.fld (A.ALM_XT_CFG k) F.ALM_XT_CFG_SRC == src.toNat) = [] →
      s.fld (A.ALM_PLAN_CFG h) F.ALM_PLAN_CFG_MODE = 1 → i = s.fld (A.ALM_PLAN_SRC h) F.ALM_PLAN_SRC_BASE + s.almBinOf h (fpVal v) → ∃ t : State,
      exec (.almanacValue src {} {}) s = .next t ∧ (t.reg (A.ALM_BIN i)).toNat = min ((s.reg (A.ALM_BIN i)).toNat + 1) 0xFFFFFFFF) ∧
    (∀ (ch : Fin 32) (m : Interruption), tabGet none s.alm.interrupt ch.val = some m →
      (s.phasesBelow (s.fld (A.PRT_TCH_CFG ch) F.PRT_TCH_CFG_BFBAY) = true ∨ m.since + 2000000000 ≤ s.tim.up) → ∃ t : State,
      exec (.interruptionMeasureEnd ch) s = .next t ∧ tabGet none t.alm.interrupt ch.val = none) ∧
    (∀ (k : Fin 5) (u : Nat), tabGet none s.alm.nextB k.val = some u → u ≤ s.tim.now → ∃ t : State,
      exec (.intervalBoundary k) s = .next t ∧ tabGet none t.alm.nextB k.val = some (s.nextBoundary k s.tim.now)) ∧
    (∀ (cause : Fin 6) (addr : Word) (g : Staged) (l : List Staged), s.alm.staged = g :: l → s.alm.scanned = true →
      s.fld A.ALM_STAT F.ALM_STAT_STATE ≠ 0 →
      (∃ t : State, exec (.almanacCommit true cause addr) s = .next t ∧ t.alm.staged = l) ∧
      (cause.val ≠ 0 → s.fld A.ALM_STAT F.ALM_STAT_STATE ≠ 2 → ∃ t : State, exec (.almanacCommit false cause addr) s = .next t ∧
        t.fld A.ALM_STAT F.ALM_STAT_STATE = 2)) ∧
    (∀ (g : Staged) (l : List Staged), s.alm.staged = g :: l → s.alm.late = false → g.at_ + 5000000000 ≤ s.tim.now → ∃ t : State,
      exec .commitLate s = .next t ∧ t.alm.late = true) ∧
    (s.alm.scanned = false → s.cfg.image ≠ none → ∃ t : State, exec .keepScanDone s = .next t ∧ t.alm.scanned = true) ∧
    (∀ r : AlmRecord, s.fld A.ALM_STAT F.ALM_STAT_STATE ≠ 2 → ∃ t : State, exec (.remoteRecordReceive r) s = .next t ∧
      t.alm.staged.length = s.alm.staged.length + 1) ∧
    (∀ (a : OvlAct) (l : List OvlAct), s.cfg.acts = a :: l → a.t ≤ s.tim.now → ∃ t : State, exec .overlayTakeEffect s = .next t ∧
      t.cfg.acts = l) ∧
    -- supervision
    (∀ x : ReeveIn, (∀ u, s.pwr.reeveAt = some u → u + 1000000 ≤ s.tim.up) → ∃ t : State,
      exec (.reeveCycle x) s = .next t ∧ t.pwr.reeveAt = some s.tim.up) ∧
    (∀ (r : EccRegion) (e : Fin 24), s.fld A.SUP_ECC F.SUP_ECC_CORR < fldMax F.SUP_ECC_CORR → ∃ t : State,
      exec (.eccErrorDetect r e false) s = .next t ∧ t.fld A.SUP_ECC F.SUP_ECC_CORR = s.fld A.SUP_ECC F.SUP_ECC_CORR + 1) ∧
    (∀ (c : Fin 4) (u : Nat),
      (s.fld (A.PWR_CLUSTER c) F.PWR_CLUSTER_STATE ≠ 3 → s.raisedAt c = some u → u + 1000000000 ≤ s.tim.up → s.floorPoint c ≤ 4 → ∃ t : State,
        exec (.clusterClockReturn c) s = .next t ∧ t.raisedAt c = none) ∧
      (s.throttle c = some u → u ≤ s.tim.up → ∃ t : State, exec (.thermalThrottleStep c) s = .next t ∧
        t.throttle c = some (s.tim.up + 10000000))) ∧
    -- reports
    (∀ u : Nat, u = s.pwr.telemAt.getD s.tim.upStart + 1000000000 → u ≤ s.tim.up → ∃ t : State, exec .telemetryPost s = .next t ∧
      t.pwr.telemAt = some u) ∧
    (∀ u : Nat, u = s.pwr.attestAt.getD s.tim.upStart + 3600000000000 → u ≤ s.tim.up → ∃ t : State, exec .attestRefresh s = .next t ∧
      t.pwr.attestAt = some u) ∧
    (∀ x : BitVec 256 × (Nat × Bool), s.sec.report = some x → s.sec.refreshDue = false → ∃ t : State, exec .attestReportDone s = .next t ∧
      t.sec.report = none)) ∧
  (∀ s : State,
    -- power and resets
    (s.pwr.on = true → s.pwr.pfw = false → ∃ t : State, exec .pfwAssert s = .next t ∧ t.pwr.pfw = true) ∧
    (s.pwr.on = true → s.inWatchman = false → s.fld A.SUP_STAT F.SUP_STAT_PHASE ≠ 0 →
      ((s.pwr.pfw = true ∧ s.pwr.pfwAt + 50000 ≤ s.tim.up) ∨ s.tooHot = true) → ∃ t : State, exec .watchmanEntry s = .next t ∧
      t.inWatchman = true) ∧
    (s.pwr.on = true → s.inWatchman = true → s.pwr.pfwAt + 100000000 ≤ s.tim.up → ∃ t : State, exec .watchmanExit s = .next t ∧
      t.inWatchman = false) ∧
    (∀ b : Option Boot, s.pwr.on = true → ∃ t : State, exec (.resetNAssert b) s = .next t ∧ t.fld A.SUP_RSTCAUSE F.SUP_RSTCAUSE_CAUSE = 4) ∧
    (s.pwr.on = true → ∃ t : State, exec .supervisorWatchdogExpiry s = .next t ∧ t.fld A.SUP_RSTCAUSE F.SUP_RSTCAUSE_CAUSE = 2) ∧
    (s.role = 1 → s.claiming = true → s.ply.claimFed + s.fld A.PLY_CFG F.PLY_CFG_CLAIMWD * 1000000 ≤ s.tim.up → ∃ t : State,
      exec .claimWatchdogExpire s = .next t ∧ t.fld A.SUP_RSTCAUSE F.SUP_RSTCAUSE_CAUSE = 2) ∧
    (∀ (u : Nat) (w : Word), s.host.restartAt = some (u, w) → u + 1000000 ≤ s.tim.up → ∃ t : State, exec .restartReset s = .next t ∧
      t.fld A.SUP_RSTCAUSE F.SUP_RSTCAUSE_CAUSE = 1) ∧
    (s.pwr.on = true → ∃ t : State, exec .railOutOfRange s = .next t ∧ t.pwr.on = false) ∧
    (∃ t : State, exec .keepAliveToVbat s = .next t ∧ t.pwr.onVbat = true) ∧
    (∃ t : State, exec .keepAliveToVddKa s = .next t ∧ t.pwr.onVbat = false) ∧
    (∃ t : State, exec .crystalStop s = .next t ∧ t.tim.rtcSlow = true)) ∧
  -- host commands: each takes its entry
  (∀ (s : State) (e : HostEntry) (nonce : BitVec 256) (tk : Token),
    (∀ c : Instr, s.Live → s.takes 0 = true → c ∈ [.echo e, .urgentConvert e, .trackerReset e, .tripReset e, .captureTrigger e, .captureAck e,
        .captureLock e, .captureUnlock e, .forceSet e, .forceClear e, .forceClearAll e, .onlineSet e, .logicRun e, .logicStop e, .logicHold e,
        .logicStep e, .overlaySet e, .plyYield e, .restart e] →
      ∃ t : State, exec c s = .next t ∧ t.qHead 0 = (s.qHead 0 + 1) % s.qDepth 0 % 65536) ∧
    (∀ c : Instr, s.Live → s.takes 3 = true → c ∈ [.attest e nonce, .ownerWrite e tk, .ownerRevoke e tk, .debugUnlock e tk, .debugBan e tk] →
      ∃ t : State, exec c s = .next t ∧ t.qHead 3 = (s.qHead 3 + 1) % s.qDepth 3 % 65536)) ∧
  (∀ s : State, s.Live → s.bit A.PWR_DOMAIN_STAT 3 = true →
    -- host accesses
    (∀ (r : Fin 8) (v : Word), (r.val = 0 ∨ r.val = 3) → v.toNat < s.qDepth r →
      (v.toNat + s.qDepth r - s.qTail r) % s.qDepth r ≤ s.qDepth r - 1 - s.qCount r → ∃ t : State,
      exec (.hstQTailWrite r v) s = .next t ∧ t.qTail r = v.toNat) ∧
    (∀ (r : Fin 8) (v : Word), r.val ≠ 0 → r.val ≠ 3 → v.toNat < s.qDepth r →
      (v.toNat + s.qDepth r - s.qHead r) % s.qDepth r ≤ s.qCount r → ∃ t : State,
      exec (.hstQHeadWrite r v) s = .next t ∧ t.qHead r = v.toNat) ∧
    (∀ (k : Fin 4) (v : Word), (∃ t : State, exec (.hstEvtPendWrite k v) s = .next t ∧
        t.reg (A.HST_EVT_PEND k) = s.reg (A.HST_EVT_PEND k) &&& ~~~v) ∧
      (∃ t : State, exec (.hstEvtMaskWrite k v) s = .next t ∧ t.reg (A.HST_EVT_MASK k) = v)) ∧
    (∀ v : Word, (∃ t : State, exec (.kaOnVbatClear v) s = .next t ∧
        t.bit A.PWR_DOMAIN_STAT 0 = (s.bit A.PWR_DOMAIN_STAT 0 && !v.toNat.testBit 0)) ∧
      (∃ t : State, exec (.almCurWrite v) s = .next t ∧ t.reg A.ALM_CUR = v &&& 0xE0000000) ∧
      (∃ t : State, exec (.registerWriteOther false A.ALM_CURREC 32 v) s = .next t ∧ t.reg A.ALM_CURREC = v)) ∧
    (∀ (off : Nat) (v : Word), off % 4 = 0 → s.ringWritable off = true → ∃ t : State,
      exec (.registerWriteOther true off 32 v) s = .next t ∧ tabGet 0 t.host.win off = v) ∧
    (∀ (c : Instr) (a : Nat), ((∃ x : Fin 128, (c = .accSeqRead x ∧ a = A.ACQ_ACC_SEQ x) ∨ (c = .trkMinRead x ∧ a = A.ACQ_TRK_MIN x) ∨
          (c = .trkStatRead x ∧ a = A.ACQ_TRK_STAT x)) ∨
        (∃ b : Fin 8, (c = .frmcntLoRead b ∧ a = A.FLT_FRMCNT_LO b) ∨ (c = .measFrmRead b ∧ a = A.PRT_MEAS_FRM b) ∨
          (c = .motStatRead b ∧ a = A.PRT_MOT_STAT b) ∨ (c = .cflStatRead b ∧ a = A.PRT_CFL_STAT b)) ∨
        (∃ b : Fin 512, c = .bstatRead b ∧ a = A.SPN_BSTAT b) ∨ (∃ i : Fin 32, c = .binTsLoRead i ∧ a = A.LIO_BIN_TS_LO i) ∨
        (c = .timNowLoRead ∧ a = A.TIM_NOW_LO) ∨ (c = .lasttoLoRead ∧ a = A.PLY_LASTTO_LO) ∨ (c = .ovlTLoRead ∧ a = A.CFG_OVL_T_LO) ∨
        (c = .almWinW63Read ∧ a = A.ALM_WIN 63)) →
      ∃ t : State, exec c s = .next t ∧ t.host.rdata = s.reg a) ∧
    (∀ (bar2 : Bool) (off width : Nat), (width ≠ 32 ∨ off % 4 ≠ 0 ∨ unassigned bar2 off = true) → ∃ t : State,
      exec (.badHostRead bar2 off width) s = .next t ∧ t.host.rdata = 0 ∧
        (t.reg A.HST_BADADDR).toNat = bar2.toNat * 2 ^ 31 + off % 2 ^ 30) ∧
    (∀ (up : Bool) (speed : Fin 4) (width : Fin 3), s.fld A.HST_STAT F.HST_STAT_MODE = 1 → ∃ t : State,
      exec (.pcieLinkChange up speed width) s = .next t ∧ t.bit A.HST_STAT 29 = up))

/-! ### The whole machine -/

/-- In Watchman mode the gated domains do nothing (R452): a command that acts there leaves the whole device as it is. -/
def Obligations.WatchmanGating : Prop :=
  ∀ (c : Instr) (s : State), ungated c = false → s.inWatchman = true → exec c s = .next s

/-- A step takes the command at the front of the queue and executes it on the state with the queue's rest. -/
def Obligations.StepRunsFront : Prop :=
  ∀ (c : Instr) (l : List Instr) (s : State), step { s with pending := c :: l } = exec c { s with pending := l }

/-- Every command leaves the queue of waiting commands as it is, and those that `memoryKept` names leave every octet of memory as it is. -/
def Obligations.QueueAndMemoryFrame : Prop :=
  ∀ (c : Instr) (s t : State), exec c s = .next t → t.pending = s.pending ∧ (memoryKept c = true → t.mem = s.mem)

/-- On an empty queue one nanosecond passes (assumption 1): `tim.up` counts it, powered or not, and so does the RTC; without supply nothing
else changes. -/
def Obligations.IdleStep : Prop :=
  ∀ s : State, s.pending = [] → ∃ t : State, step s = .next t ∧ t.tim.up = s.tim.up + 1 ∧ t.tim.rtc = s.tim.rtc + 1 ∧ t.pending = [] ∧
    (s.pwr.on = false → { t with tim := s.tim } = s)

/-- The state after reset is in canonical form, without supply and role, with an empty queue and an empty memory, and not switched. -/
def Obligations.ResetCanonical : Prop :=
  State.reset.Canonical ∧ State.reset.pending = [] ∧ State.reset.mem = [] ∧ State.reset.pwr.on = false ∧ State.reset.role = 7 ∧
    State.reset.cfg.switched = none

/-- Every step keeps memory, registers and latched copies in canonical form: equal contents are equal data, in every state that any
command sequence reaches from a canonical one. -/
def Obligations.StepKeepsCanonical : Prop :=
  ∀ s t : State, s.Canonical → step s = .next t → t.Canonical
end

