-- ==== Sys2Proof/Laws/Heddle.lean ====
section
/-! SUPPORT. Laws of running one Heddle instruction: the step on a ready instruction, operands of the context past it. -/

namespace Sys2Proof.Laws

open Sys2Proof.Machine

/-- A Heddle instruction that is ready and whose meaning completes leaves that meaning's context and state. -/
theorem heddleStep_ready {s : State} {h : Fin 4} {opc : Nat} {c : Ctx} {w : BitVec 64} {form : BitVec 64 → Bool}
    {sem : BitVec 64 → Ctx → State → HRes} {c1 : Ctx} {s1 : State} (hr : s.Ready h opc c w) (hf : form w = true)
    (hs : sem w c.past s = .ok c1 s1) :
    (Host.Outcome.next (s.heddleStep h opc form sem) : Host.Outcome State Fault Refusal) = s1.ranTo h c1 := by
  obtain ⟨h1, h2, h3, h4⟩ := hr
  have hl : ¬ c.limit < c.count + 1 := by omega
  simp only [Ctx.past] at hs
  simp only [State.heddleStep, h1, h2, hf, h3, beq_self_eq_true, Bool.and_self, if_true, State.runIns, hl, if_false, hs,
    State.ranTo]

/-- A Heddle instruction that is ready and whose meaning faults ends the execution with that program fault. -/
theorem heddleStep_fault {s : State} {h : Fin 4} {opc : Nat} {c : Ctx} {w : BitVec 64} {form : BitVec 64 → Bool}
    {sem : BitVec 64 → Ctx → State → HRes} {k : Nat} (hr : s.Ready h opc c w) (hf : form w = true)
    (hs : sem w c.past s = .fault k) : s.heddleStep h opc form sem = s.progFault h c k := by
  obtain ⟨h1, h2, h3, h4⟩ := hr
  have hl : ¬ c.limit < c.count + 1 := by omega
  simp only [Ctx.past] at hs
  simp only [State.heddleStep, h1, h2, hf, h3, beq_self_eq_true, Bool.and_self, if_true, State.runIns, hl, if_false, hs]

@[simp] theorem past_x (c : Ctx) : c.past.x = c.x := rfl
@[simp] theorem past_y (c : Ctx) : c.past.y = c.y := rfl
@[simp] theorem past_lb (c : Ctx) : c.past.lb = c.lb := rfl
@[simp] theorem past_sats (c : Ctx) : c.past.sats = c.sats := rfl
@[simp] theorem past_out (c : Ctx) : c.past.out = c.out := rfl
@[simp] theorem past_img (c : Ctx) : c.past.img = c.img := rfl
@[simp] theorem past_clk (c : Ctx) : c.past.clk = c.clk := rfl
@[simp] theorem past_groups (c : Ctx) : c.past.groups = c.groups := rfl
@[simp] theorem past_calls (c : Ctx) : c.past.calls = c.calls := rfl

@[simp] theorem seen_past (c : Ctx) (s : State) (a : Nat) : c.past.seen s a = c.seen s a := rfl

@[simp] theorem seenLE_past (c : Ctx) (s : State) (a n : Nat) : c.past.seenLE s a n = c.seenLE s a n := by
  induction n generalizing a with
  | zero => rfl
  | succ n ih => simp [Ctx.seenLE, ih]

@[simp] theorem qSeen_past (c : Ctx) (s : State) (o : Nat) : qSeen c.past s o = qSeen c s o := rfl

@[simp] theorem qSeenLE_past (c : Ctx) (s : State) (o n : Nat) : qSeenLE c.past s o n = qSeenLE c s o n := by
  induction n generalizing o with
  | zero => rfl
  | succ n ih => simp [qSeenLE, ih]

@[simp] theorem readBit_past (c : Ctx) (s : State) (a i : Nat) : readBit c.past s a i = readBit c s a i := by
  unfold readBit
  split <;> simp

@[simp] theorem readRaw_past (c : Ctx) (s : State) (a z i : Nat) : readRaw c.past s a z i = readRaw c s a z i := by
  unfold readRaw
  split <;> simp

@[simp] theorem readWord_past (c : Ctx) (s : State) (a z i : Nat) : readWord c.past s a z i = readWord c s a z i := by
  unfold readWord
  simp

/-- A bit operand in its area is given to the meaning. -/
theorem withBit_in {w : BitVec 64} {c : Ctx} (h : BitIn w c) (k : Nat → HRes) : withBit w c.past k = k (insIndex w c.y) := by
  unfold withBit
  exact if_neg (Nat.not_le.mpr h)

/-- A word operand in its area and aligned is given to the meaning. -/
theorem withIndex_in {w : BitVec 64} {c : Ctx} (h : WordIn w c) (k : Nat → HRes) :
    withIndex w c.past k = k (insIndex w c.y) := by
  unfold withIndex
  exact if_neg (fun hf => hf h)

/-- The second operand is given to the meaning. -/
theorem withS_eq {w : BitVec 64} {c : Ctx} {s : State} {v : Word} (h : OperandS w c s v) (k : Word → HRes) :
    withS w c.past s k = k v := by
  rcases h with ⟨h0, h1, rfl⟩ | ⟨h0, h1, rfl⟩ | ⟨h0, h1, rfl⟩
  · simp only [withS, h0, h1, if_true, past_y]
  · simp only [withS, h0, h1, if_true, Bool.false_eq_true, if_false]
  · simp only [withS, h0, if_false, withIndex_in h1, readWord_past]

/-- A limited integer read back is the integer within the bounds. -/
theorem toInt_limited (r : Int) :
    (wordOfInt (clampInt (-2 ^ 31) (2 ^ 31 - 1) r)).toInt = max (-2 ^ 31) (min (2 ^ 31 - 1) r) := by
  simp only [wordOfInt, BitVec.toInt_ofInt, clampInt]
  split
  · simp [Int.bmod]; omega
  · split
    · simp [Int.bmod]; omega
    · simp [Int.bmod]; omega

/-- Storing a signed result limits it and sets the flags (R232). -/
theorem storeInt_limited (c : Ctx) (r : Int) : c.Limited (storeInt c r) r := by
  refine ⟨wordOfInt (clampInt (-2 ^ 31) (2 ^ 31 - 1) r), toInt_limited r, ?_⟩
  have hc : clampInt (-2 ^ 31) (2 ^ 31 - 1) r = (wordOfInt (clampInt (-2 ^ 31) (2 ^ 31 - 1) r)).toInt := by
    rw [toInt_limited]
    unfold clampInt
    split
    · omega
    · split <;> omega
  have hz : (clampInt (-2 ^ 31) (2 ^ 31 - 1) r = 0) = (wordOfInt (clampInt (-2 ^ 31) (2 ^ 31 - 1) r) = 0) := by
    apply propext
    constructor
    · intro h
      rw [h]
      rfl
    · intro h
      rw [hc, h]
      rfl
  unfold storeInt storeX
  simp only [hz]
  simp only [← hc]

end Sys2Proof.Laws
end

