-- ==== Sys2Proof/Laws/Sparse.lean ====
section
/-! SUPPORT. Laws of sparse tables: read after write, other keys untouched, the canonical form kept. -/

namespace Sys2Proof.Laws

open Sys2Proof.Machine

variable {α : Type}

theorem sparseGet_del_same (d : Nat → α) (l : List (Nat × α)) (k : Nat) : sparseGet d (sparseDel l k) k = d k := by
  induction l with
  | nil => rfl
  | cons e l ih => by_cases h : e.1 = k <;> simp [sparseDel, sparseGet, h, ih]

theorem sparseGet_del_ne (d : Nat → α) (l : List (Nat × α)) {j k : Nat} (hne : j ≠ k) :
    sparseGet d (sparseDel l k) j = sparseGet d l j := by
  induction l with
  | nil => rfl
  | cons e l ih =>
    by_cases h : e.1 = k
    · have : e.1 ≠ j := by omega
      simp [sparseDel, sparseGet, h, ih, hne.symm]
    · simp [sparseDel, sparseGet, h, ih]

theorem sparseDel_absent (l : List (Nat × α)) (k : Nat) : ∀ e ∈ sparseDel l k, e.1 ≠ k := by
  induction l with
  | nil => simp [sparseDel]
  | cons e l ih =>
    intro x hx
    by_cases h : e.1 = k
    · exact ih x (by simpa [sparseDel, h] using hx)
    · simp only [sparseDel, h, if_false, List.mem_cons] at hx
      rcases hx with rfl | hx
      · exact h
      · exact ih x hx

theorem sparseGet_ins_same (d : Nat → α) (v : α) (k : Nat) (l : List (Nat × α)) (hl : ∀ e ∈ l, e.1 ≠ k) :
    sparseGet d (sparseIns k v l) k = v := by
  induction l with
  | nil => simp [sparseIns, sparseGet]
  | cons e l ih =>
    by_cases h : k < e.1
    · simp [sparseIns, sparseGet, h]
    · have h1 : e.1 ≠ k := hl e (by simp)
      have h2 := ih (fun x hx => hl x (by simp [hx]))
      simp [sparseIns, sparseGet, h, h1, h2]

theorem sparseGet_ins_ne (d : Nat → α) (v : α) {j k : Nat} (l : List (Nat × α)) (hne : j ≠ k) :
    sparseGet d (sparseIns k v l) j = sparseGet d l j := by
  induction l with
  | nil => simp [sparseIns, sparseGet, hne.symm]
  | cons e l ih => by_cases h : k < e.1 <;> simp [sparseIns, sparseGet, h, ih, hne.symm]

/-- A read after a write of the same key gives the value written. -/
@[simp] theorem sparseGet_put_same [DecidableEq α] (d : Nat → α) (l : List (Nat × α)) (k : Nat) (v : α) :
    sparseGet d (sparsePut d l k v) k = v := by
  unfold sparsePut
  split
  · next h => rw [sparseGet_del_same, h]
  · exact sparseGet_ins_same d v k _ (sparseDel_absent l k)

/-- A write leaves every other key alone. -/
@[simp] theorem sparseGet_put_ne [DecidableEq α] (d : Nat → α) (l : List (Nat × α)) {j k : Nat} (v : α) (h : j ≠ k) :
    sparseGet d (sparsePut d l k v) j = sparseGet d l j := by
  unfold sparsePut
  split
  · exact sparseGet_del_ne d l h
  · rw [sparseGet_ins_ne d v _ h, sparseGet_del_ne d l h]

theorem sparseGet_put [DecidableEq α] (d : Nat → α) (l : List (Nat × α)) (j k : Nat) (v : α) :
    sparseGet d (sparsePut d l k v) j = if j = k then v else sparseGet d l j := by
  by_cases h : j = k
  · subst h; simp
  · simp [h]

theorem sparseWfFrom_mono [DecidableEq α] (d : Nat → α) {a b : Nat} (h : a ≤ b) (l : List (Nat × α)) :
    sparseWfFrom d b l = true → sparseWfFrom d a l = true := by
  cases l with
  | nil => simp [sparseWfFrom]
  | cons e l =>
    simp only [sparseWfFrom, Bool.and_eq_true, Nat.ble_eq]
    exact fun hb => ⟨by omega, hb.2⟩

theorem sparseWfFrom_del [DecidableEq α] (d : Nat → α) (k : Nat) (l : List (Nat × α)) :
    ∀ b, sparseWfFrom d b l = true → sparseWfFrom d b (sparseDel l k) = true := by
  induction l with
  | nil => simp [sparseDel, sparseWfFrom]
  | cons e l ih =>
    intro b hb
    simp only [sparseWfFrom, Bool.and_eq_true, Nat.ble_eq] at hb
    by_cases h : e.1 = k
    · simp only [sparseDel, h, if_true]
      exact sparseWfFrom_mono d (by omega) _ (ih _ hb.2.2)
    · simp only [sparseDel, h, if_false, sparseWfFrom, Bool.and_eq_true, Nat.ble_eq]
      exact ⟨hb.1, hb.2.1, ih _ hb.2.2⟩

theorem sparseWfFrom_ins [DecidableEq α] (d : Nat → α) (k : Nat) (v : α) (hv : v ≠ d k) (l : List (Nat × α)) :
    ∀ b, b ≤ k → (∀ e ∈ l, e.1 ≠ k) → sparseWfFrom d b l = true → sparseWfFrom d b (sparseIns k v l) = true := by
  induction l with
  | nil => intro b hb _ _; simp [sparseIns, sparseWfFrom, hb, hv]
  | cons e l ih =>
    intro b hb hk hw
    simp only [sparseWfFrom, Bool.and_eq_true, Nat.ble_eq] at hw
    have hne : e.1 ≠ k := hk e (by simp)
    by_cases h : k < e.1
    · simp only [sparseIns, h, if_true, sparseWfFrom, Bool.and_eq_true, Nat.ble_eq]
      exact ⟨hb, by simp [hv], by omega, hw.2⟩
    · simp only [sparseIns, h, if_false, sparseWfFrom, Bool.and_eq_true, Nat.ble_eq]
      exact ⟨hw.1, hw.2.1, ih _ (by omega) (fun x hx => hk x (by simp [hx])) hw.2.2⟩

/-- A write keeps the canonical form. -/
theorem sparseWf_put [DecidableEq α] (d : Nat → α) (l : List (Nat × α)) (k : Nat) (v : α)
    (h : sparseWf d l = true) : sparseWf d (sparsePut d l k v) = true := by
  unfold sparsePut
  split
  · exact sparseWfFrom_del d k l 0 h
  · next hv => exact sparseWfFrom_ins d k v hv _ 0 (Nat.zero_le _) (sparseDel_absent l k) (sparseWfFrom_del d k l 0 h)

end Sys2Proof.Laws
end

