-- ==== Sys2Proof/Laws/State.lean ====
section
/-! SUPPORT. What the updates of one component leave alone: one lemma per field and update, true by definition. -/

namespace Sys2Proof.Laws

open Sys2Proof.Machine

/-! `setReg` changes `regs` only. -/

@[simp] theorem setReg_pending (s : State) (a : Nat) (w : Word) : (s.setReg a w).pending = s.pending := rfl
@[simp] theorem setReg_freeSeq (s : State) (a : Nat) (w : Word) : (s.setReg a w).freeSeq = s.freeSeq := rfl
@[simp] theorem setReg_latched (s : State) (a : Nat) (w : Word) : (s.setReg a w).latched = s.latched := rfl
@[simp] theorem setReg_mem (s : State) (a : Nat) (w : Word) : (s.setReg a w).mem = s.mem := rfl
@[simp] theorem setReg_tim (s : State) (a : Nat) (w : Word) : (s.setReg a w).tim = s.tim := rfl
@[simp] theorem setReg_acq (s : State) (a : Nat) (w : Word) : (s.setReg a w).acq = s.acq := rfl
@[simp] theorem setReg_host (s : State) (a : Nat) (w : Word) : (s.setReg a w).host = s.host := rfl
@[simp] theorem setReg_trip (s : State) (a : Nat) (w : Word) : (s.setReg a w).trip = s.trip := rfl
@[simp] theorem setReg_cfg (s : State) (a : Nat) (w : Word) : (s.setReg a w).cfg = s.cfg := rfl
@[simp] theorem setReg_chain (s : State) (a : Nat) (w : Word) : (s.setReg a w).chain = s.chain := rfl
@[simp] theorem setReg_prot (s : State) (a : Nat) (w : Word) : (s.setReg a w).prot = s.prot := rfl
@[simp] theorem setReg_pwr (s : State) (a : Nat) (w : Word) : (s.setReg a w).pwr = s.pwr := rfl
@[simp] theorem setReg_cap (s : State) (a : Nat) (w : Word) : (s.setReg a w).cap = s.cap := rfl
@[simp] theorem setReg_hdl (s : State) (a : Nat) (w : Word) : (s.setReg a w).hdl = s.hdl := rfl
@[simp] theorem setReg_peal (s : State) (a : Nat) (w : Word) : (s.setReg a w).peal = s.peal := rfl
@[simp] theorem setReg_spn (s : State) (a : Nat) (w : Word) : (s.setReg a w).spn = s.spn := rfl
@[simp] theorem setReg_net (s : State) (a : Nat) (w : Word) : (s.setReg a w).net = s.net := rfl
@[simp] theorem setReg_hnk (s : State) (a : Nat) (w : Word) : (s.setReg a w).hnk = s.hnk := rfl
@[simp] theorem setReg_ply (s : State) (a : Nat) (w : Word) : (s.setReg a w).ply = s.ply := rfl
@[simp] theorem setReg_alm (s : State) (a : Nat) (w : Word) : (s.setReg a w).alm = s.alm := rfl
@[simp] theorem setReg_keep (s : State) (a : Nat) (w : Word) : (s.setReg a w).keep = s.keep := rfl
@[simp] theorem setReg_sec (s : State) (a : Nat) (w : Word) : (s.setReg a w).sec = s.sec := rfl

/-! `setFld` changes `regs` only. -/

@[simp] theorem setFld_pending (s : State) (a : Nat) (f : Fld) (v : Nat) : (s.setFld a f v).pending = s.pending := rfl
@[simp] theorem setFld_freeSeq (s : State) (a : Nat) (f : Fld) (v : Nat) : (s.setFld a f v).freeSeq = s.freeSeq := rfl
@[simp] theorem setFld_latched (s : State) (a : Nat) (f : Fld) (v : Nat) : (s.setFld a f v).latched = s.latched := rfl
@[simp] theorem setFld_mem (s : State) (a : Nat) (f : Fld) (v : Nat) : (s.setFld a f v).mem = s.mem := rfl
@[simp] theorem setFld_tim (s : State) (a : Nat) (f : Fld) (v : Nat) : (s.setFld a f v).tim = s.tim := rfl
@[simp] theorem setFld_acq (s : State) (a : Nat) (f : Fld) (v : Nat) : (s.setFld a f v).acq = s.acq := rfl
@[simp] theorem setFld_host (s : State) (a : Nat) (f : Fld) (v : Nat) : (s.setFld a f v).host = s.host := rfl
@[simp] theorem setFld_trip (s : State) (a : Nat) (f : Fld) (v : Nat) : (s.setFld a f v).trip = s.trip := rfl
@[simp] theorem setFld_cfg (s : State) (a : Nat) (f : Fld) (v : Nat) : (s.setFld a f v).cfg = s.cfg := rfl
@[simp] theorem setFld_chain (s : State) (a : Nat) (f : Fld) (v : Nat) : (s.setFld a f v).chain = s.chain := rfl
@[simp] theorem setFld_prot (s : State) (a : Nat) (f : Fld) (v : Nat) : (s.setFld a f v).prot = s.prot := rfl
@[simp] theorem setFld_pwr (s : State) (a : Nat) (f : Fld) (v : Nat) : (s.setFld a f v).pwr = s.pwr := rfl
@[simp] theorem setFld_cap (s : State) (a : Nat) (f : Fld) (v : Nat) : (s.setFld a f v).cap = s.cap := rfl
@[simp] theorem setFld_hdl (s : State) (a : Nat) (f : Fld) (v : Nat) : (s.setFld a f v).hdl = s.hdl := rfl
@[simp] theorem setFld_peal (s : State) (a : Nat) (f : Fld) (v : Nat) : (s.setFld a f v).peal = s.peal := rfl
@[simp] theorem setFld_spn (s : State) (a : Nat) (f : Fld) (v : Nat) : (s.setFld a f v).spn = s.spn := rfl
@[simp] theorem setFld_net (s : State) (a : Nat) (f : Fld) (v : Nat) : (s.setFld a f v).net = s.net := rfl
@[simp] theorem setFld_hnk (s : State) (a : Nat) (f : Fld) (v : Nat) : (s.setFld a f v).hnk = s.hnk := rfl
@[simp] theorem setFld_ply (s : State) (a : Nat) (f : Fld) (v : Nat) : (s.setFld a f v).ply = s.ply := rfl
@[simp] theorem setFld_alm (s : State) (a : Nat) (f : Fld) (v : Nat) : (s.setFld a f v).alm = s.alm := rfl
@[simp] theorem setFld_keep (s : State) (a : Nat) (f : Fld) (v : Nat) : (s.setFld a f v).keep = s.keep := rfl
@[simp] theorem setFld_sec (s : State) (a : Nat) (f : Fld) (v : Nat) : (s.setFld a f v).sec = s.sec := rfl

/-! `setBit` changes `regs` only. -/

@[simp] theorem setBit_pending (s : State) (a i : Nat) (b : Bool) : (s.setBit a i b).pending = s.pending := rfl
@[simp] theorem setBit_freeSeq (s : State) (a i : Nat) (b : Bool) : (s.setBit a i b).freeSeq = s.freeSeq := rfl
@[simp] theorem setBit_latched (s : State) (a i : Nat) (b : Bool) : (s.setBit a i b).latched = s.latched := rfl
@[simp] theorem setBit_mem (s : State) (a i : Nat) (b : Bool) : (s.setBit a i b).mem = s.mem := rfl
@[simp] theorem setBit_tim (s : State) (a i : Nat) (b : Bool) : (s.setBit a i b).tim = s.tim := rfl
@[simp] theorem setBit_acq (s : State) (a i : Nat) (b : Bool) : (s.setBit a i b).acq = s.acq := rfl
@[simp] theorem setBit_host (s : State) (a i : Nat) (b : Bool) : (s.setBit a i b).host = s.host := rfl
@[simp] theorem setBit_trip (s : State) (a i : Nat) (b : Bool) : (s.setBit a i b).trip = s.trip := rfl
@[simp] theorem setBit_cfg (s : State) (a i : Nat) (b : Bool) : (s.setBit a i b).cfg = s.cfg := rfl
@[simp] theorem setBit_chain (s : State) (a i : Nat) (b : Bool) : (s.setBit a i b).chain = s.chain := rfl
@[simp] theorem setBit_prot (s : State) (a i : Nat) (b : Bool) : (s.setBit a i b).prot = s.prot := rfl
@[simp] theorem setBit_pwr (s : State) (a i : Nat) (b : Bool) : (s.setBit a i b).pwr = s.pwr := rfl
@[simp] theorem setBit_cap (s : State) (a i : Nat) (b : Bool) : (s.setBit a i b).cap = s.cap := rfl
@[simp] theorem setBit_hdl (s : State) (a i : Nat) (b : Bool) : (s.setBit a i b).hdl = s.hdl := rfl
@[simp] theorem setBit_peal (s : State) (a i : Nat) (b : Bool) : (s.setBit a i b).peal = s.peal := rfl
@[simp] theorem setBit_spn (s : State) (a i : Nat) (b : Bool) : (s.setBit a i b).spn = s.spn := rfl
@[simp] theorem setBit_net (s : State) (a i : Nat) (b : Bool) : (s.setBit a i b).net = s.net := rfl
@[simp] theorem setBit_hnk (s : State) (a i : Nat) (b : Bool) : (s.setBit a i b).hnk = s.hnk := rfl
@[simp] theorem setBit_ply (s : State) (a i : Nat) (b : Bool) : (s.setBit a i b).ply = s.ply := rfl
@[simp] theorem setBit_alm (s : State) (a i : Nat) (b : Bool) : (s.setBit a i b).alm = s.alm := rfl
@[simp] theorem setBit_keep (s : State) (a i : Nat) (b : Bool) : (s.setBit a i b).keep = s.keep := rfl
@[simp] theorem setBit_sec (s : State) (a i : Nat) (b : Bool) : (s.setBit a i b).sec = s.sec := rfl

/-! `incWrap` changes `regs` only. -/

@[simp] theorem incWrap_pending (s : State) (a : Nat) (f : Fld) : (s.incWrap a f).pending = s.pending := rfl
@[simp] theorem incWrap_freeSeq (s : State) (a : Nat) (f : Fld) : (s.incWrap a f).freeSeq = s.freeSeq := rfl
@[simp] theorem incWrap_latched (s : State) (a : Nat) (f : Fld) : (s.incWrap a f).latched = s.latched := rfl
@[simp] theorem incWrap_mem (s : State) (a : Nat) (f : Fld) : (s.incWrap a f).mem = s.mem := rfl
@[simp] theorem incWrap_tim (s : State) (a : Nat) (f : Fld) : (s.incWrap a f).tim = s.tim := rfl
@[simp] theorem incWrap_acq (s : State) (a : Nat) (f : Fld) : (s.incWrap a f).acq = s.acq := rfl
@[simp] theorem incWrap_host (s : State) (a : Nat) (f : Fld) : (s.incWrap a f).host = s.host := rfl
@[simp] theorem incWrap_trip (s : State) (a : Nat) (f : Fld) : (s.incWrap a f).trip = s.trip := rfl
@[simp] theorem incWrap_cfg (s : State) (a : Nat) (f : Fld) : (s.incWrap a f).cfg = s.cfg := rfl
@[simp] theorem incWrap_chain (s : State) (a : Nat) (f : Fld) : (s.incWrap a f).chain = s.chain := rfl
@[simp] theorem incWrap_prot (s : State) (a : Nat) (f : Fld) : (s.incWrap a f).prot = s.prot := rfl
@[simp] theorem incWrap_pwr (s : State) (a : Nat) (f : Fld) : (s.incWrap a f).pwr = s.pwr := rfl
@[simp] theorem incWrap_cap (s : State) (a : Nat) (f : Fld) : (s.incWrap a f).cap = s.cap := rfl
@[simp] theorem incWrap_hdl (s : State) (a : Nat) (f : Fld) : (s.incWrap a f).hdl = s.hdl := rfl
@[simp] theorem incWrap_peal (s : State) (a : Nat) (f : Fld) : (s.incWrap a f).peal = s.peal := rfl
@[simp] theorem incWrap_spn (s : State) (a : Nat) (f : Fld) : (s.incWrap a f).spn = s.spn := rfl
@[simp] theorem incWrap_net (s : State) (a : Nat) (f : Fld) : (s.incWrap a f).net = s.net := rfl
@[simp] theorem incWrap_hnk (s : State) (a : Nat) (f : Fld) : (s.incWrap a f).hnk = s.hnk := rfl
@[simp] theorem incWrap_ply (s : State) (a : Nat) (f : Fld) : (s.incWrap a f).ply = s.ply := rfl
@[simp] theorem incWrap_alm (s : State) (a : Nat) (f : Fld) : (s.incWrap a f).alm = s.alm := rfl
@[simp] theorem incWrap_keep (s : State) (a : Nat) (f : Fld) : (s.incWrap a f).keep = s.keep := rfl
@[simp] theorem incWrap_sec (s : State) (a : Nat) (f : Fld) : (s.incWrap a f).sec = s.sec := rfl

/-! `setReg64` changes `regs` only. -/

@[simp] theorem setReg64_pending (s : State) (lo hi n : Nat) : (s.setReg64 lo hi n).pending = s.pending := rfl
@[simp] theorem setReg64_freeSeq (s : State) (lo hi n : Nat) : (s.setReg64 lo hi n).freeSeq = s.freeSeq := rfl
@[simp] theorem setReg64_latched (s : State) (lo hi n : Nat) : (s.setReg64 lo hi n).latched = s.latched := rfl
@[simp] theorem setReg64_mem (s : State) (lo hi n : Nat) : (s.setReg64 lo hi n).mem = s.mem := rfl
@[simp] theorem setReg64_tim (s : State) (lo hi n : Nat) : (s.setReg64 lo hi n).tim = s.tim := rfl
@[simp] theorem setReg64_acq (s : State) (lo hi n : Nat) : (s.setReg64 lo hi n).acq = s.acq := rfl
@[simp] theorem setReg64_host (s : State) (lo hi n : Nat) : (s.setReg64 lo hi n).host = s.host := rfl
@[simp] theorem setReg64_trip (s : State) (lo hi n : Nat) : (s.setReg64 lo hi n).trip = s.trip := rfl
@[simp] theorem setReg64_cfg (s : State) (lo hi n : Nat) : (s.setReg64 lo hi n).cfg = s.cfg := rfl
@[simp] theorem setReg64_chain (s : State) (lo hi n : Nat) : (s.setReg64 lo hi n).chain = s.chain := rfl
@[simp] theorem setReg64_prot (s : State) (lo hi n : Nat) : (s.setReg64 lo hi n).prot = s.prot := rfl
@[simp] theorem setReg64_pwr (s : State) (lo hi n : Nat) : (s.setReg64 lo hi n).pwr = s.pwr := rfl
@[simp] theorem setReg64_cap (s : State) (lo hi n : Nat) : (s.setReg64 lo hi n).cap = s.cap := rfl
@[simp] theorem setReg64_hdl (s : State) (lo hi n : Nat) : (s.setReg64 lo hi n).hdl = s.hdl := rfl
@[simp] theorem setReg64_peal (s : State) (lo hi n : Nat) : (s.setReg64 lo hi n).peal = s.peal := rfl
@[simp] theorem setReg64_spn (s : State) (lo hi n : Nat) : (s.setReg64 lo hi n).spn = s.spn := rfl
@[simp] theorem setReg64_net (s : State) (lo hi n : Nat) : (s.setReg64 lo hi n).net = s.net := rfl
@[simp] theorem setReg64_hnk (s : State) (lo hi n : Nat) : (s.setReg64 lo hi n).hnk = s.hnk := rfl
@[simp] theorem setReg64_ply (s : State) (lo hi n : Nat) : (s.setReg64 lo hi n).ply = s.ply := rfl
@[simp] theorem setReg64_alm (s : State) (lo hi n : Nat) : (s.setReg64 lo hi n).alm = s.alm := rfl
@[simp] theorem setReg64_keep (s : State) (lo hi n : Nat) : (s.setReg64 lo hi n).keep = s.keep := rfl
@[simp] theorem setReg64_sec (s : State) (lo hi n : Nat) : (s.setReg64 lo hi n).sec = s.sec := rfl

/-! `incSatQuiet` changes `regs` only. -/

@[simp] theorem incSatQuiet_pending (s : State) (a : Nat) (f : Fld) : (s.incSatQuiet a f).pending = s.pending := rfl
@[simp] theorem incSatQuiet_freeSeq (s : State) (a : Nat) (f : Fld) : (s.incSatQuiet a f).freeSeq = s.freeSeq := rfl
@[simp] theorem incSatQuiet_latched (s : State) (a : Nat) (f : Fld) : (s.incSatQuiet a f).latched = s.latched := rfl
@[simp] theorem incSatQuiet_mem (s : State) (a : Nat) (f : Fld) : (s.incSatQuiet a f).mem = s.mem := rfl
@[simp] theorem incSatQuiet_tim (s : State) (a : Nat) (f : Fld) : (s.incSatQuiet a f).tim = s.tim := rfl
@[simp] theorem incSatQuiet_acq (s : State) (a : Nat) (f : Fld) : (s.incSatQuiet a f).acq = s.acq := rfl
@[simp] theorem incSatQuiet_host (s : State) (a : Nat) (f : Fld) : (s.incSatQuiet a f).host = s.host := rfl
@[simp] theorem incSatQuiet_trip (s : State) (a : Nat) (f : Fld) : (s.incSatQuiet a f).trip = s.trip := rfl
@[simp] theorem incSatQuiet_cfg (s : State) (a : Nat) (f : Fld) : (s.incSatQuiet a f).cfg = s.cfg := rfl
@[simp] theorem incSatQuiet_chain (s : State) (a : Nat) (f : Fld) : (s.incSatQuiet a f).chain = s.chain := rfl
@[simp] theorem incSatQuiet_prot (s : State) (a : Nat) (f : Fld) : (s.incSatQuiet a f).prot = s.prot := rfl
@[simp] theorem incSatQuiet_pwr (s : State) (a : Nat) (f : Fld) : (s.incSatQuiet a f).pwr = s.pwr := rfl
@[simp] theorem incSatQuiet_cap (s : State) (a : Nat) (f : Fld) : (s.incSatQuiet a f).cap = s.cap := rfl
@[simp] theorem incSatQuiet_hdl (s : State) (a : Nat) (f : Fld) : (s.incSatQuiet a f).hdl = s.hdl := rfl
@[simp] theorem incSatQuiet_peal (s : State) (a : Nat) (f : Fld) : (s.incSatQuiet a f).peal = s.peal := rfl
@[simp] theorem incSatQuiet_spn (s : State) (a : Nat) (f : Fld) : (s.incSatQuiet a f).spn = s.spn := rfl
@[simp] theorem incSatQuiet_net (s : State) (a : Nat) (f : Fld) : (s.incSatQuiet a f).net = s.net := rfl
@[simp] theorem incSatQuiet_hnk (s : State) (a : Nat) (f : Fld) : (s.incSatQuiet a f).hnk = s.hnk := rfl
@[simp] theorem incSatQuiet_ply (s : State) (a : Nat) (f : Fld) : (s.incSatQuiet a f).ply = s.ply := rfl
@[simp] theorem incSatQuiet_alm (s : State) (a : Nat) (f : Fld) : (s.incSatQuiet a f).alm = s.alm := rfl
@[simp] theorem incSatQuiet_keep (s : State) (a : Nat) (f : Fld) : (s.incSatQuiet a f).keep = s.keep := rfl
@[simp] theorem incSatQuiet_sec (s : State) (a : Nat) (f : Fld) : (s.incSatQuiet a f).sec = s.sec := rfl

/-! `countDrop` changes `regs` only. -/

@[simp] theorem countDrop_pending (s : State) : (s.countDrop).pending = s.pending := rfl
@[simp] theorem countDrop_freeSeq (s : State) : (s.countDrop).freeSeq = s.freeSeq := rfl
@[simp] theorem countDrop_latched (s : State) : (s.countDrop).latched = s.latched := rfl
@[simp] theorem countDrop_mem (s : State) : (s.countDrop).mem = s.mem := rfl
@[simp] theorem countDrop_tim (s : State) : (s.countDrop).tim = s.tim := rfl
@[simp] theorem countDrop_acq (s : State) : (s.countDrop).acq = s.acq := rfl
@[simp] theorem countDrop_host (s : State) : (s.countDrop).host = s.host := rfl
@[simp] theorem countDrop_trip (s : State) : (s.countDrop).trip = s.trip := rfl
@[simp] theorem countDrop_cfg (s : State) : (s.countDrop).cfg = s.cfg := rfl
@[simp] theorem countDrop_chain (s : State) : (s.countDrop).chain = s.chain := rfl
@[simp] theorem countDrop_prot (s : State) : (s.countDrop).prot = s.prot := rfl
@[simp] theorem countDrop_pwr (s : State) : (s.countDrop).pwr = s.pwr := rfl
@[simp] theorem countDrop_cap (s : State) : (s.countDrop).cap = s.cap := rfl
@[simp] theorem countDrop_hdl (s : State) : (s.countDrop).hdl = s.hdl := rfl
@[simp] theorem countDrop_peal (s : State) : (s.countDrop).peal = s.peal := rfl
@[simp] theorem countDrop_spn (s : State) : (s.countDrop).spn = s.spn := rfl
@[simp] theorem countDrop_net (s : State) : (s.countDrop).net = s.net := rfl
@[simp] theorem countDrop_hnk (s : State) : (s.countDrop).hnk = s.hnk := rfl
@[simp] theorem countDrop_ply (s : State) : (s.countDrop).ply = s.ply := rfl
@[simp] theorem countDrop_alm (s : State) : (s.countDrop).alm = s.alm := rfl
@[simp] theorem countDrop_keep (s : State) : (s.countDrop).keep = s.keep := rfl
@[simp] theorem countDrop_sec (s : State) : (s.countDrop).sec = s.sec := rfl

/-! `latch` changes `latched` only. -/

@[simp] theorem latch_pending (s : State) (a : Nat) : (s.latch a).pending = s.pending := rfl
@[simp] theorem latch_freeSeq (s : State) (a : Nat) : (s.latch a).freeSeq = s.freeSeq := rfl
@[simp] theorem latch_regs (s : State) (a : Nat) : (s.latch a).regs = s.regs := rfl
@[simp] theorem latch_mem (s : State) (a : Nat) : (s.latch a).mem = s.mem := rfl
@[simp] theorem latch_tim (s : State) (a : Nat) : (s.latch a).tim = s.tim := rfl
@[simp] theorem latch_acq (s : State) (a : Nat) : (s.latch a).acq = s.acq := rfl
@[simp] theorem latch_host (s : State) (a : Nat) : (s.latch a).host = s.host := rfl
@[simp] theorem latch_trip (s : State) (a : Nat) : (s.latch a).trip = s.trip := rfl
@[simp] theorem latch_cfg (s : State) (a : Nat) : (s.latch a).cfg = s.cfg := rfl
@[simp] theorem latch_chain (s : State) (a : Nat) : (s.latch a).chain = s.chain := rfl
@[simp] theorem latch_prot (s : State) (a : Nat) : (s.latch a).prot = s.prot := rfl
@[simp] theorem latch_pwr (s : State) (a : Nat) : (s.latch a).pwr = s.pwr := rfl
@[simp] theorem latch_cap (s : State) (a : Nat) : (s.latch a).cap = s.cap := rfl
@[simp] theorem latch_hdl (s : State) (a : Nat) : (s.latch a).hdl = s.hdl := rfl
@[simp] theorem latch_peal (s : State) (a : Nat) : (s.latch a).peal = s.peal := rfl
@[simp] theorem latch_spn (s : State) (a : Nat) : (s.latch a).spn = s.spn := rfl
@[simp] theorem latch_net (s : State) (a : Nat) : (s.latch a).net = s.net := rfl
@[simp] theorem latch_hnk (s : State) (a : Nat) : (s.latch a).hnk = s.hnk := rfl
@[simp] theorem latch_ply (s : State) (a : Nat) : (s.latch a).ply = s.ply := rfl
@[simp] theorem latch_alm (s : State) (a : Nat) : (s.latch a).alm = s.alm := rfl
@[simp] theorem latch_keep (s : State) (a : Nat) : (s.latch a).keep = s.keep := rfl
@[simp] theorem latch_sec (s : State) (a : Nat) : (s.latch a).sec = s.sec := rfl

/-! `setOctet` changes `mem` only. -/

@[simp] theorem setOctet_pending (s : State) (a : Nat) (b : Byte) : (s.setOctet a b).pending = s.pending := rfl
@[simp] theorem setOctet_freeSeq (s : State) (a : Nat) (b : Byte) : (s.setOctet a b).freeSeq = s.freeSeq := rfl
@[simp] theorem setOctet_regs (s : State) (a : Nat) (b : Byte) : (s.setOctet a b).regs = s.regs := rfl
@[simp] theorem setOctet_latched (s : State) (a : Nat) (b : Byte) : (s.setOctet a b).latched = s.latched := rfl
@[simp] theorem setOctet_tim (s : State) (a : Nat) (b : Byte) : (s.setOctet a b).tim = s.tim := rfl
@[simp] theorem setOctet_acq (s : State) (a : Nat) (b : Byte) : (s.setOctet a b).acq = s.acq := rfl
@[simp] theorem setOctet_host (s : State) (a : Nat) (b : Byte) : (s.setOctet a b).host = s.host := rfl
@[simp] theorem setOctet_trip (s : State) (a : Nat) (b : Byte) : (s.setOctet a b).trip = s.trip := rfl
@[simp] theorem setOctet_cfg (s : State) (a : Nat) (b : Byte) : (s.setOctet a b).cfg = s.cfg := rfl
@[simp] theorem setOctet_chain (s : State) (a : Nat) (b : Byte) : (s.setOctet a b).chain = s.chain := rfl
@[simp] theorem setOctet_prot (s : State) (a : Nat) (b : Byte) : (s.setOctet a b).prot = s.prot := rfl
@[simp] theorem setOctet_pwr (s : State) (a : Nat) (b : Byte) : (s.setOctet a b).pwr = s.pwr := rfl
@[simp] theorem setOctet_cap (s : State) (a : Nat) (b : Byte) : (s.setOctet a b).cap = s.cap := rfl
@[simp] theorem setOctet_hdl (s : State) (a : Nat) (b : Byte) : (s.setOctet a b).hdl = s.hdl := rfl
@[simp] theorem setOctet_peal (s : State) (a : Nat) (b : Byte) : (s.setOctet a b).peal = s.peal := rfl
@[simp] theorem setOctet_spn (s : State) (a : Nat) (b : Byte) : (s.setOctet a b).spn = s.spn := rfl
@[simp] theorem setOctet_net (s : State) (a : Nat) (b : Byte) : (s.setOctet a b).net = s.net := rfl
@[simp] theorem setOctet_hnk (s : State) (a : Nat) (b : Byte) : (s.setOctet a b).hnk = s.hnk := rfl
@[simp] theorem setOctet_ply (s : State) (a : Nat) (b : Byte) : (s.setOctet a b).ply = s.ply := rfl
@[simp] theorem setOctet_alm (s : State) (a : Nat) (b : Byte) : (s.setOctet a b).alm = s.alm := rfl
@[simp] theorem setOctet_keep (s : State) (a : Nat) (b : Byte) : (s.setOctet a b).keep = s.keep := rfl
@[simp] theorem setOctet_sec (s : State) (a : Nat) (b : Byte) : (s.setOctet a b).sec = s.sec := rfl

/-! `setLane` changes `acq` only. -/

@[simp] theorem setLane_pending (s : State) (x : Nat) (l : LaneSt) : (s.setLane x l).pending = s.pending := rfl
@[simp] theorem setLane_freeSeq (s : State) (x : Nat) (l : LaneSt) : (s.setLane x l).freeSeq = s.freeSeq := rfl
@[simp] theorem setLane_regs (s : State) (x : Nat) (l : LaneSt) : (s.setLane x l).regs = s.regs := rfl
@[simp] theorem setLane_latched (s : State) (x : Nat) (l : LaneSt) : (s.setLane x l).latched = s.latched := rfl
@[simp] theorem setLane_mem (s : State) (x : Nat) (l : LaneSt) : (s.setLane x l).mem = s.mem := rfl
@[simp] theorem setLane_tim (s : State) (x : Nat) (l : LaneSt) : (s.setLane x l).tim = s.tim := rfl
@[simp] theorem setLane_host (s : State) (x : Nat) (l : LaneSt) : (s.setLane x l).host = s.host := rfl
@[simp] theorem setLane_trip (s : State) (x : Nat) (l : LaneSt) : (s.setLane x l).trip = s.trip := rfl
@[simp] theorem setLane_cfg (s : State) (x : Nat) (l : LaneSt) : (s.setLane x l).cfg = s.cfg := rfl
@[simp] theorem setLane_chain (s : State) (x : Nat) (l : LaneSt) : (s.setLane x l).chain = s.chain := rfl
@[simp] theorem setLane_prot (s : State) (x : Nat) (l : LaneSt) : (s.setLane x l).prot = s.prot := rfl
@[simp] theorem setLane_pwr (s : State) (x : Nat) (l : LaneSt) : (s.setLane x l).pwr = s.pwr := rfl
@[simp] theorem setLane_cap (s : State) (x : Nat) (l : LaneSt) : (s.setLane x l).cap = s.cap := rfl
@[simp] theorem setLane_hdl (s : State) (x : Nat) (l : LaneSt) : (s.setLane x l).hdl = s.hdl := rfl
@[simp] theorem setLane_peal (s : State) (x : Nat) (l : LaneSt) : (s.setLane x l).peal = s.peal := rfl
@[simp] theorem setLane_spn (s : State) (x : Nat) (l : LaneSt) : (s.setLane x l).spn = s.spn := rfl
@[simp] theorem setLane_net (s : State) (x : Nat) (l : LaneSt) : (s.setLane x l).net = s.net := rfl
@[simp] theorem setLane_hnk (s : State) (x : Nat) (l : LaneSt) : (s.setLane x l).hnk = s.hnk := rfl
@[simp] theorem setLane_ply (s : State) (x : Nat) (l : LaneSt) : (s.setLane x l).ply = s.ply := rfl
@[simp] theorem setLane_alm (s : State) (x : Nat) (l : LaneSt) : (s.setLane x l).alm = s.alm := rfl
@[simp] theorem setLane_keep (s : State) (x : Nat) (l : LaneSt) : (s.setLane x l).keep = s.keep := rfl
@[simp] theorem setLane_sec (s : State) (x : Nat) (l : LaneSt) : (s.setLane x l).sec = s.sec := rfl

/-! `setSlice` changes `acq` only. -/

@[simp] theorem setSlice_pending (s : State) (k : Nat) (x : SliceSt) : (s.setSlice k x).pending = s.pending := rfl
@[simp] theorem setSlice_freeSeq (s : State) (k : Nat) (x : SliceSt) : (s.setSlice k x).freeSeq = s.freeSeq := rfl
@[simp] theorem setSlice_regs (s : State) (k : Nat) (x : SliceSt) : (s.setSlice k x).regs = s.regs := rfl
@[simp] theorem setSlice_latched (s : State) (k : Nat) (x : SliceSt) : (s.setSlice k x).latched = s.latched := rfl
@[simp] theorem setSlice_mem (s : State) (k : Nat) (x : SliceSt) : (s.setSlice k x).mem = s.mem := rfl
@[simp] theorem setSlice_tim (s : State) (k : Nat) (x : SliceSt) : (s.setSlice k x).tim = s.tim := rfl
@[simp] theorem setSlice_host (s : State) (k : Nat) (x : SliceSt) : (s.setSlice k x).host = s.host := rfl
@[simp] theorem setSlice_trip (s : State) (k : Nat) (x : SliceSt) : (s.setSlice k x).trip = s.trip := rfl
@[simp] theorem setSlice_cfg (s : State) (k : Nat) (x : SliceSt) : (s.setSlice k x).cfg = s.cfg := rfl
@[simp] theorem setSlice_chain (s : State) (k : Nat) (x : SliceSt) : (s.setSlice k x).chain = s.chain := rfl
@[simp] theorem setSlice_prot (s : State) (k : Nat) (x : SliceSt) : (s.setSlice k x).prot = s.prot := rfl
@[simp] theorem setSlice_pwr (s : State) (k : Nat) (x : SliceSt) : (s.setSlice k x).pwr = s.pwr := rfl
@[simp] theorem setSlice_cap (s : State) (k : Nat) (x : SliceSt) : (s.setSlice k x).cap = s.cap := rfl
@[simp] theorem setSlice_hdl (s : State) (k : Nat) (x : SliceSt) : (s.setSlice k x).hdl = s.hdl := rfl
@[simp] theorem setSlice_peal (s : State) (k : Nat) (x : SliceSt) : (s.setSlice k x).peal = s.peal := rfl
@[simp] theorem setSlice_spn (s : State) (k : Nat) (x : SliceSt) : (s.setSlice k x).spn = s.spn := rfl
@[simp] theorem setSlice_net (s : State) (k : Nat) (x : SliceSt) : (s.setSlice k x).net = s.net := rfl
@[simp] theorem setSlice_hnk (s : State) (k : Nat) (x : SliceSt) : (s.setSlice k x).hnk = s.hnk := rfl
@[simp] theorem setSlice_ply (s : State) (k : Nat) (x : SliceSt) : (s.setSlice k x).ply = s.ply := rfl
@[simp] theorem setSlice_alm (s : State) (k : Nat) (x : SliceSt) : (s.setSlice k x).alm = s.alm := rfl
@[simp] theorem setSlice_keep (s : State) (k : Nat) (x : SliceSt) : (s.setSlice k x).keep = s.keep := rfl
@[simp] theorem setSlice_sec (s : State) (k : Nat) (x : SliceSt) : (s.setSlice k x).sec = s.sec := rfl

/-! `setUse` changes `acq` only. -/

@[simp] theorem setUse_pending (s : State) (u : SpareUse) : (s.setUse u).pending = s.pending := rfl
@[simp] theorem setUse_freeSeq (s : State) (u : SpareUse) : (s.setUse u).freeSeq = s.freeSeq := rfl
@[simp] theorem setUse_regs (s : State) (u : SpareUse) : (s.setUse u).regs = s.regs := rfl
@[simp] theorem setUse_latched (s : State) (u : SpareUse) : (s.setUse u).latched = s.latched := rfl
@[simp] theorem setUse_mem (s : State) (u : SpareUse) : (s.setUse u).mem = s.mem := rfl
@[simp] theorem setUse_tim (s : State) (u : SpareUse) : (s.setUse u).tim = s.tim := rfl
@[simp] theorem setUse_host (s : State) (u : SpareUse) : (s.setUse u).host = s.host := rfl
@[simp] theorem setUse_trip (s : State) (u : SpareUse) : (s.setUse u).trip = s.trip := rfl
@[simp] theorem setUse_cfg (s : State) (u : SpareUse) : (s.setUse u).cfg = s.cfg := rfl
@[simp] theorem setUse_chain (s : State) (u : SpareUse) : (s.setUse u).chain = s.chain := rfl
@[simp] theorem setUse_prot (s : State) (u : SpareUse) : (s.setUse u).prot = s.prot := rfl
@[simp] theorem setUse_pwr (s : State) (u : SpareUse) : (s.setUse u).pwr = s.pwr := rfl
@[simp] theorem setUse_cap (s : State) (u : SpareUse) : (s.setUse u).cap = s.cap := rfl
@[simp] theorem setUse_hdl (s : State) (u : SpareUse) : (s.setUse u).hdl = s.hdl := rfl
@[simp] theorem setUse_peal (s : State) (u : SpareUse) : (s.setUse u).peal = s.peal := rfl
@[simp] theorem setUse_spn (s : State) (u : SpareUse) : (s.setUse u).spn = s.spn := rfl
@[simp] theorem setUse_net (s : State) (u : SpareUse) : (s.setUse u).net = s.net := rfl
@[simp] theorem setUse_hnk (s : State) (u : SpareUse) : (s.setUse u).hnk = s.hnk := rfl
@[simp] theorem setUse_ply (s : State) (u : SpareUse) : (s.setUse u).ply = s.ply := rfl
@[simp] theorem setUse_alm (s : State) (u : SpareUse) : (s.setUse u).alm = s.alm := rfl
@[simp] theorem setUse_keep (s : State) (u : SpareUse) : (s.setUse u).keep = s.keep := rfl
@[simp] theorem setUse_sec (s : State) (u : SpareUse) : (s.setUse u).sec = s.sec := rfl

/-! `setAlmPlan` changes `alm` only. -/

@[simp] theorem setAlmPlan_pending (s : State) (h : Nat) (p : AlmPlanSt) : (s.setAlmPlan h p).pending = s.pending := rfl
@[simp] theorem setAlmPlan_freeSeq (s : State) (h : Nat) (p : AlmPlanSt) : (s.setAlmPlan h p).freeSeq = s.freeSeq := rfl
@[simp] theorem setAlmPlan_regs (s : State) (h : Nat) (p : AlmPlanSt) : (s.setAlmPlan h p).regs = s.regs := rfl
@[simp] theorem setAlmPlan_latched (s : State) (h : Nat) (p : AlmPlanSt) : (s.setAlmPlan h p).latched = s.latched := rfl
@[simp] theorem setAlmPlan_mem (s : State) (h : Nat) (p : AlmPlanSt) : (s.setAlmPlan h p).mem = s.mem := rfl
@[simp] theorem setAlmPlan_tim (s : State) (h : Nat) (p : AlmPlanSt) : (s.setAlmPlan h p).tim = s.tim := rfl
@[simp] theorem setAlmPlan_acq (s : State) (h : Nat) (p : AlmPlanSt) : (s.setAlmPlan h p).acq = s.acq := rfl
@[simp] theorem setAlmPlan_host (s : State) (h : Nat) (p : AlmPlanSt) : (s.setAlmPlan h p).host = s.host := rfl
@[simp] theorem setAlmPlan_trip (s : State) (h : Nat) (p : AlmPlanSt) : (s.setAlmPlan h p).trip = s.trip := rfl
@[simp] theorem setAlmPlan_cfg (s : State) (h : Nat) (p : AlmPlanSt) : (s.setAlmPlan h p).cfg = s.cfg := rfl
@[simp] theorem setAlmPlan_chain (s : State) (h : Nat) (p : AlmPlanSt) : (s.setAlmPlan h p).chain = s.chain := rfl
@[simp] theorem setAlmPlan_prot (s : State) (h : Nat) (p : AlmPlanSt) : (s.setAlmPlan h p).prot = s.prot := rfl
@[simp] theorem setAlmPlan_pwr (s : State) (h : Nat) (p : AlmPlanSt) : (s.setAlmPlan h p).pwr = s.pwr := rfl
@[simp] theorem setAlmPlan_cap (s : State) (h : Nat) (p : AlmPlanSt) : (s.setAlmPlan h p).cap = s.cap := rfl
@[simp] theorem setAlmPlan_hdl (s : State) (h : Nat) (p : AlmPlanSt) : (s.setAlmPlan h p).hdl = s.hdl := rfl
@[simp] theorem setAlmPlan_peal (s : State) (h : Nat) (p : AlmPlanSt) : (s.setAlmPlan h p).peal = s.peal := rfl
@[simp] theorem setAlmPlan_spn (s : State) (h : Nat) (p : AlmPlanSt) : (s.setAlmPlan h p).spn = s.spn := rfl
@[simp] theorem setAlmPlan_net (s : State) (h : Nat) (p : AlmPlanSt) : (s.setAlmPlan h p).net = s.net := rfl
@[simp] theorem setAlmPlan_hnk (s : State) (h : Nat) (p : AlmPlanSt) : (s.setAlmPlan h p).hnk = s.hnk := rfl
@[simp] theorem setAlmPlan_ply (s : State) (h : Nat) (p : AlmPlanSt) : (s.setAlmPlan h p).ply = s.ply := rfl
@[simp] theorem setAlmPlan_keep (s : State) (h : Nat) (p : AlmPlanSt) : (s.setAlmPlan h p).keep = s.keep := rfl
@[simp] theorem setAlmPlan_sec (s : State) (h : Nat) (p : AlmPlanSt) : (s.setAlmPlan h p).sec = s.sec := rfl

/-! `setAlmTrk` changes `alm` only. -/

@[simp] theorem setAlmTrk_pending (s : State) (t : Nat) (p : AlmPlanSt) : (s.setAlmTrk t p).pending = s.pending := rfl
@[simp] theorem setAlmTrk_freeSeq (s : State) (t : Nat) (p : AlmPlanSt) : (s.setAlmTrk t p).freeSeq = s.freeSeq := rfl
@[simp] theorem setAlmTrk_regs (s : State) (t : Nat) (p : AlmPlanSt) : (s.setAlmTrk t p).regs = s.regs := rfl
@[simp] theorem setAlmTrk_latched (s : State) (t : Nat) (p : AlmPlanSt) : (s.setAlmTrk t p).latched = s.latched := rfl
@[simp] theorem setAlmTrk_mem (s : State) (t : Nat) (p : AlmPlanSt) : (s.setAlmTrk t p).mem = s.mem := rfl
@[simp] theorem setAlmTrk_tim (s : State) (t : Nat) (p : AlmPlanSt) : (s.setAlmTrk t p).tim = s.tim := rfl
@[simp] theorem setAlmTrk_acq (s : State) (t : Nat) (p : AlmPlanSt) : (s.setAlmTrk t p).acq = s.acq := rfl
@[simp] theorem setAlmTrk_host (s : State) (t : Nat) (p : AlmPlanSt) : (s.setAlmTrk t p).host = s.host := rfl
@[simp] theorem setAlmTrk_trip (s : State) (t : Nat) (p : AlmPlanSt) : (s.setAlmTrk t p).trip = s.trip := rfl
@[simp] theorem setAlmTrk_cfg (s : State) (t : Nat) (p : AlmPlanSt) : (s.setAlmTrk t p).cfg = s.cfg := rfl
@[simp] theorem setAlmTrk_chain (s : State) (t : Nat) (p : AlmPlanSt) : (s.setAlmTrk t p).chain = s.chain := rfl
@[simp] theorem setAlmTrk_prot (s : State) (t : Nat) (p : AlmPlanSt) : (s.setAlmTrk t p).prot = s.prot := rfl
@[simp] theorem setAlmTrk_pwr (s : State) (t : Nat) (p : AlmPlanSt) : (s.setAlmTrk t p).pwr = s.pwr := rfl
@[simp] theorem setAlmTrk_cap (s : State) (t : Nat) (p : AlmPlanSt) : (s.setAlmTrk t p).cap = s.cap := rfl
@[simp] theorem setAlmTrk_hdl (s : State) (t : Nat) (p : AlmPlanSt) : (s.setAlmTrk t p).hdl = s.hdl := rfl
@[simp] theorem setAlmTrk_peal (s : State) (t : Nat) (p : AlmPlanSt) : (s.setAlmTrk t p).peal = s.peal := rfl
@[simp] theorem setAlmTrk_spn (s : State) (t : Nat) (p : AlmPlanSt) : (s.setAlmTrk t p).spn = s.spn := rfl
@[simp] theorem setAlmTrk_net (s : State) (t : Nat) (p : AlmPlanSt) : (s.setAlmTrk t p).net = s.net := rfl
@[simp] theorem setAlmTrk_hnk (s : State) (t : Nat) (p : AlmPlanSt) : (s.setAlmTrk t p).hnk = s.hnk := rfl
@[simp] theorem setAlmTrk_ply (s : State) (t : Nat) (p : AlmPlanSt) : (s.setAlmTrk t p).ply = s.ply := rfl
@[simp] theorem setAlmTrk_keep (s : State) (t : Nat) (p : AlmPlanSt) : (s.setAlmTrk t p).keep = s.keep := rfl
@[simp] theorem setAlmTrk_sec (s : State) (t : Nat) (p : AlmPlanSt) : (s.setAlmTrk t p).sec = s.sec := rfl

/-! `note` changes `alm` only. -/

@[simp] theorem note_pending (s : State) (code : Nat) (ps : List Word) : (s.note code ps).pending = s.pending := rfl
@[simp] theorem note_freeSeq (s : State) (code : Nat) (ps : List Word) : (s.note code ps).freeSeq = s.freeSeq := rfl
@[simp] theorem note_regs (s : State) (code : Nat) (ps : List Word) : (s.note code ps).regs = s.regs := rfl
@[simp] theorem note_latched (s : State) (code : Nat) (ps : List Word) : (s.note code ps).latched = s.latched := rfl
@[simp] theorem note_mem (s : State) (code : Nat) (ps : List Word) : (s.note code ps).mem = s.mem := rfl
@[simp] theorem note_tim (s : State) (code : Nat) (ps : List Word) : (s.note code ps).tim = s.tim := rfl
@[simp] theorem note_acq (s : State) (code : Nat) (ps : List Word) : (s.note code ps).acq = s.acq := rfl
@[simp] theorem note_host (s : State) (code : Nat) (ps : List Word) : (s.note code ps).host = s.host := rfl
@[simp] theorem note_trip (s : State) (code : Nat) (ps : List Word) : (s.note code ps).trip = s.trip := rfl
@[simp] theorem note_cfg (s : State) (code : Nat) (ps : List Word) : (s.note code ps).cfg = s.cfg := rfl
@[simp] theorem note_chain (s : State) (code : Nat) (ps : List Word) : (s.note code ps).chain = s.chain := rfl
@[simp] theorem note_prot (s : State) (code : Nat) (ps : List Word) : (s.note code ps).prot = s.prot := rfl
@[simp] theorem note_pwr (s : State) (code : Nat) (ps : List Word) : (s.note code ps).pwr = s.pwr := rfl
@[simp] theorem note_cap (s : State) (code : Nat) (ps : List Word) : (s.note code ps).cap = s.cap := rfl
@[simp] theorem note_hdl (s : State) (code : Nat) (ps : List Word) : (s.note code ps).hdl = s.hdl := rfl
@[simp] theorem note_peal (s : State) (code : Nat) (ps : List Word) : (s.note code ps).peal = s.peal := rfl
@[simp] theorem note_spn (s : State) (code : Nat) (ps : List Word) : (s.note code ps).spn = s.spn := rfl
@[simp] theorem note_net (s : State) (code : Nat) (ps : List Word) : (s.note code ps).net = s.net := rfl
@[simp] theorem note_hnk (s : State) (code : Nat) (ps : List Word) : (s.note code ps).hnk = s.hnk := rfl
@[simp] theorem note_ply (s : State) (code : Nat) (ps : List Word) : (s.note code ps).ply = s.ply := rfl
@[simp] theorem note_keep (s : State) (code : Nat) (ps : List Word) : (s.note code ps).keep = s.keep := rfl
@[simp] theorem note_sec (s : State) (code : Nat) (ps : List Word) : (s.note code ps).sec = s.sec := rfl

/-! `setBayChain` changes `chain` only. -/

@[simp] theorem setBayChain_pending (s : State) (b : Nat) (c : BayChain) : (s.setBayChain b c).pending = s.pending := rfl
@[simp] theorem setBayChain_freeSeq (s : State) (b : Nat) (c : BayChain) : (s.setBayChain b c).freeSeq = s.freeSeq := rfl
@[simp] theorem setBayChain_regs (s : State) (b : Nat) (c : BayChain) : (s.setBayChain b c).regs = s.regs := rfl
@[simp] theorem setBayChain_latched (s : State) (b : Nat) (c : BayChain) : (s.setBayChain b c).latched = s.latched := rfl
@[simp] theorem setBayChain_mem (s : State) (b : Nat) (c : BayChain) : (s.setBayChain b c).mem = s.mem := rfl
@[simp] theorem setBayChain_tim (s : State) (b : Nat) (c : BayChain) : (s.setBayChain b c).tim = s.tim := rfl
@[simp] theorem setBayChain_acq (s : State) (b : Nat) (c : BayChain) : (s.setBayChain b c).acq = s.acq := rfl
@[simp] theorem setBayChain_host (s : State) (b : Nat) (c : BayChain) : (s.setBayChain b c).host = s.host := rfl
@[simp] theorem setBayChain_trip (s : State) (b : Nat) (c : BayChain) : (s.setBayChain b c).trip = s.trip := rfl
@[simp] theorem setBayChain_cfg (s : State) (b : Nat) (c : BayChain) : (s.setBayChain b c).cfg = s.cfg := rfl
@[simp] theorem setBayChain_prot (s : State) (b : Nat) (c : BayChain) : (s.setBayChain b c).prot = s.prot := rfl
@[simp] theorem setBayChain_pwr (s : State) (b : Nat) (c : BayChain) : (s.setBayChain b c).pwr = s.pwr := rfl
@[simp] theorem setBayChain_cap (s : State) (b : Nat) (c : BayChain) : (s.setBayChain b c).cap = s.cap := rfl
@[simp] theorem setBayChain_hdl (s : State) (b : Nat) (c : BayChain) : (s.setBayChain b c).hdl = s.hdl := rfl
@[simp] theorem setBayChain_peal (s : State) (b : Nat) (c : BayChain) : (s.setBayChain b c).peal = s.peal := rfl
@[simp] theorem setBayChain_spn (s : State) (b : Nat) (c : BayChain) : (s.setBayChain b c).spn = s.spn := rfl
@[simp] theorem setBayChain_net (s : State) (b : Nat) (c : BayChain) : (s.setBayChain b c).net = s.net := rfl
@[simp] theorem setBayChain_hnk (s : State) (b : Nat) (c : BayChain) : (s.setBayChain b c).hnk = s.hnk := rfl
@[simp] theorem setBayChain_ply (s : State) (b : Nat) (c : BayChain) : (s.setBayChain b c).ply = s.ply := rfl
@[simp] theorem setBayChain_alm (s : State) (b : Nat) (c : BayChain) : (s.setBayChain b c).alm = s.alm := rfl
@[simp] theorem setBayChain_keep (s : State) (b : Nat) (c : BayChain) : (s.setBayChain b c).keep = s.keep := rfl
@[simp] theorem setBayChain_sec (s : State) (b : Nat) (c : BayChain) : (s.setBayChain b c).sec = s.sec := rfl

/-! `setInst` changes `prot` only. -/

@[simp] theorem setInst_pending (s : State) (x : Nat) (i : InstSt) : (s.setInst x i).pending = s.pending := rfl
@[simp] theorem setInst_freeSeq (s : State) (x : Nat) (i : InstSt) : (s.setInst x i).freeSeq = s.freeSeq := rfl
@[simp] theorem setInst_regs (s : State) (x : Nat) (i : InstSt) : (s.setInst x i).regs = s.regs := rfl
@[simp] theorem setInst_latched (s : State) (x : Nat) (i : InstSt) : (s.setInst x i).latched = s.latched := rfl
@[simp] theorem setInst_mem (s : State) (x : Nat) (i : InstSt) : (s.setInst x i).mem = s.mem := rfl
@[simp] theorem setInst_tim (s : State) (x : Nat) (i : InstSt) : (s.setInst x i).tim = s.tim := rfl
@[simp] theorem setInst_acq (s : State) (x : Nat) (i : InstSt) : (s.setInst x i).acq = s.acq := rfl
@[simp] theorem setInst_host (s : State) (x : Nat) (i : InstSt) : (s.setInst x i).host = s.host := rfl
@[simp] theorem setInst_trip (s : State) (x : Nat) (i : InstSt) : (s.setInst x i).trip = s.trip := rfl
@[simp] theorem setInst_cfg (s : State) (x : Nat) (i : InstSt) : (s.setInst x i).cfg = s.cfg := rfl
@[simp] theorem setInst_chain (s : State) (x : Nat) (i : InstSt) : (s.setInst x i).chain = s.chain := rfl
@[simp] theorem setInst_pwr (s : State) (x : Nat) (i : InstSt) : (s.setInst x i).pwr = s.pwr := rfl
@[simp] theorem setInst_cap (s : State) (x : Nat) (i : InstSt) : (s.setInst x i).cap = s.cap := rfl
@[simp] theorem setInst_hdl (s : State) (x : Nat) (i : InstSt) : (s.setInst x i).hdl = s.hdl := rfl
@[simp] theorem setInst_peal (s : State) (x : Nat) (i : InstSt) : (s.setInst x i).peal = s.peal := rfl
@[simp] theorem setInst_spn (s : State) (x : Nat) (i : InstSt) : (s.setInst x i).spn = s.spn := rfl
@[simp] theorem setInst_net (s : State) (x : Nat) (i : InstSt) : (s.setInst x i).net = s.net := rfl
@[simp] theorem setInst_hnk (s : State) (x : Nat) (i : InstSt) : (s.setInst x i).hnk = s.hnk := rfl
@[simp] theorem setInst_ply (s : State) (x : Nat) (i : InstSt) : (s.setInst x i).ply = s.ply := rfl
@[simp] theorem setInst_alm (s : State) (x : Nat) (i : InstSt) : (s.setInst x i).alm = s.alm := rfl
@[simp] theorem setInst_keep (s : State) (x : Nat) (i : InstSt) : (s.setInst x i).keep = s.keep := rfl
@[simp] theorem setInst_sec (s : State) (x : Nat) (i : InstSt) : (s.setInst x i).sec = s.sec := rfl

/-! `setWaveInst` changes `prot` only. -/

@[simp] theorem setWaveInst_pending (s : State) (x : Nat) (w : WaveInst) : (s.setWaveInst x w).pending = s.pending := rfl
@[simp] theorem setWaveInst_freeSeq (s : State) (x : Nat) (w : WaveInst) : (s.setWaveInst x w).freeSeq = s.freeSeq := rfl
@[simp] theorem setWaveInst_regs (s : State) (x : Nat) (w : WaveInst) : (s.setWaveInst x w).regs = s.regs := rfl
@[simp] theorem setWaveInst_latched (s : State) (x : Nat) (w : WaveInst) : (s.setWaveInst x w).latched = s.latched := rfl
@[simp] theorem setWaveInst_mem (s : State) (x : Nat) (w : WaveInst) : (s.setWaveInst x w).mem = s.mem := rfl
@[simp] theorem setWaveInst_tim (s : State) (x : Nat) (w : WaveInst) : (s.setWaveInst x w).tim = s.tim := rfl
@[simp] theorem setWaveInst_acq (s : State) (x : Nat) (w : WaveInst) : (s.setWaveInst x w).acq = s.acq := rfl
@[simp] theorem setWaveInst_host (s : State) (x : Nat) (w : WaveInst) : (s.setWaveInst x w).host = s.host := rfl
@[simp] theorem setWaveInst_trip (s : State) (x : Nat) (w : WaveInst) : (s.setWaveInst x w).trip = s.trip := rfl
@[simp] theorem setWaveInst_cfg (s : State) (x : Nat) (w : WaveInst) : (s.setWaveInst x w).cfg = s.cfg := rfl
@[simp] theorem setWaveInst_chain (s : State) (x : Nat) (w : WaveInst) : (s.setWaveInst x w).chain = s.chain := rfl
@[simp] theorem setWaveInst_pwr (s : State) (x : Nat) (w : WaveInst) : (s.setWaveInst x w).pwr = s.pwr := rfl
@[simp] theorem setWaveInst_cap (s : State) (x : Nat) (w : WaveInst) : (s.setWaveInst x w).cap = s.cap := rfl
@[simp] theorem setWaveInst_hdl (s : State) (x : Nat) (w : WaveInst) : (s.setWaveInst x w).hdl = s.hdl := rfl
@[simp] theorem setWaveInst_peal (s : State) (x : Nat) (w : WaveInst) : (s.setWaveInst x w).peal = s.peal := rfl
@[simp] theorem setWaveInst_spn (s : State) (x : Nat) (w : WaveInst) : (s.setWaveInst x w).spn = s.spn := rfl
@[simp] theorem setWaveInst_net (s : State) (x : Nat) (w : WaveInst) : (s.setWaveInst x w).net = s.net := rfl
@[simp] theorem setWaveInst_hnk (s : State) (x : Nat) (w : WaveInst) : (s.setWaveInst x w).hnk = s.hnk := rfl
@[simp] theorem setWaveInst_ply (s : State) (x : Nat) (w : WaveInst) : (s.setWaveInst x w).ply = s.ply := rfl
@[simp] theorem setWaveInst_alm (s : State) (x : Nat) (w : WaveInst) : (s.setWaveInst x w).alm = s.alm := rfl
@[simp] theorem setWaveInst_keep (s : State) (x : Nat) (w : WaveInst) : (s.setWaveInst x w).keep = s.keep := rfl
@[simp] theorem setWaveInst_sec (s : State) (x : Nat) (w : WaveInst) : (s.setWaveInst x w).sec = s.sec := rfl

/-! `setBayProt` changes `prot` only. -/

@[simp] theorem setBayProt_pending (s : State) (b : Nat) (p : BayProt) : (s.setBayProt b p).pending = s.pending := rfl
@[simp] theorem setBayProt_freeSeq (s : State) (b : Nat) (p : BayProt) : (s.setBayProt b p).freeSeq = s.freeSeq := rfl
@[simp] theorem setBayProt_regs (s : State) (b : Nat) (p : BayProt) : (s.setBayProt b p).regs = s.regs := rfl
@[simp] theorem setBayProt_latched (s : State) (b : Nat) (p : BayProt) : (s.setBayProt b p).latched = s.latched := rfl
@[simp] theorem setBayProt_mem (s : State) (b : Nat) (p : BayProt) : (s.setBayProt b p).mem = s.mem := rfl
@[simp] theorem setBayProt_tim (s : State) (b : Nat) (p : BayProt) : (s.setBayProt b p).tim = s.tim := rfl
@[simp] theorem setBayProt_acq (s : State) (b : Nat) (p : BayProt) : (s.setBayProt b p).acq = s.acq := rfl
@[simp] theorem setBayProt_host (s : State) (b : Nat) (p : BayProt) : (s.setBayProt b p).host = s.host := rfl
@[simp] theorem setBayProt_trip (s : State) (b : Nat) (p : BayProt) : (s.setBayProt b p).trip = s.trip := rfl
@[simp] theorem setBayProt_cfg (s : State) (b : Nat) (p : BayProt) : (s.setBayProt b p).cfg = s.cfg := rfl
@[simp] theorem setBayProt_chain (s : State) (b : Nat) (p : BayProt) : (s.setBayProt b p).chain = s.chain := rfl
@[simp] theorem setBayProt_pwr (s : State) (b : Nat) (p : BayProt) : (s.setBayProt b p).pwr = s.pwr := rfl
@[simp] theorem setBayProt_cap (s : State) (b : Nat) (p : BayProt) : (s.setBayProt b p).cap = s.cap := rfl
@[simp] theorem setBayProt_hdl (s : State) (b : Nat) (p : BayProt) : (s.setBayProt b p).hdl = s.hdl := rfl
@[simp] theorem setBayProt_peal (s : State) (b : Nat) (p : BayProt) : (s.setBayProt b p).peal = s.peal := rfl
@[simp] theorem setBayProt_spn (s : State) (b : Nat) (p : BayProt) : (s.setBayProt b p).spn = s.spn := rfl
@[simp] theorem setBayProt_net (s : State) (b : Nat) (p : BayProt) : (s.setBayProt b p).net = s.net := rfl
@[simp] theorem setBayProt_hnk (s : State) (b : Nat) (p : BayProt) : (s.setBayProt b p).hnk = s.hnk := rfl
@[simp] theorem setBayProt_ply (s : State) (b : Nat) (p : BayProt) : (s.setBayProt b p).ply = s.ply := rfl
@[simp] theorem setBayProt_alm (s : State) (b : Nat) (p : BayProt) : (s.setBayProt b p).alm = s.alm := rfl
@[simp] theorem setBayProt_keep (s : State) (b : Nat) (p : BayProt) : (s.setBayProt b p).keep = s.keep := rfl
@[simp] theorem setBayProt_sec (s : State) (b : Nat) (p : BayProt) : (s.setBayProt b p).sec = s.sec := rfl

/-! `setPub` changes `net` only. -/

@[simp] theorem setPub_pending (s : State) (g : Nat) (p : PubSt) : (s.setPub g p).pending = s.pending := rfl
@[simp] theorem setPub_freeSeq (s : State) (g : Nat) (p : PubSt) : (s.setPub g p).freeSeq = s.freeSeq := rfl
@[simp] theorem setPub_regs (s : State) (g : Nat) (p : PubSt) : (s.setPub g p).regs = s.regs := rfl
@[simp] theorem setPub_latched (s : State) (g : Nat) (p : PubSt) : (s.setPub g p).latched = s.latched := rfl
@[simp] theorem setPub_mem (s : State) (g : Nat) (p : PubSt) : (s.setPub g p).mem = s.mem := rfl
@[simp] theorem setPub_tim (s : State) (g : Nat) (p : PubSt) : (s.setPub g p).tim = s.tim := rfl
@[simp] theorem setPub_acq (s : State) (g : Nat) (p : PubSt) : (s.setPub g p).acq = s.acq := rfl
@[simp] theorem setPub_host (s : State) (g : Nat) (p : PubSt) : (s.setPub g p).host = s.host := rfl
@[simp] theorem setPub_trip (s : State) (g : Nat) (p : PubSt) : (s.setPub g p).trip = s.trip := rfl
@[simp] theorem setPub_cfg (s : State) (g : Nat) (p : PubSt) : (s.setPub g p).cfg = s.cfg := rfl
@[simp] theorem setPub_chain (s : State) (g : Nat) (p : PubSt) : (s.setPub g p).chain = s.chain := rfl
@[simp] theorem setPub_prot (s : State) (g : Nat) (p : PubSt) : (s.setPub g p).prot = s.prot := rfl
@[simp] theorem setPub_pwr (s : State) (g : Nat) (p : PubSt) : (s.setPub g p).pwr = s.pwr := rfl
@[simp] theorem setPub_cap (s : State) (g : Nat) (p : PubSt) : (s.setPub g p).cap = s.cap := rfl
@[simp] theorem setPub_hdl (s : State) (g : Nat) (p : PubSt) : (s.setPub g p).hdl = s.hdl := rfl
@[simp] theorem setPub_peal (s : State) (g : Nat) (p : PubSt) : (s.setPub g p).peal = s.peal := rfl
@[simp] theorem setPub_spn (s : State) (g : Nat) (p : PubSt) : (s.setPub g p).spn = s.spn := rfl
@[simp] theorem setPub_hnk (s : State) (g : Nat) (p : PubSt) : (s.setPub g p).hnk = s.hnk := rfl
@[simp] theorem setPub_ply (s : State) (g : Nat) (p : PubSt) : (s.setPub g p).ply = s.ply := rfl
@[simp] theorem setPub_alm (s : State) (g : Nat) (p : PubSt) : (s.setPub g p).alm = s.alm := rfl
@[simp] theorem setPub_keep (s : State) (g : Nat) (p : PubSt) : (s.setPub g p).keep = s.keep := rfl
@[simp] theorem setPub_sec (s : State) (g : Nat) (p : PubSt) : (s.setPub g p).sec = s.sec := rfl

/-! `setSub` changes `net` only. -/

@[simp] theorem setSub_pending (s : State) (n : Nat) (x : SubSt) : (s.setSub n x).pending = s.pending := rfl
@[simp] theorem setSub_freeSeq (s : State) (n : Nat) (x : SubSt) : (s.setSub n x).freeSeq = s.freeSeq := rfl
@[simp] theorem setSub_regs (s : State) (n : Nat) (x : SubSt) : (s.setSub n x).regs = s.regs := rfl
@[simp] theorem setSub_latched (s : State) (n : Nat) (x : SubSt) : (s.setSub n x).latched = s.latched := rfl
@[simp] theorem setSub_mem (s : State) (n : Nat) (x : SubSt) : (s.setSub n x).mem = s.mem := rfl
@[simp] theorem setSub_tim (s : State) (n : Nat) (x : SubSt) : (s.setSub n x).tim = s.tim := rfl
@[simp] theorem setSub_acq (s : State) (n : Nat) (x : SubSt) : (s.setSub n x).acq = s.acq := rfl
@[simp] theorem setSub_host (s : State) (n : Nat) (x : SubSt) : (s.setSub n x).host = s.host := rfl
@[simp] theorem setSub_trip (s : State) (n : Nat) (x : SubSt) : (s.setSub n x).trip = s.trip := rfl
@[simp] theorem setSub_cfg (s : State) (n : Nat) (x : SubSt) : (s.setSub n x).cfg = s.cfg := rfl
@[simp] theorem setSub_chain (s : State) (n : Nat) (x : SubSt) : (s.setSub n x).chain = s.chain := rfl
@[simp] theorem setSub_prot (s : State) (n : Nat) (x : SubSt) : (s.setSub n x).prot = s.prot := rfl
@[simp] theorem setSub_pwr (s : State) (n : Nat) (x : SubSt) : (s.setSub n x).pwr = s.pwr := rfl
@[simp] theorem setSub_cap (s : State) (n : Nat) (x : SubSt) : (s.setSub n x).cap = s.cap := rfl
@[simp] theorem setSub_hdl (s : State) (n : Nat) (x : SubSt) : (s.setSub n x).hdl = s.hdl := rfl
@[simp] theorem setSub_peal (s : State) (n : Nat) (x : SubSt) : (s.setSub n x).peal = s.peal := rfl
@[simp] theorem setSub_spn (s : State) (n : Nat) (x : SubSt) : (s.setSub n x).spn = s.spn := rfl
@[simp] theorem setSub_hnk (s : State) (n : Nat) (x : SubSt) : (s.setSub n x).hnk = s.hnk := rfl
@[simp] theorem setSub_ply (s : State) (n : Nat) (x : SubSt) : (s.setSub n x).ply = s.ply := rfl
@[simp] theorem setSub_alm (s : State) (n : Nat) (x : SubSt) : (s.setSub n x).alm = s.alm := rfl
@[simp] theorem setSub_keep (s : State) (n : Nat) (x : SubSt) : (s.setSub n x).keep = s.keep := rfl
@[simp] theorem setSub_sec (s : State) (n : Nat) (x : SubSt) : (s.setSub n x).sec = s.sec := rfl

/-! `setSvs` changes `net` only. -/

@[simp] theorem setSvs_pending (s : State) (r : Nat) (x : SvSubSt) : (s.setSvs r x).pending = s.pending := rfl
@[simp] theorem setSvs_freeSeq (s : State) (r : Nat) (x : SvSubSt) : (s.setSvs r x).freeSeq = s.freeSeq := rfl
@[simp] theorem setSvs_regs (s : State) (r : Nat) (x : SvSubSt) : (s.setSvs r x).regs = s.regs := rfl
@[simp] theorem setSvs_latched (s : State) (r : Nat) (x : SvSubSt) : (s.setSvs r x).latched = s.latched := rfl
@[simp] theorem setSvs_mem (s : State) (r : Nat) (x : SvSubSt) : (s.setSvs r x).mem = s.mem := rfl
@[simp] theorem setSvs_tim (s : State) (r : Nat) (x : SvSubSt) : (s.setSvs r x).tim = s.tim := rfl
@[simp] theorem setSvs_acq (s : State) (r : Nat) (x : SvSubSt) : (s.setSvs r x).acq = s.acq := rfl
@[simp] theorem setSvs_host (s : State) (r : Nat) (x : SvSubSt) : (s.setSvs r x).host = s.host := rfl
@[simp] theorem setSvs_trip (s : State) (r : Nat) (x : SvSubSt) : (s.setSvs r x).trip = s.trip := rfl
@[simp] theorem setSvs_cfg (s : State) (r : Nat) (x : SvSubSt) : (s.setSvs r x).cfg = s.cfg := rfl
@[simp] theorem setSvs_chain (s : State) (r : Nat) (x : SvSubSt) : (s.setSvs r x).chain = s.chain := rfl
@[simp] theorem setSvs_prot (s : State) (r : Nat) (x : SvSubSt) : (s.setSvs r x).prot = s.prot := rfl
@[simp] theorem setSvs_pwr (s : State) (r : Nat) (x : SvSubSt) : (s.setSvs r x).pwr = s.pwr := rfl
@[simp] theorem setSvs_cap (s : State) (r : Nat) (x : SvSubSt) : (s.setSvs r x).cap = s.cap := rfl
@[simp] theorem setSvs_hdl (s : State) (r : Nat) (x : SvSubSt) : (s.setSvs r x).hdl = s.hdl := rfl
@[simp] theorem setSvs_peal (s : State) (r : Nat) (x : SvSubSt) : (s.setSvs r x).peal = s.peal := rfl
@[simp] theorem setSvs_spn (s : State) (r : Nat) (x : SvSubSt) : (s.setSvs r x).spn = s.spn := rfl
@[simp] theorem setSvs_hnk (s : State) (r : Nat) (x : SvSubSt) : (s.setSvs r x).hnk = s.hnk := rfl
@[simp] theorem setSvs_ply (s : State) (r : Nat) (x : SvSubSt) : (s.setSvs r x).ply = s.ply := rfl
@[simp] theorem setSvs_alm (s : State) (r : Nat) (x : SvSubSt) : (s.setSvs r x).alm = s.alm := rfl
@[simp] theorem setSvs_keep (s : State) (r : Nat) (x : SvSubSt) : (s.setSvs r x).keep = s.keep := rfl
@[simp] theorem setSvs_sec (s : State) (r : Nat) (x : SvSubSt) : (s.setSvs r x).sec = s.sec := rfl

/-! `setTxRing` changes `net` only. -/

@[simp] theorem setTxRing_pending (s : State) (q : Nat) (l : List TxFrame) : (s.setTxRing q l).pending = s.pending := rfl
@[simp] theorem setTxRing_freeSeq (s : State) (q : Nat) (l : List TxFrame) : (s.setTxRing q l).freeSeq = s.freeSeq := rfl
@[simp] theorem setTxRing_regs (s : State) (q : Nat) (l : List TxFrame) : (s.setTxRing q l).regs = s.regs := rfl
@[simp] theorem setTxRing_latched (s : State) (q : Nat) (l : List TxFrame) : (s.setTxRing q l).latched = s.latched := rfl
@[simp] theorem setTxRing_mem (s : State) (q : Nat) (l : List TxFrame) : (s.setTxRing q l).mem = s.mem := rfl
@[simp] theorem setTxRing_tim (s : State) (q : Nat) (l : List TxFrame) : (s.setTxRing q l).tim = s.tim := rfl
@[simp] theorem setTxRing_acq (s : State) (q : Nat) (l : List TxFrame) : (s.setTxRing q l).acq = s.acq := rfl
@[simp] theorem setTxRing_host (s : State) (q : Nat) (l : List TxFrame) : (s.setTxRing q l).host = s.host := rfl
@[simp] theorem setTxRing_trip (s : State) (q : Nat) (l : List TxFrame) : (s.setTxRing q l).trip = s.trip := rfl
@[simp] theorem setTxRing_cfg (s : State) (q : Nat) (l : List TxFrame) : (s.setTxRing q l).cfg = s.cfg := rfl
@[simp] theorem setTxRing_chain (s : State) (q : Nat) (l : List TxFrame) : (s.setTxRing q l).chain = s.chain := rfl
@[simp] theorem setTxRing_prot (s : State) (q : Nat) (l : List TxFrame) : (s.setTxRing q l).prot = s.prot := rfl
@[simp] theorem setTxRing_pwr (s : State) (q : Nat) (l : List TxFrame) : (s.setTxRing q l).pwr = s.pwr := rfl
@[simp] theorem setTxRing_cap (s : State) (q : Nat) (l : List TxFrame) : (s.setTxRing q l).cap = s.cap := rfl
@[simp] theorem setTxRing_hdl (s : State) (q : Nat) (l : List TxFrame) : (s.setTxRing q l).hdl = s.hdl := rfl
@[simp] theorem setTxRing_peal (s : State) (q : Nat) (l : List TxFrame) : (s.setTxRing q l).peal = s.peal := rfl
@[simp] theorem setTxRing_spn (s : State) (q : Nat) (l : List TxFrame) : (s.setTxRing q l).spn = s.spn := rfl
@[simp] theorem setTxRing_hnk (s : State) (q : Nat) (l : List TxFrame) : (s.setTxRing q l).hnk = s.hnk := rfl
@[simp] theorem setTxRing_ply (s : State) (q : Nat) (l : List TxFrame) : (s.setTxRing q l).ply = s.ply := rfl
@[simp] theorem setTxRing_alm (s : State) (q : Nat) (l : List TxFrame) : (s.setTxRing q l).alm = s.alm := rfl
@[simp] theorem setTxRing_keep (s : State) (q : Nat) (l : List TxFrame) : (s.setTxRing q l).keep = s.keep := rfl
@[simp] theorem setTxRing_sec (s : State) (q : Nat) (l : List TxFrame) : (s.setTxRing q l).sec = s.sec := rfl

/-! `setMod` changes `hnk` only. -/

@[simp] theorem setMod_pending (s : State) (m : Nat) (x : ModSt) : (s.setMod m x).pending = s.pending := rfl
@[simp] theorem setMod_freeSeq (s : State) (m : Nat) (x : ModSt) : (s.setMod m x).freeSeq = s.freeSeq := rfl
@[simp] theorem setMod_regs (s : State) (m : Nat) (x : ModSt) : (s.setMod m x).regs = s.regs := rfl
@[simp] theorem setMod_latched (s : State) (m : Nat) (x : ModSt) : (s.setMod m x).latched = s.latched := rfl
@[simp] theorem setMod_mem (s : State) (m : Nat) (x : ModSt) : (s.setMod m x).mem = s.mem := rfl
@[simp] theorem setMod_tim (s : State) (m : Nat) (x : ModSt) : (s.setMod m x).tim = s.tim := rfl
@[simp] theorem setMod_acq (s : State) (m : Nat) (x : ModSt) : (s.setMod m x).acq = s.acq := rfl
@[simp] theorem setMod_host (s : State) (m : Nat) (x : ModSt) : (s.setMod m x).host = s.host := rfl
@[simp] theorem setMod_trip (s : State) (m : Nat) (x : ModSt) : (s.setMod m x).trip = s.trip := rfl
@[simp] theorem setMod_cfg (s : State) (m : Nat) (x : ModSt) : (s.setMod m x).cfg = s.cfg := rfl
@[simp] theorem setMod_chain (s : State) (m : Nat) (x : ModSt) : (s.setMod m x).chain = s.chain := rfl
@[simp] theorem setMod_prot (s : State) (m : Nat) (x : ModSt) : (s.setMod m x).prot = s.prot := rfl
@[simp] theorem setMod_pwr (s : State) (m : Nat) (x : ModSt) : (s.setMod m x).pwr = s.pwr := rfl
@[simp] theorem setMod_cap (s : State) (m : Nat) (x : ModSt) : (s.setMod m x).cap = s.cap := rfl
@[simp] theorem setMod_hdl (s : State) (m : Nat) (x : ModSt) : (s.setMod m x).hdl = s.hdl := rfl
@[simp] theorem setMod_peal (s : State) (m : Nat) (x : ModSt) : (s.setMod m x).peal = s.peal := rfl
@[simp] theorem setMod_spn (s : State) (m : Nat) (x : ModSt) : (s.setMod m x).spn = s.spn := rfl
@[simp] theorem setMod_net (s : State) (m : Nat) (x : ModSt) : (s.setMod m x).net = s.net := rfl
@[simp] theorem setMod_ply (s : State) (m : Nat) (x : ModSt) : (s.setMod m x).ply = s.ply := rfl
@[simp] theorem setMod_alm (s : State) (m : Nat) (x : ModSt) : (s.setMod m x).alm = s.alm := rfl
@[simp] theorem setMod_keep (s : State) (m : Nat) (x : ModSt) : (s.setMod m x).keep = s.keep := rfl
@[simp] theorem setMod_sec (s : State) (m : Nat) (x : ModSt) : (s.setMod m x).sec = s.sec := rfl

/-! `setHeddle` changes `hdl` only. -/

@[simp] theorem setHeddle_pending (s : State) (h : Nat) (x : HeddleSt) : (s.setHeddle h x).pending = s.pending := rfl
@[simp] theorem setHeddle_freeSeq (s : State) (h : Nat) (x : HeddleSt) : (s.setHeddle h x).freeSeq = s.freeSeq := rfl
@[simp] theorem setHeddle_regs (s : State) (h : Nat) (x : HeddleSt) : (s.setHeddle h x).regs = s.regs := rfl
@[simp] theorem setHeddle_latched (s : State) (h : Nat) (x : HeddleSt) : (s.setHeddle h x).latched = s.latched := rfl
@[simp] theorem setHeddle_mem (s : State) (h : Nat) (x : HeddleSt) : (s.setHeddle h x).mem = s.mem := rfl
@[simp] theorem setHeddle_tim (s : State) (h : Nat) (x : HeddleSt) : (s.setHeddle h x).tim = s.tim := rfl
@[simp] theorem setHeddle_acq (s : State) (h : Nat) (x : HeddleSt) : (s.setHeddle h x).acq = s.acq := rfl
@[simp] theorem setHeddle_host (s : State) (h : Nat) (x : HeddleSt) : (s.setHeddle h x).host = s.host := rfl
@[simp] theorem setHeddle_trip (s : State) (h : Nat) (x : HeddleSt) : (s.setHeddle h x).trip = s.trip := rfl
@[simp] theorem setHeddle_cfg (s : State) (h : Nat) (x : HeddleSt) : (s.setHeddle h x).cfg = s.cfg := rfl
@[simp] theorem setHeddle_chain (s : State) (h : Nat) (x : HeddleSt) : (s.setHeddle h x).chain = s.chain := rfl
@[simp] theorem setHeddle_prot (s : State) (h : Nat) (x : HeddleSt) : (s.setHeddle h x).prot = s.prot := rfl
@[simp] theorem setHeddle_pwr (s : State) (h : Nat) (x : HeddleSt) : (s.setHeddle h x).pwr = s.pwr := rfl
@[simp] theorem setHeddle_cap (s : State) (h : Nat) (x : HeddleSt) : (s.setHeddle h x).cap = s.cap := rfl
@[simp] theorem setHeddle_peal (s : State) (h : Nat) (x : HeddleSt) : (s.setHeddle h x).peal = s.peal := rfl
@[simp] theorem setHeddle_spn (s : State) (h : Nat) (x : HeddleSt) : (s.setHeddle h x).spn = s.spn := rfl
@[simp] theorem setHeddle_net (s : State) (h : Nat) (x : HeddleSt) : (s.setHeddle h x).net = s.net := rfl
@[simp] theorem setHeddle_hnk (s : State) (h : Nat) (x : HeddleSt) : (s.setHeddle h x).hnk = s.hnk := rfl
@[simp] theorem setHeddle_ply (s : State) (h : Nat) (x : HeddleSt) : (s.setHeddle h x).ply = s.ply := rfl
@[simp] theorem setHeddle_alm (s : State) (h : Nat) (x : HeddleSt) : (s.setHeddle h x).alm = s.alm := rfl
@[simp] theorem setHeddle_keep (s : State) (h : Nat) (x : HeddleSt) : (s.setHeddle h x).keep = s.keep := rfl
@[simp] theorem setHeddle_sec (s : State) (h : Nat) (x : HeddleSt) : (s.setHeddle h x).sec = s.sec := rfl

/-! `putCtx` changes `hdl` only. -/

@[simp] theorem putCtx_pending (s : State) (h : Nat) (c : Ctx) : (s.putCtx h c).pending = s.pending := rfl
@[simp] theorem putCtx_freeSeq (s : State) (h : Nat) (c : Ctx) : (s.putCtx h c).freeSeq = s.freeSeq := rfl
@[simp] theorem putCtx_regs (s : State) (h : Nat) (c : Ctx) : (s.putCtx h c).regs = s.regs := rfl
@[simp] theorem putCtx_latched (s : State) (h : Nat) (c : Ctx) : (s.putCtx h c).latched = s.latched := rfl
@[simp] theorem putCtx_mem (s : State) (h : Nat) (c : Ctx) : (s.putCtx h c).mem = s.mem := rfl
@[simp] theorem putCtx_tim (s : State) (h : Nat) (c : Ctx) : (s.putCtx h c).tim = s.tim := rfl
@[simp] theorem putCtx_acq (s : State) (h : Nat) (c : Ctx) : (s.putCtx h c).acq = s.acq := rfl
@[simp] theorem putCtx_host (s : State) (h : Nat) (c : Ctx) : (s.putCtx h c).host = s.host := rfl
@[simp] theorem putCtx_trip (s : State) (h : Nat) (c : Ctx) : (s.putCtx h c).trip = s.trip := rfl
@[simp] theorem putCtx_cfg (s : State) (h : Nat) (c : Ctx) : (s.putCtx h c).cfg = s.cfg := rfl
@[simp] theorem putCtx_chain (s : State) (h : Nat) (c : Ctx) : (s.putCtx h c).chain = s.chain := rfl
@[simp] theorem putCtx_prot (s : State) (h : Nat) (c : Ctx) : (s.putCtx h c).prot = s.prot := rfl
@[simp] theorem putCtx_pwr (s : State) (h : Nat) (c : Ctx) : (s.putCtx h c).pwr = s.pwr := rfl
@[simp] theorem putCtx_cap (s : State) (h : Nat) (c : Ctx) : (s.putCtx h c).cap = s.cap := rfl
@[simp] theorem putCtx_peal (s : State) (h : Nat) (c : Ctx) : (s.putCtx h c).peal = s.peal := rfl
@[simp] theorem putCtx_spn (s : State) (h : Nat) (c : Ctx) : (s.putCtx h c).spn = s.spn := rfl
@[simp] theorem putCtx_net (s : State) (h : Nat) (c : Ctx) : (s.putCtx h c).net = s.net := rfl
@[simp] theorem putCtx_hnk (s : State) (h : Nat) (c : Ctx) : (s.putCtx h c).hnk = s.hnk := rfl
@[simp] theorem putCtx_ply (s : State) (h : Nat) (c : Ctx) : (s.putCtx h c).ply = s.ply := rfl
@[simp] theorem putCtx_alm (s : State) (h : Nat) (c : Ctx) : (s.putCtx h c).alm = s.alm := rfl
@[simp] theorem putCtx_keep (s : State) (h : Nat) (c : Ctx) : (s.putCtx h c).keep = s.keep := rfl
@[simp] theorem putCtx_sec (s : State) (h : Nat) (c : Ctx) : (s.putCtx h c).sec = s.sec := rfl

/-! `atApply` changes `hdl` only. -/

@[simp] theorem atApply_pending (s : State) (a : LogicAct) : (s.atApply a).pending = s.pending := rfl
@[simp] theorem atApply_freeSeq (s : State) (a : LogicAct) : (s.atApply a).freeSeq = s.freeSeq := rfl
@[simp] theorem atApply_regs (s : State) (a : LogicAct) : (s.atApply a).regs = s.regs := rfl
@[simp] theorem atApply_latched (s : State) (a : LogicAct) : (s.atApply a).latched = s.latched := rfl
@[simp] theorem atApply_mem (s : State) (a : LogicAct) : (s.atApply a).mem = s.mem := rfl
@[simp] theorem atApply_tim (s : State) (a : LogicAct) : (s.atApply a).tim = s.tim := rfl
@[simp] theorem atApply_acq (s : State) (a : LogicAct) : (s.atApply a).acq = s.acq := rfl
@[simp] theorem atApply_host (s : State) (a : LogicAct) : (s.atApply a).host = s.host := rfl
@[simp] theorem atApply_trip (s : State) (a : LogicAct) : (s.atApply a).trip = s.trip := rfl
@[simp] theorem atApply_cfg (s : State) (a : LogicAct) : (s.atApply a).cfg = s.cfg := rfl
@[simp] theorem atApply_chain (s : State) (a : LogicAct) : (s.atApply a).chain = s.chain := rfl
@[simp] theorem atApply_prot (s : State) (a : LogicAct) : (s.atApply a).prot = s.prot := rfl
@[simp] theorem atApply_pwr (s : State) (a : LogicAct) : (s.atApply a).pwr = s.pwr := rfl
@[simp] theorem atApply_cap (s : State) (a : LogicAct) : (s.atApply a).cap = s.cap := rfl
@[simp] theorem atApply_peal (s : State) (a : LogicAct) : (s.atApply a).peal = s.peal := rfl
@[simp] theorem atApply_spn (s : State) (a : LogicAct) : (s.atApply a).spn = s.spn := rfl
@[simp] theorem atApply_net (s : State) (a : LogicAct) : (s.atApply a).net = s.net := rfl
@[simp] theorem atApply_hnk (s : State) (a : LogicAct) : (s.atApply a).hnk = s.hnk := rfl
@[simp] theorem atApply_ply (s : State) (a : LogicAct) : (s.atApply a).ply = s.ply := rfl
@[simp] theorem atApply_alm (s : State) (a : LogicAct) : (s.atApply a).alm = s.alm := rfl
@[simp] theorem atApply_keep (s : State) (a : LogicAct) : (s.atApply a).keep = s.keep := rfl
@[simp] theorem atApply_sec (s : State) (a : LogicAct) : (s.atApply a).sec = s.sec := rfl

/-! `setLoopB` changes `spn` only. -/

@[simp] theorem setLoopB_pending (s : State) (b : Nat) (x : BlockSt) : (s.setLoopB b x).pending = s.pending := rfl
@[simp] theorem setLoopB_freeSeq (s : State) (b : Nat) (x : BlockSt) : (s.setLoopB b x).freeSeq = s.freeSeq := rfl
@[simp] theorem setLoopB_regs (s : State) (b : Nat) (x : BlockSt) : (s.setLoopB b x).regs = s.regs := rfl
@[simp] theorem setLoopB_latched (s : State) (b : Nat) (x : BlockSt) : (s.setLoopB b x).latched = s.latched := rfl
@[simp] theorem setLoopB_mem (s : State) (b : Nat) (x : BlockSt) : (s.setLoopB b x).mem = s.mem := rfl
@[simp] theorem setLoopB_tim (s : State) (b : Nat) (x : BlockSt) : (s.setLoopB b x).tim = s.tim := rfl
@[simp] theorem setLoopB_acq (s : State) (b : Nat) (x : BlockSt) : (s.setLoopB b x).acq = s.acq := rfl
@[simp] theorem setLoopB_host (s : State) (b : Nat) (x : BlockSt) : (s.setLoopB b x).host = s.host := rfl
@[simp] theorem setLoopB_trip (s : State) (b : Nat) (x : BlockSt) : (s.setLoopB b x).trip = s.trip := rfl
@[simp] theorem setLoopB_cfg (s : State) (b : Nat) (x : BlockSt) : (s.setLoopB b x).cfg = s.cfg := rfl
@[simp] theorem setLoopB_chain (s : State) (b : Nat) (x : BlockSt) : (s.setLoopB b x).chain = s.chain := rfl
@[simp] theorem setLoopB_prot (s : State) (b : Nat) (x : BlockSt) : (s.setLoopB b x).prot = s.prot := rfl
@[simp] theorem setLoopB_pwr (s : State) (b : Nat) (x : BlockSt) : (s.setLoopB b x).pwr = s.pwr := rfl
@[simp] theorem setLoopB_cap (s : State) (b : Nat) (x : BlockSt) : (s.setLoopB b x).cap = s.cap := rfl
@[simp] theorem setLoopB_hdl (s : State) (b : Nat) (x : BlockSt) : (s.setLoopB b x).hdl = s.hdl := rfl
@[simp] theorem setLoopB_peal (s : State) (b : Nat) (x : BlockSt) : (s.setLoopB b x).peal = s.peal := rfl
@[simp] theorem setLoopB_net (s : State) (b : Nat) (x : BlockSt) : (s.setLoopB b x).net = s.net := rfl
@[simp] theorem setLoopB_hnk (s : State) (b : Nat) (x : BlockSt) : (s.setLoopB b x).hnk = s.hnk := rfl
@[simp] theorem setLoopB_ply (s : State) (b : Nat) (x : BlockSt) : (s.setLoopB b x).ply = s.ply := rfl
@[simp] theorem setLoopB_alm (s : State) (b : Nat) (x : BlockSt) : (s.setLoopB b x).alm = s.alm := rfl
@[simp] theorem setLoopB_keep (s : State) (b : Nat) (x : BlockSt) : (s.setLoopB b x).keep = s.keep := rfl
@[simp] theorem setLoopB_sec (s : State) (b : Nat) (x : BlockSt) : (s.setLoopB b x).sec = s.sec := rfl

/-! `setClose` changes `peal` only. -/

@[simp] theorem setClose_pending (s : State) (b : Nat) (c : Option CloseSt) : (s.setClose b c).pending = s.pending := rfl
@[simp] theorem setClose_freeSeq (s : State) (b : Nat) (c : Option CloseSt) : (s.setClose b c).freeSeq = s.freeSeq := rfl
@[simp] theorem setClose_regs (s : State) (b : Nat) (c : Option CloseSt) : (s.setClose b c).regs = s.regs := rfl
@[simp] theorem setClose_latched (s : State) (b : Nat) (c : Option CloseSt) : (s.setClose b c).latched = s.latched := rfl
@[simp] theorem setClose_mem (s : State) (b : Nat) (c : Option CloseSt) : (s.setClose b c).mem = s.mem := rfl
@[simp] theorem setClose_tim (s : State) (b : Nat) (c : Option CloseSt) : (s.setClose b c).tim = s.tim := rfl
@[simp] theorem setClose_acq (s : State) (b : Nat) (c : Option CloseSt) : (s.setClose b c).acq = s.acq := rfl
@[simp] theorem setClose_host (s : State) (b : Nat) (c : Option CloseSt) : (s.setClose b c).host = s.host := rfl
@[simp] theorem setClose_trip (s : State) (b : Nat) (c : Option CloseSt) : (s.setClose b c).trip = s.trip := rfl
@[simp] theorem setClose_cfg (s : State) (b : Nat) (c : Option CloseSt) : (s.setClose b c).cfg = s.cfg := rfl
@[simp] theorem setClose_chain (s : State) (b : Nat) (c : Option CloseSt) : (s.setClose b c).chain = s.chain := rfl
@[simp] theorem setClose_prot (s : State) (b : Nat) (c : Option CloseSt) : (s.setClose b c).prot = s.prot := rfl
@[simp] theorem setClose_pwr (s : State) (b : Nat) (c : Option CloseSt) : (s.setClose b c).pwr = s.pwr := rfl
@[simp] theorem setClose_cap (s : State) (b : Nat) (c : Option CloseSt) : (s.setClose b c).cap = s.cap := rfl
@[simp] theorem setClose_hdl (s : State) (b : Nat) (c : Option CloseSt) : (s.setClose b c).hdl = s.hdl := rfl
@[simp] theorem setClose_spn (s : State) (b : Nat) (c : Option CloseSt) : (s.setClose b c).spn = s.spn := rfl
@[simp] theorem setClose_net (s : State) (b : Nat) (c : Option CloseSt) : (s.setClose b c).net = s.net := rfl
@[simp] theorem setClose_hnk (s : State) (b : Nat) (c : Option CloseSt) : (s.setClose b c).hnk = s.hnk := rfl
@[simp] theorem setClose_ply (s : State) (b : Nat) (c : Option CloseSt) : (s.setClose b c).ply = s.ply := rfl
@[simp] theorem setClose_alm (s : State) (b : Nat) (c : Option CloseSt) : (s.setClose b c).alm = s.alm := rfl
@[simp] theorem setClose_keep (s : State) (b : Nat) (c : Option CloseSt) : (s.setClose b c).keep = s.keep := rfl
@[simp] theorem setClose_sec (s : State) (b : Nat) (c : Option CloseSt) : (s.setClose b c).sec = s.sec := rfl

/-! `setCapPlan` changes `cap` only. -/

@[simp] theorem setCapPlan_pending (s : State) (p : Nat) (x : CapPlan) : (s.setCapPlan p x).pending = s.pending := rfl
@[simp] theorem setCapPlan_freeSeq (s : State) (p : Nat) (x : CapPlan) : (s.setCapPlan p x).freeSeq = s.freeSeq := rfl
@[simp] theorem setCapPlan_regs (s : State) (p : Nat) (x : CapPlan) : (s.setCapPlan p x).regs = s.regs := rfl
@[simp] theorem setCapPlan_latched (s : State) (p : Nat) (x : CapPlan) : (s.setCapPlan p x).latched = s.latched := rfl
@[simp] theorem setCapPlan_mem (s : State) (p : Nat) (x : CapPlan) : (s.setCapPlan p x).mem = s.mem := rfl
@[simp] theorem setCapPlan_tim (s : State) (p : Nat) (x : CapPlan) : (s.setCapPlan p x).tim = s.tim := rfl
@[simp] theorem setCapPlan_acq (s : State) (p : Nat) (x : CapPlan) : (s.setCapPlan p x).acq = s.acq := rfl
@[simp] theorem setCapPlan_host (s : State) (p : Nat) (x : CapPlan) : (s.setCapPlan p x).host = s.host := rfl
@[simp] theorem setCapPlan_trip (s : State) (p : Nat) (x : CapPlan) : (s.setCapPlan p x).trip = s.trip := rfl
@[simp] theorem setCapPlan_cfg (s : State) (p : Nat) (x : CapPlan) : (s.setCapPlan p x).cfg = s.cfg := rfl
@[simp] theorem setCapPlan_chain (s : State) (p : Nat) (x : CapPlan) : (s.setCapPlan p x).chain = s.chain := rfl
@[simp] theorem setCapPlan_prot (s : State) (p : Nat) (x : CapPlan) : (s.setCapPlan p x).prot = s.prot := rfl
@[simp] theorem setCapPlan_pwr (s : State) (p : Nat) (x : CapPlan) : (s.setCapPlan p x).pwr = s.pwr := rfl
@[simp] theorem setCapPlan_hdl (s : State) (p : Nat) (x : CapPlan) : (s.setCapPlan p x).hdl = s.hdl := rfl
@[simp] theorem setCapPlan_peal (s : State) (p : Nat) (x : CapPlan) : (s.setCapPlan p x).peal = s.peal := rfl
@[simp] theorem setCapPlan_spn (s : State) (p : Nat) (x : CapPlan) : (s.setCapPlan p x).spn = s.spn := rfl
@[simp] theorem setCapPlan_net (s : State) (p : Nat) (x : CapPlan) : (s.setCapPlan p x).net = s.net := rfl
@[simp] theorem setCapPlan_hnk (s : State) (p : Nat) (x : CapPlan) : (s.setCapPlan p x).hnk = s.hnk := rfl
@[simp] theorem setCapPlan_ply (s : State) (p : Nat) (x : CapPlan) : (s.setCapPlan p x).ply = s.ply := rfl
@[simp] theorem setCapPlan_alm (s : State) (p : Nat) (x : CapPlan) : (s.setCapPlan p x).alm = s.alm := rfl
@[simp] theorem setCapPlan_keep (s : State) (p : Nat) (x : CapPlan) : (s.setCapPlan p x).keep = s.keep := rfl
@[simp] theorem setCapPlan_sec (s : State) (p : Nat) (x : CapPlan) : (s.setCapPlan p x).sec = s.sec := rfl

/-! `setCapRec` changes `cap` only. -/

@[simp] theorem setCapRec_pending (s : State) (e : Nat) (x : Option CapRec) : (s.setCapRec e x).pending = s.pending := rfl
@[simp] theorem setCapRec_freeSeq (s : State) (e : Nat) (x : Option CapRec) : (s.setCapRec e x).freeSeq = s.freeSeq := rfl
@[simp] theorem setCapRec_regs (s : State) (e : Nat) (x : Option CapRec) : (s.setCapRec e x).regs = s.regs := rfl
@[simp] theorem setCapRec_latched (s : State) (e : Nat) (x : Option CapRec) : (s.setCapRec e x).latched = s.latched := rfl
@[simp] theorem setCapRec_mem (s : State) (e : Nat) (x : Option CapRec) : (s.setCapRec e x).mem = s.mem := rfl
@[simp] theorem setCapRec_tim (s : State) (e : Nat) (x : Option CapRec) : (s.setCapRec e x).tim = s.tim := rfl
@[simp] theorem setCapRec_acq (s : State) (e : Nat) (x : Option CapRec) : (s.setCapRec e x).acq = s.acq := rfl
@[simp] theorem setCapRec_host (s : State) (e : Nat) (x : Option CapRec) : (s.setCapRec e x).host = s.host := rfl
@[simp] theorem setCapRec_trip (s : State) (e : Nat) (x : Option CapRec) : (s.setCapRec e x).trip = s.trip := rfl
@[simp] theorem setCapRec_cfg (s : State) (e : Nat) (x : Option CapRec) : (s.setCapRec e x).cfg = s.cfg := rfl
@[simp] theorem setCapRec_chain (s : State) (e : Nat) (x : Option CapRec) : (s.setCapRec e x).chain = s.chain := rfl
@[simp] theorem setCapRec_prot (s : State) (e : Nat) (x : Option CapRec) : (s.setCapRec e x).prot = s.prot := rfl
@[simp] theorem setCapRec_pwr (s : State) (e : Nat) (x : Option CapRec) : (s.setCapRec e x).pwr = s.pwr := rfl
@[simp] theorem setCapRec_hdl (s : State) (e : Nat) (x : Option CapRec) : (s.setCapRec e x).hdl = s.hdl := rfl
@[simp] theorem setCapRec_peal (s : State) (e : Nat) (x : Option CapRec) : (s.setCapRec e x).peal = s.peal := rfl
@[simp] theorem setCapRec_spn (s : State) (e : Nat) (x : Option CapRec) : (s.setCapRec e x).spn = s.spn := rfl
@[simp] theorem setCapRec_net (s : State) (e : Nat) (x : Option CapRec) : (s.setCapRec e x).net = s.net := rfl
@[simp] theorem setCapRec_hnk (s : State) (e : Nat) (x : Option CapRec) : (s.setCapRec e x).hnk = s.hnk := rfl
@[simp] theorem setCapRec_ply (s : State) (e : Nat) (x : Option CapRec) : (s.setCapRec e x).ply = s.ply := rfl
@[simp] theorem setCapRec_alm (s : State) (e : Nat) (x : Option CapRec) : (s.setCapRec e x).alm = s.alm := rfl
@[simp] theorem setCapRec_keep (s : State) (e : Nat) (x : Option CapRec) : (s.setCapRec e x).keep = s.keep := rfl
@[simp] theorem setCapRec_sec (s : State) (e : Nat) (x : Option CapRec) : (s.setCapRec e x).sec = s.sec := rfl

/-! `setRaised` changes `pwr` only. -/

@[simp] theorem setRaised_pending (s : State) (k : Nat) (t : Option Nat) : (s.setRaised k t).pending = s.pending := rfl
@[simp] theorem setRaised_freeSeq (s : State) (k : Nat) (t : Option Nat) : (s.setRaised k t).freeSeq = s.freeSeq := rfl
@[simp] theorem setRaised_regs (s : State) (k : Nat) (t : Option Nat) : (s.setRaised k t).regs = s.regs := rfl
@[simp] theorem setRaised_latched (s : State) (k : Nat) (t : Option Nat) : (s.setRaised k t).latched = s.latched := rfl
@[simp] theorem setRaised_mem (s : State) (k : Nat) (t : Option Nat) : (s.setRaised k t).mem = s.mem := rfl
@[simp] theorem setRaised_tim (s : State) (k : Nat) (t : Option Nat) : (s.setRaised k t).tim = s.tim := rfl
@[simp] theorem setRaised_acq (s : State) (k : Nat) (t : Option Nat) : (s.setRaised k t).acq = s.acq := rfl
@[simp] theorem setRaised_host (s : State) (k : Nat) (t : Option Nat) : (s.setRaised k t).host = s.host := rfl
@[simp] theorem setRaised_trip (s : State) (k : Nat) (t : Option Nat) : (s.setRaised k t).trip = s.trip := rfl
@[simp] theorem setRaised_cfg (s : State) (k : Nat) (t : Option Nat) : (s.setRaised k t).cfg = s.cfg := rfl
@[simp] theorem setRaised_chain (s : State) (k : Nat) (t : Option Nat) : (s.setRaised k t).chain = s.chain := rfl
@[simp] theorem setRaised_prot (s : State) (k : Nat) (t : Option Nat) : (s.setRaised k t).prot = s.prot := rfl
@[simp] theorem setRaised_cap (s : State) (k : Nat) (t : Option Nat) : (s.setRaised k t).cap = s.cap := rfl
@[simp] theorem setRaised_hdl (s : State) (k : Nat) (t : Option Nat) : (s.setRaised k t).hdl = s.hdl := rfl
@[simp] theorem setRaised_peal (s : State) (k : Nat) (t : Option Nat) : (s.setRaised k t).peal = s.peal := rfl
@[simp] theorem setRaised_spn (s : State) (k : Nat) (t : Option Nat) : (s.setRaised k t).spn = s.spn := rfl
@[simp] theorem setRaised_net (s : State) (k : Nat) (t : Option Nat) : (s.setRaised k t).net = s.net := rfl
@[simp] theorem setRaised_hnk (s : State) (k : Nat) (t : Option Nat) : (s.setRaised k t).hnk = s.hnk := rfl
@[simp] theorem setRaised_ply (s : State) (k : Nat) (t : Option Nat) : (s.setRaised k t).ply = s.ply := rfl
@[simp] theorem setRaised_alm (s : State) (k : Nat) (t : Option Nat) : (s.setRaised k t).alm = s.alm := rfl
@[simp] theorem setRaised_keep (s : State) (k : Nat) (t : Option Nat) : (s.setRaised k t).keep = s.keep := rfl
@[simp] theorem setRaised_sec (s : State) (k : Nat) (t : Option Nat) : (s.setRaised k t).sec = s.sec := rfl

/-! `setThrottle` changes `pwr` only. -/

@[simp] theorem setThrottle_pending (s : State) (k : Nat) (t : Option Nat) : (s.setThrottle k t).pending = s.pending := rfl
@[simp] theorem setThrottle_freeSeq (s : State) (k : Nat) (t : Option Nat) : (s.setThrottle k t).freeSeq = s.freeSeq := rfl
@[simp] theorem setThrottle_regs (s : State) (k : Nat) (t : Option Nat) : (s.setThrottle k t).regs = s.regs := rfl
@[simp] theorem setThrottle_latched (s : State) (k : Nat) (t : Option Nat) : (s.setThrottle k t).latched = s.latched := rfl
@[simp] theorem setThrottle_mem (s : State) (k : Nat) (t : Option Nat) : (s.setThrottle k t).mem = s.mem := rfl
@[simp] theorem setThrottle_tim (s : State) (k : Nat) (t : Option Nat) : (s.setThrottle k t).tim = s.tim := rfl
@[simp] theorem setThrottle_acq (s : State) (k : Nat) (t : Option Nat) : (s.setThrottle k t).acq = s.acq := rfl
@[simp] theorem setThrottle_host (s : State) (k : Nat) (t : Option Nat) : (s.setThrottle k t).host = s.host := rfl
@[simp] theorem setThrottle_trip (s : State) (k : Nat) (t : Option Nat) : (s.setThrottle k t).trip = s.trip := rfl
@[simp] theorem setThrottle_cfg (s : State) (k : Nat) (t : Option Nat) : (s.setThrottle k t).cfg = s.cfg := rfl
@[simp] theorem setThrottle_chain (s : State) (k : Nat) (t : Option Nat) : (s.setThrottle k t).chain = s.chain := rfl
@[simp] theorem setThrottle_prot (s : State) (k : Nat) (t : Option Nat) : (s.setThrottle k t).prot = s.prot := rfl
@[simp] theorem setThrottle_cap (s : State) (k : Nat) (t : Option Nat) : (s.setThrottle k t).cap = s.cap := rfl
@[simp] theorem setThrottle_hdl (s : State) (k : Nat) (t : Option Nat) : (s.setThrottle k t).hdl = s.hdl := rfl
@[simp] theorem setThrottle_peal (s : State) (k : Nat) (t : Option Nat) : (s.setThrottle k t).peal = s.peal := rfl
@[simp] theorem setThrottle_spn (s : State) (k : Nat) (t : Option Nat) : (s.setThrottle k t).spn = s.spn := rfl
@[simp] theorem setThrottle_net (s : State) (k : Nat) (t : Option Nat) : (s.setThrottle k t).net = s.net := rfl
@[simp] theorem setThrottle_hnk (s : State) (k : Nat) (t : Option Nat) : (s.setThrottle k t).hnk = s.hnk := rfl
@[simp] theorem setThrottle_ply (s : State) (k : Nat) (t : Option Nat) : (s.setThrottle k t).ply = s.ply := rfl
@[simp] theorem setThrottle_alm (s : State) (k : Nat) (t : Option Nat) : (s.setThrottle k t).alm = s.alm := rfl
@[simp] theorem setThrottle_keep (s : State) (k : Nat) (t : Option Nat) : (s.setThrottle k t).keep = s.keep := rfl
@[simp] theorem setThrottle_sec (s : State) (k : Nat) (t : Option Nat) : (s.setThrottle k t).sec = s.sec := rfl

/-! `putMerged` changes `ply` only. -/

@[simp] theorem putMerged_pending (s : State) (bits : List (Nat × (Bool × Bool))) : (s.putMerged bits).pending = s.pending := rfl
@[simp] theorem putMerged_freeSeq (s : State) (bits : List (Nat × (Bool × Bool))) : (s.putMerged bits).freeSeq = s.freeSeq := rfl
@[simp] theorem putMerged_regs (s : State) (bits : List (Nat × (Bool × Bool))) : (s.putMerged bits).regs = s.regs := rfl
@[simp] theorem putMerged_latched (s : State) (bits : List (Nat × (Bool × Bool))) : (s.putMerged bits).latched = s.latched := rfl
@[simp] theorem putMerged_mem (s : State) (bits : List (Nat × (Bool × Bool))) : (s.putMerged bits).mem = s.mem := rfl
@[simp] theorem putMerged_tim (s : State) (bits : List (Nat × (Bool × Bool))) : (s.putMerged bits).tim = s.tim := rfl
@[simp] theorem putMerged_acq (s : State) (bits : List (Nat × (Bool × Bool))) : (s.putMerged bits).acq = s.acq := rfl
@[simp] theorem putMerged_host (s : State) (bits : List (Nat × (Bool × Bool))) : (s.putMerged bits).host = s.host := rfl
@[simp] theorem putMerged_trip (s : State) (bits : List (Nat × (Bool × Bool))) : (s.putMerged bits).trip = s.trip := rfl
@[simp] theorem putMerged_cfg (s : State) (bits : List (Nat × (Bool × Bool))) : (s.putMerged bits).cfg = s.cfg := rfl
@[simp] theorem putMerged_chain (s : State) (bits : List (Nat × (Bool × Bool))) : (s.putMerged bits).chain = s.chain := rfl
@[simp] theorem putMerged_prot (s : State) (bits : List (Nat × (Bool × Bool))) : (s.putMerged bits).prot = s.prot := rfl
@[simp] theorem putMerged_pwr (s : State) (bits : List (Nat × (Bool × Bool))) : (s.putMerged bits).pwr = s.pwr := rfl
@[simp] theorem putMerged_cap (s : State) (bits : List (Nat × (Bool × Bool))) : (s.putMerged bits).cap = s.cap := rfl
@[simp] theorem putMerged_hdl (s : State) (bits : List (Nat × (Bool × Bool))) : (s.putMerged bits).hdl = s.hdl := rfl
@[simp] theorem putMerged_peal (s : State) (bits : List (Nat × (Bool × Bool))) : (s.putMerged bits).peal = s.peal := rfl
@[simp] theorem putMerged_spn (s : State) (bits : List (Nat × (Bool × Bool))) : (s.putMerged bits).spn = s.spn := rfl
@[simp] theorem putMerged_net (s : State) (bits : List (Nat × (Bool × Bool))) : (s.putMerged bits).net = s.net := rfl
@[simp] theorem putMerged_hnk (s : State) (bits : List (Nat × (Bool × Bool))) : (s.putMerged bits).hnk = s.hnk := rfl
@[simp] theorem putMerged_alm (s : State) (bits : List (Nat × (Bool × Bool))) : (s.putMerged bits).alm = s.alm := rfl
@[simp] theorem putMerged_keep (s : State) (bits : List (Nat × (Bool × Bool))) : (s.putMerged bits).keep = s.keep := rfl
@[simp] theorem putMerged_sec (s : State) (bits : List (Nat × (Bool × Bool))) : (s.putMerged bits).sec = s.sec := rfl

end Sys2Proof.Laws
end

