-- ==== Sys2Proof/Laws/Ops.lean ====
section
/-! SUPPORT. What the shared operations do: reads after writes of registers, octets and tables, bit fields, the canonical form kept by
every memory operation, and what raising an event leaves alone. -/

namespace Sys2Proof.Laws

open Sys2Proof.Machine

/-! ### Registers -/

@[simp] theorem reg_setReg_same (s : State) (a : Nat) (w : Word) : (s.setReg a w).reg a = w := by
  simp [State.reg, State.setReg]

@[simp] theorem reg_setReg_ne (s : State) {a b : Nat} (w : Word) (h : b ≠ a) : (s.setReg a w).reg b = s.reg b := by
  simp [State.reg, State.setReg, h]

theorem reg_setReg (s : State) (a b : Nat) (w : Word) : (s.setReg a w).reg b = if b = a then w else s.reg b := by
  by_cases h : b = a
  · subst h; simp
  · simp [h]

@[simp] theorem reg_setFld_same (s : State) (a : Nat) (f : Fld) (v : Nat) : (s.setFld a f v).reg a = fldPut f v (s.reg a) := by
  simp [State.setFld]

@[simp] theorem reg_setFld_ne (s : State) {a b : Nat} (f : Fld) (v : Nat) (h : b ≠ a) : (s.setFld a f v).reg b = s.reg b := by
  simp [State.setFld, h]

@[simp] theorem reg_setBit_same (s : State) (a i : Nat) (v : Bool) : (s.setBit a i v).reg a = bitPut (s.reg a) i v := by
  simp [State.setBit]

@[simp] theorem reg_setBit_ne (s : State) {a b : Nat} (i : Nat) (v : Bool) (h : b ≠ a) : (s.setBit a i v).reg b = s.reg b := by
  simp [State.setBit, h]

/-! ### Bit fields -/

/-- The part of a number between two powers of two, and the numbers below and above it. -/
theorem fldPut_nat (n l k v : Nat) :
    n - n / 2 ^ l % 2 ^ k * 2 ^ l + v % 2 ^ k * 2 ^ l = n / 2 ^ (l + k) * 2 ^ (l + k) + v % 2 ^ k * 2 ^ l + n % 2 ^ l := by
  have h1 : n = n / 2 ^ l * 2 ^ l + n % 2 ^ l := by
    have := Nat.div_add_mod n (2 ^ l)
    rw [Nat.mul_comm] at this; omega
  have h2 : n / 2 ^ l = n / 2 ^ l / 2 ^ k * 2 ^ k + n / 2 ^ l % 2 ^ k := by
    have := Nat.div_add_mod (n / 2 ^ l) (2 ^ k)
    rw [Nat.mul_comm] at this; omega
  have h3 : n / 2 ^ (l + k) = n / 2 ^ l / 2 ^ k := by rw [Nat.div_div_eq_div_mul, Nat.pow_add]
  have h4 : n / 2 ^ l * 2 ^ l = n / 2 ^ l / 2 ^ k * (2 ^ k * 2 ^ l) + n / 2 ^ l % 2 ^ k * 2 ^ l := by
    conv_lhs => rw [h2]
    ring
  rw [h3, Nat.pow_add, Nat.mul_comm (2 ^ l) (2 ^ k)]
  omega

theorem fldPut_toNat (f : Fld) (v : Nat) (w : Word) (h : f.lo ≤ f.hi) (h2 : f.hi < 32) :
    (fldPut f v w).toNat = w.toNat / 2 ^ (f.hi + 1) * 2 ^ (f.hi + 1) + v % 2 ^ (f.hi + 1 - f.lo) * 2 ^ f.lo + w.toNat % 2 ^ f.lo := by
  have e : f.lo + (f.hi + 1 - f.lo) = f.hi + 1 := by omega
  have hw := w.isLt
  have hb := fldPut_nat w.toNat f.lo (f.hi + 1 - f.lo) v
  rw [e] at hb
  have hv : v % 2 ^ (f.hi + 1 - f.lo) < 2 ^ (f.hi + 1 - f.lo) := Nat.mod_lt _ (by positivity)
  have hl : w.toNat % 2 ^ f.lo < 2 ^ f.lo := Nat.mod_lt _ (by positivity)
  have hm : v % 2 ^ (f.hi + 1 - f.lo) * 2 ^ f.lo + 2 ^ f.lo ≤ 2 ^ (f.hi + 1) := by
    have e3 : 2 ^ (f.hi + 1) = 2 ^ (f.hi + 1 - f.lo) * 2 ^ f.lo := by rw [← Nat.pow_add]; congr 1; omega
    rw [e3]
    nlinarith [show 0 < 2 ^ f.lo by positivity]
  have hq : (w.toNat / 2 ^ (f.hi + 1) + 1) * 2 ^ (f.hi + 1) ≤ 2 ^ 32 := by
    have e2 : 2 ^ 32 = 2 ^ (31 - f.hi) * 2 ^ (f.hi + 1) := by rw [← Nat.pow_add]; congr 1; omega
    rw [e2]
    apply Nat.mul_le_mul_right
    rw [e2] at hw
    exact (Nat.div_lt_iff_lt_mul (by positivity)).2 hw
  have hlt : w.toNat / 2 ^ (f.hi + 1) * 2 ^ (f.hi + 1) + v % 2 ^ (f.hi + 1 - f.lo) * 2 ^ f.lo + w.toNat % 2 ^ f.lo < 2 ^ 32 := by
    rw [Nat.add_mul, Nat.one_mul] at hq; omega
  unfold fldPut fldGet
  rw [BitVec.toNat_ofNat, hb, Nat.mod_eq_of_lt hlt]

/-- A field reads what was put into it, modulo its width. -/
theorem fldGet_put_same (f : Fld) (v : Nat) (w : Word) (h : f.lo ≤ f.hi) (h2 : f.hi < 32) :
    fldGet f (fldPut f v w) = v % 2 ^ (f.hi + 1 - f.lo) := by
  have e : 2 ^ (f.hi + 1) = 2 ^ (f.hi + 1 - f.lo) * 2 ^ f.lo := by rw [← Nat.pow_add]; congr 1; omega
  have hl : w.toNat % 2 ^ f.lo < 2 ^ f.lo := Nat.mod_lt _ (by positivity)
  have hp : 0 < 2 ^ f.lo := by positivity
  rw [fldGet, fldPut_toNat f v w h h2, e]
  have : w.toNat / (2 ^ (f.hi + 1 - f.lo) * 2 ^ f.lo) * (2 ^ (f.hi + 1 - f.lo) * 2 ^ f.lo) + v % 2 ^ (f.hi + 1 - f.lo) * 2 ^ f.lo +
      w.toNat % 2 ^ f.lo = w.toNat % 2 ^ f.lo +
        (w.toNat / (2 ^ (f.hi + 1 - f.lo) * 2 ^ f.lo) * 2 ^ (f.hi + 1 - f.lo) + v % 2 ^ (f.hi + 1 - f.lo)) * 2 ^ f.lo := by ring
  rw [this, Nat.add_mul_div_right _ _ hp, Nat.div_eq_of_lt hl, Nat.zero_add, Nat.add_comm, Nat.add_mul_mod_self_right]
  simp

/-- A bit outside a field keeps its value. -/
theorem bitGet_put_out (f : Fld) (v i : Nat) (w : Word) (h : f.lo ≤ f.hi) (h2 : f.hi < 32) (hi : i < f.lo ∨ f.hi < i) :
    bitGet (fldPut f v w) i = bitGet w i := by
  have e : 2 ^ (f.hi + 1) = 2 ^ f.lo * 2 ^ (f.hi + 1 - f.lo) := by rw [← Nat.pow_add]; congr 1; omega
  have hl : w.toNat % 2 ^ f.lo < 2 ^ f.lo := Nat.mod_lt _ (by positivity)
  have hv : v % 2 ^ (f.hi + 1 - f.lo) < 2 ^ (f.hi + 1 - f.lo) := Nat.mod_lt _ (by positivity)
  unfold bitGet
  rw [fldPut_toNat f v w h h2]
  rcases hi with hi | hi
  · have : w.toNat / 2 ^ (f.hi + 1) * 2 ^ (f.hi + 1) + v % 2 ^ (f.hi + 1 - f.lo) * 2 ^ f.lo + w.toNat % 2 ^ f.lo =
        2 ^ f.lo * (w.toNat / 2 ^ (f.hi + 1) * 2 ^ (f.hi + 1 - f.lo) + v % 2 ^ (f.hi + 1 - f.lo)) + w.toNat % 2 ^ f.lo := by rw [e]; ring
    rw [this, Nat.testBit_two_pow_mul_add _ hl, if_pos hi, Nat.testBit_mod_two_pow]
    simp [hi]
  · have hlow : v % 2 ^ (f.hi + 1 - f.lo) * 2 ^ f.lo + w.toNat % 2 ^ f.lo < 2 ^ (f.hi + 1) := by
      rw [e]; nlinarith [show 0 < 2 ^ f.lo by positivity]
    have : w.toNat / 2 ^ (f.hi + 1) * 2 ^ (f.hi + 1) + v % 2 ^ (f.hi + 1 - f.lo) * 2 ^ f.lo + w.toNat % 2 ^ f.lo =
        2 ^ (f.hi + 1) * (w.toNat / 2 ^ (f.hi + 1)) + (v % 2 ^ (f.hi + 1 - f.lo) * 2 ^ f.lo + w.toNat % 2 ^ f.lo) := by ring
    rw [this, Nat.testBit_two_pow_mul_add _ hlow, if_neg (by omega), Nat.testBit_div_two_pow]
    congr 1; omega

theorem fldGet_testBit (f : Fld) (w : Word) (j : Nat) :
    (fldGet f w).testBit j = (decide (j < f.hi + 1 - f.lo) && w.toNat.testBit (f.lo + j)) := by
  rw [fldGet, Nat.testBit_mod_two_pow, Nat.testBit_div_two_pow, Nat.add_comm j]

/-- A field that shares no bit with the one put keeps its value. -/
theorem fldGet_put_disjoint (f g : Fld) (v : Nat) (w : Word) (h : f.lo ≤ f.hi) (h2 : f.hi < 32) (hd : g.hi < f.lo ∨ f.hi < g.lo) :
    fldGet g (fldPut f v w) = fldGet g w := by
  apply Nat.eq_of_testBit_eq
  intro j
  rw [fldGet_testBit, fldGet_testBit]
  by_cases hj : j < g.hi + 1 - g.lo
  · have := bitGet_put_out f v (g.lo + j) w h h2 (by omega)
    unfold bitGet at this
    rw [this]
  · simp [hj]

theorem half_succ {q : Nat} (h : q % 2 = 0) : (q + 1) / 2 = q / 2 := by omega
theorem half_pred {q : Nat} (h : q % 2 = 1) : (q - 1) / 2 = q / 2 := by omega
theorem odd_pos {q : Nat} (h : q % 2 = 1) : 1 ≤ q := by omega
theorem pred_even {q : Nat} (h : q % 2 = 1) : (q - 1) % 2 = 0 := by omega

theorem bitPut_testBit (w : Word) (i j : Nat) (b : Bool) (hi : i < 32) :
    (bitPut w i b).toNat.testBit j = if j = i then b else w.toNat.testBit j := by
  have hw := w.isLt
  unfold bitPut
  split
  · next h => by_cases hj : j = i
              · subst hj; simp [h]
              · simp [hj]
  · next h =>
    have hsplit : w.toNat = 2 ^ i * (w.toNat / 2 ^ i) + w.toNat % 2 ^ i := (Nat.div_add_mod _ _).symm
    have hlow : w.toNat % 2 ^ i < 2 ^ i := Nat.mod_lt _ (by positivity)
    have hbit : w.toNat.testBit i = decide (w.toNat / 2 ^ i % 2 = 1) := by rw [Nat.testBit_eq_decide_div_mod_eq]
    split
    · next hb =>
      subst hb
      have h0 : w.toNat / 2 ^ i % 2 = 0 := by
        rw [hbit] at h; simp at h; omega
      have hdef : w.toNat + 2 ^ i = w.toNat ||| 2 ^ i := by
        apply Nat.eq_of_testBit_eq
        intro k
        rw [Nat.testBit_or, Nat.testBit_two_pow]
        have e : w.toNat + 2 ^ i = 2 ^ i * (w.toNat / 2 ^ i + 1) + w.toNat % 2 ^ i := by
          rw [Nat.mul_add, Nat.mul_one]; omega
        rw [e, Nat.testBit_two_pow_mul_add _ hlow]
        by_cases hk : k < i
        · rw [if_pos hk, Nat.testBit_mod_two_pow]; simp [hk]; omega
        · rw [if_neg hk]
          by_cases hk2 : k = i
          · subst hk2
            rw [Nat.sub_self, Nat.testBit_zero]
            have : (w.toNat / 2 ^ k + 1) % 2 = 1 := by rw [Nat.add_mod, h0]
            simp [this]
          · obtain ⟨m, rfl⟩ : ∃ m, k = i + (m + 1) := ⟨k - i - 1, by omega⟩
            have : i + (m + 1) - i = m + 1 := by omega
            rw [this, Nat.testBit_succ, half_succ h0]
            rw [← Nat.testBit_succ, Nat.testBit_div_two_pow, Nat.add_comm (m + 1)]
            simp
      have hlt : w.toNat ||| 2 ^ i < 2 ^ 32 := Nat.or_lt_two_pow hw (Nat.pow_lt_pow_right (by omega) hi)
      rw [hdef, BitVec.toNat_ofNat, Nat.mod_eq_of_lt hlt, Nat.testBit_or, Nat.testBit_two_pow]
      by_cases hj : j = i
      · subst hj; simp
      · simp [hj, Ne.symm hj]
    · next hb =>
      have hb' : b = false := by simpa using hb
      subst hb'
      have h1 : w.toNat / 2 ^ i % 2 = 1 := by
        rw [hbit] at h; simpa using h
      have e : w.toNat - 2 ^ i = 2 ^ i * (w.toNat / 2 ^ i - 1) + w.toNat % 2 ^ i := by
        rw [Nat.mul_sub, Nat.mul_one]
        have : 2 ^ i * 1 ≤ 2 ^ i * (w.toNat / 2 ^ i) := Nat.mul_le_mul_left _ (odd_pos h1)
        omega
      rw [BitVec.toNat_ofNat, Nat.mod_eq_of_lt (by omega), e, Nat.testBit_two_pow_mul_add _ hlow]
      by_cases hk : j < i
      · rw [if_pos hk, Nat.testBit_mod_two_pow]; simp [hk]; omega
      · rw [if_neg hk]
        by_cases hk2 : j = i
        · subst hk2
          rw [Nat.sub_self, Nat.testBit_zero]
          simp [pred_even h1]
        · obtain ⟨m, rfl⟩ : ∃ m, j = i + (m + 1) := ⟨j - i - 1, by omega⟩
          have : i + (m + 1) - i = m + 1 := by omega
          rw [this, Nat.testBit_succ, half_pred h1]
          rw [← Nat.testBit_succ, Nat.testBit_div_two_pow, Nat.add_comm (m + 1)]
          simp

@[simp] theorem bitGet_bitPut_same (w : Word) (i : Nat) (b : Bool) (hi : i < 32) : bitGet (bitPut w i b) i = b := by
  simp [bitGet, bitPut_testBit w i i b hi]

theorem bitGet_bitPut_ne (w : Word) {i j : Nat} (b : Bool) (hi : i < 32) (h : j ≠ i) : bitGet (bitPut w i b) j = bitGet w j := by
  simp [bitGet, bitPut_testBit w i j b hi, h]

/-- A field keeps its value where a bit outside it is put. -/
theorem fldGet_bitPut_out (g : Fld) (w : Word) (i : Nat) (b : Bool) (hi : i < 32) (hd : i < g.lo ∨ g.hi < i) :
    fldGet g (bitPut w i b) = fldGet g w := by
  apply Nat.eq_of_testBit_eq
  intro j
  rw [fldGet_testBit, fldGet_testBit, bitPut_testBit _ _ _ _ hi]
  by_cases hj : j < g.hi + 1 - g.lo
  · rw [if_neg (by omega)]
  · simp [hj]

/-! ### Octets -/

@[simp] theorem octet_setOctet_same (s : State) (a : Nat) (b : Byte) : (s.setOctet a b).octet a = b := by
  simp [State.octet, State.setOctet]

@[simp] theorem octet_setOctet_ne (s : State) {a o : Nat} (b : Byte) (h : o ≠ a) : (s.setOctet a b).octet o = s.octet o := by
  simp [State.octet, State.setOctet, h]

/-- A store of `n` octets changes no other octet. -/
theorem octet_setOctetsLE_out (n : Nat) : ∀ (s : State) (a v o : Nat), (o < a ∨ a + n ≤ o) → (s.setOctetsLE a n v).octet o = s.octet o := by
  induction n with
  | zero => intro s a v o _; rfl
  | succ n ih =>
    intro s a v o h
    rw [State.setOctetsLE, ih _ _ _ _ (by omega), octet_setOctet_ne _ _ (by omega)]

/-- What `n` octets hold after a store of them. -/
theorem octetsLE_setOctetsLE (n : Nat) : ∀ (s : State) (a v : Nat), (s.setOctetsLE a n v).octetsLE a n = v % 256 ^ n := by
  induction n with
  | zero => intro s a v; simp [State.octetsLE, Nat.mod_one]
  | succ n ih =>
    intro s a v
    rw [State.setOctetsLE, State.octetsLE, octet_setOctetsLE_out _ _ _ _ _ (by omega), octet_setOctet_same, ih, BitVec.toNat_ofNat,
      show 256 ^ (n + 1) = 256 * 256 ^ n by rw [Nat.pow_succ, Nat.mul_comm], Nat.mod_mul]

theorem setOctetsLE_frame (n : Nat) : ∀ (s : State) (a v : Nat), { s.setOctetsLE a n v with mem := s.mem } = s := by
  induction n with
  | zero => intro s a v; rfl
  | succ n ih =>
    intro s a v
    have := ih (s.setOctet a (BitVec.ofNat 8 v)) (a + 1) (v / 256)
    exact congrArg (fun t : State => { t with mem := s.mem }) this

/-! ### Tables -/

@[simp] theorem tabGet_put_same {α : Type} [DecidableEq α] (d : α) (t : Tab α) (k : Nat) (v : α) : tabGet d (tabPut d t k v) k = v := by
  simp [tabGet, tabPut]

@[simp] theorem tabGet_put_ne {α : Type} [DecidableEq α] (d : α) (t : Tab α) {j k : Nat} (v : α) (h : j ≠ k) :
    tabGet d (tabPut d t k v) j = tabGet d t j := by
  simp [tabGet, tabPut, h]

/-! ### The canonical form -/

theorem setReg_canonical {s : State} {a : Nat} {w : Word} (h : s.Canonical) : (s.setReg a w).Canonical :=
  ⟨h.1, sparseWf_put _ _ _ _ h.2.1, h.2.2⟩

theorem setOctet_canonical {s : State} {a : Nat} {b : Byte} (h : s.Canonical) : (s.setOctet a b).Canonical :=
  ⟨sparseWf_put _ _ _ _ h.1, h.2⟩

theorem latch_canonical {s : State} {a : Nat} (h : s.Canonical) : (s.latch a).Canonical :=
  ⟨h.1, h.2.1, sparseWf_put _ _ _ _ h.2.2⟩

theorem setOctetsLE_canonical (n : Nat) : ∀ (s : State) (a v : Nat), s.Canonical → (s.setOctetsLE a n v).Canonical := by
  induction n with
  | zero => intro s a v h; exact h
  | succ n ih => intro s a v h; exact ih _ _ _ (setOctet_canonical h)

theorem reset_canonical : State.reset.Canonical := ⟨rfl, rfl, rfl⟩

end Sys2Proof.Laws
end

