-- ==== Sys2Proof/Laws/TidyOps.lean ====
section
/-! SUPPORT. Every function of the shared operations keeps the queue of waiting commands and the canonical form of memory, registers and
latched copies; one that writes no octet keeps memory. One lemma per function that answers a state. -/

namespace Sys2Proof.Laws

open Sys2Proof.Machine

/-- The queue is `q`, memory, registers and latched copies are in canonical form, and the memory is `m` where one is given. -/
def Tidy (q : List Instr) (m : Option (List Host.Cell)) (s : State) : Prop :=
  s.pending = q ∧ s.Canonical ∧ ∀ x, m = some x → s.mem = x

variable {q : List Instr} {m : Option (List Host.Cell)}

theorem Tidy.upd {s t : State} (h : Tidy q m s) (h1 : t.pending = s.pending) (h2 : t.mem = s.mem) (h3 : t.regs = s.regs)
    (h4 : t.latched = s.latched) : Tidy q m t := by
  unfold Tidy State.Canonical at *
  rw [h1, h2, h3, h4]; exact h
theorem acq_tidy {s : State} {x : AcqSt} (h : Tidy q m s) : Tidy q m { s with acq := x } := Tidy.upd (s := s) h rfl rfl rfl rfl
theorem Tidy.ite {c : Prop} [Decidable c] {a b : State} (ha : Tidy q m a) (hb : Tidy q m b) : Tidy q m (if c then a else b) := by
  split <;> assumption
theorem Tidy.fst {α : Type} {a : State} {b : α} (h : Tidy q m a) : Tidy q m (a, b).1 := h
theorem Tidy.snd {α : Type} {a : State} {b : α} (h : Tidy q m a) : Tidy q m (b, a).2 := h
theorem foldl_tidy {α : Type} {f : State → α → State} : ∀ (l : List α) (s : State), (∀ t x, Tidy q m t → Tidy q m (f t x)) → Tidy q m s →
    Tidy q m (l.foldl f s)
  | [], _, _, h => h
  | x :: l, s, hf, h => foldl_tidy l (f s x) hf (hf s x h)
theorem foldlSnd_tidy {α β : Type} {f : β × State → α → β × State} : ∀ (l : List α) (p : β × State),
    (∀ p x, Tidy q m p.2 → Tidy q m (f p x).2) → Tidy q m p.2 → Tidy q m (l.foldl f p).2
  | [], _, _, h => h
  | x :: l, p, hf, h => foldlSnd_tidy l (f p x) hf (hf p x h)
theorem foldlFst_tidy {α β : Type} {f : State × β → α → State × β} : ∀ (l : List α) (p : State × β),
    (∀ p x, Tidy q m p.1 → Tidy q m (f p x).1) → Tidy q m p.1 → Tidy q m (l.foldl f p).1
  | [], _, _, h => h
  | x :: l, p, hf, h => foldlFst_tidy l (f p x) hf (hf p x h)
theorem setReg_tidy : ∀ s a w, Tidy q m s → Tidy q m (State.setReg s a w) := fun _ _ _ h => ⟨h.1, setReg_canonical h.2.1, h.2.2⟩
theorem latch_tidy : ∀ s a, Tidy q m s → Tidy q m (State.latch s a) := fun _ _ h => ⟨h.1, latch_canonical h.2.1, h.2.2⟩
theorem setOctet_tidy : ∀ s a b, Tidy q none s → Tidy q none (State.setOctet s a b) :=
  fun _ _ _ h => ⟨h.1, setOctet_canonical h.2.1, fun _ e => by cases e⟩
theorem forEach_tidy : ∀ (α : Type) (s : State) (l : List α) (f : α → State → State), Tidy q m s → (∀ x t, Tidy q m t → Tidy q m (f x t)) →
    Tidy q m (@State.forEach α s l f) := fun _ s l _ h hf => foldl_tidy l s (fun t x => hf x t) h
theorem sparseWfFrom_filter {α : Type} [DecidableEq α] (d : Nat → α) (p : Nat × α → Bool) : ∀ (l : List (Nat × α)) (b : Nat),
    sparseWfFrom d b l = true → sparseWfFrom d b (l.filter p) = true
  | [], _, h => h
  | e :: l, b, h => by
    simp only [sparseWfFrom, Bool.and_eq_true, Nat.ble_eq] at h
    have ih := sparseWfFrom_filter d p l (e.1 + 1) h.2.2
    by_cases hp : p e = true
    · rw [List.filter_cons_of_pos hp]
      simp only [sparseWfFrom, Bool.and_eq_true, Nat.ble_eq]
      exact ⟨h.1, h.2.1, ih⟩
    · rw [List.filter_cons_of_neg hp]
      exact sparseWfFrom_mono d (by omega) _ ih
/-- A filter over the memory and any change beside memory, registers, latched copies and queue. -/
theorem Tidy.filterMem {s t : State} (p : Nat × Byte → Bool) (h : Tidy q none s) (h1 : t.pending = s.pending) (h2 : t.mem = s.mem.filter p)
    (h3 : t.regs = s.regs) (h4 : t.latched = s.latched) : Tidy q none t := by
  unfold Tidy State.Canonical Memory.wf sparseWf at *
  rw [h1, h2, h3, h4]
  exact ⟨h.1, ⟨sparseWfFrom_filter _ _ _ _ h.2.1.1, h.2.1.2⟩, fun _ e => by cases e⟩
theorem setOctetsLE_tidy : ∀ s a n v, Tidy q none s → Tidy q none (State.setOctetsLE s a n v) := by
  intro s a n
  induction n generalizing s a with
  | zero => intro v h; exact h
  | succ n ih => intro v h; exact ih _ _ _ (setOctet_tidy _ _ _ h)
theorem latchRange_tidy : ∀ s a n, Tidy q m s → Tidy q m (State.latchRange s a n) := by
  intro s a n
  induction n generalizing s a with
  | zero => intro h; exact h
  | succ n ih => intro h; exact ih _ _ (latch_tidy _ _ h)
theorem putOctets_tidy : ∀ s a l, Tidy q none s → Tidy q none (State.putOctets s a l) := by
  intro s a l
  induction l generalizing s a with
  | nil => intro h; exact h
  | cons b l ih => intro h; exact ih _ _ (setOctet_tidy _ _ _ h)
theorem putList_tidy : ∀ (α : Type) (s : State) (l : List α) (f : Nat → α → State → State), Tidy q m s →
    (∀ k x t, Tidy q m t → Tidy q m (f k x t)) → Tidy q m (@State.putList α s l f) := by
  intro α s l f h hf
  unfold State.putList
  have : ∀ (l : List α) (p : Nat × State), Tidy q m p.2 → Tidy q m (l.foldl (fun (p : Nat × State) x => (p.1 + 1, f p.1 x p.2)) p).2 := by
    intro l
    induction l with
    | nil => intro p hp; exact hp
    | cons x l ih => intro p hp; exact ih _ (hf _ _ _ hp)
  exact this l (0, s) h

/-! ### Ops -/

theorem plySend_tidy : ∀ s x1, Tidy q m s → Tidy q m (@State.plySend s x1) := by
  intro s x1 h0_
  unfold State.plySend
  refine Tidy.ite ?_ ?_
  · refine Tidy.upd (s := s) ?_ rfl rfl rfl rfl
    assumption
  · assumption

theorem setReg64_tidy : ∀ s alo ahi n, Tidy q m s → Tidy q m (@State.setReg64 s alo ahi n) := by
  intro s alo ahi n h0_
  unfold State.setReg64
  refine setReg_tidy _ _ _ ?_
  refine setReg_tidy _ _ _ ?_
  assumption

theorem setBit_tidy : ∀ s a i b, Tidy q m s → Tidy q m (@State.setBit s a i b) := by
  intro s a i b h0_
  unfold State.setBit
  refine setReg_tidy _ _ _ ?_
  assumption

theorem msix_tidy : ∀ s n, Tidy q m s → Tidy q m (@State.msix s n) := by
  intro s n h0_
  unfold State.msix
  refine Tidy.ite ?_ ?_
  · refine Tidy.ite ?_ ?_
    · refine setBit_tidy _ _ _ _ ?_
      assumption
    · refine Tidy.upd (s := s) ?_ rfl rfl rfl rfl
      assumption
  · assumption

theorem setFld_tidy : ∀ s a f v, Tidy q m s → Tidy q m (@State.setFld s a f v) := by
  intro s a f v h0_
  unfold State.setFld
  refine setReg_tidy _ _ _ ?_
  assumption

theorem qPost_tidy : ∀ s r e, Tidy q m s → Tidy q m (@State.qPost s r e) := by
  intro s r e h0_
  unfold State.qPost
  extract_lets +onlyGivenNames v0
  clear_value v0
  extract_lets +onlyGivenNames s1
  have hs1 : Tidy q m (s1) := by
    unfold s1
    refine Tidy.upd (s := s) ?_ rfl rfl rfl rfl
    assumption
  clear_value s1
  refine setFld_tidy _ _ _ _ ?_
  assumption

theorem raiseCore_tidy : ∀ s src p3, Tidy q m s → Tidy q m (@State.raiseCore s src p3).2 := by
  intro s src p3 h0_
  unfold State.raiseCore
  split
  · rename_i b0
    dsimp only
    refine Tidy.upd (s := s) ?_ rfl rfl rfl rfl
    assumption
  · rename_i b1
    extract_lets +onlyGivenNames s2 s3
    have hs2 : Tidy q m (s2) := by
      unfold s2
      refine setBit_tidy _ _ _ _ ?_
      assumption
    clear_value s2
    have hs3 : Tidy q m (s3) := by
      unfold s3
      refine Tidy.ite ?_ ?_
      · assumption
      · refine msix_tidy _ _ ?_
        assumption
    clear_value s3
    split
    · rename_i b4
      dsimp only
      assumption
    · rename_i b5
      extract_lets +onlyGivenNames v6 s7
      clear_value v6
      have hs7 : Tidy q m (s7) := by
        unfold s7
        refine qPost_tidy _ _ _ ?_
        assumption
      clear_value s7
      dsimp only
      refine Tidy.upd (s := s7) ?_ rfl rfl rfl rfl
      assumption

theorem countDrop_tidy : ∀ s, Tidy q m s → Tidy q m (@State.countDrop s) := by
  intro s h0_
  unfold State.countDrop
  refine setFld_tidy _ _ _ _ ?_
  assumption

theorem nextFree_tidy : ∀ s, Tidy q m s → Tidy q m (@State.nextFree s).2 := by
  intro s h0_
  unfold State.nextFree
  dsimp only
  refine Tidy.upd (s := s) ?_ rfl rfl rfl rfl
  assumption

theorem ringDrop_tidy : ∀ s r, Tidy q m s → Tidy q m (@State.ringDrop s r) := by
  intro s r h0_
  unfold State.ringDrop
  extract_lets +onlyGivenNames s0
  have hs0 : Tidy q m (s0) := by
    unfold s0
    refine countDrop_tidy _ ?_
    assumption
  clear_value s0
  have h1 : Tidy q m (s0.raiseCore Ev.HST_RING_DROP (BitVec.ofNat 32 r)).2 := by
    refine raiseCore_tidy _ _ _ ?_
    assumption
  split
  rename_i b2 b3 b4 b5
  have e6 : Tidy q m b4 := by rw [b5] at h1; exact h1
  extract_lets +onlyGivenNames s7
  have hs7 : Tidy q m (s7) := by
    unfold s7
    refine Tidy.ite ?_ ?_
    · refine raiseCore_tidy _ _ _ ?_
      refine countDrop_tidy _ ?_
      assumption
    · assumption
  clear_value s7
  refine Tidy.ite ?_ ?_
  · have h8 : Tidy q m (s7.nextFree).2 := by
      refine nextFree_tidy _ ?_
      assumption
    split
    rename_i b9 b10 b11 b12
    have e13 : Tidy q m b11 := by rw [b12] at h8; exact h8
    refine raiseCore_tidy _ _ _ ?_
    refine setReg_tidy _ _ _ ?_
    assumption
  · assumption

theorem raise_tidy : ∀ s src p3, Tidy q m s → Tidy q m (@State.raise s src p3) := by
  intro s src p3 h0_
  unfold State.raise
  have h0 : Tidy q m (s.raiseCore src (BitVec.ofNat 32 p3)).2 := by
    refine raiseCore_tidy _ _ _ ?_
    assumption
  split
  rename_i b1 b2 b3 b4
  have e5 : Tidy q m b3 := by rw [b4] at h0; exact h0
  refine Tidy.ite ?_ ?_
  · refine ringDrop_tidy _ _ ?_
    assumption
  · assumption

theorem note_tidy : ∀ s code ps, Tidy q m s → Tidy q m (@State.note s code ps) := by
  intro s code ps h0_
  unfold State.note
  refine Tidy.upd (s := s) ?_ rfl rfl rfl rfl
  assumption

theorem incSat_tidy : ∀ s a f src p3, Tidy q m s → Tidy q m (@State.incSat s a f src p3) := by
  intro s a f src p3 h0_
  unfold State.incSat
  extract_lets +onlyGivenNames v0
  clear_value v0
  refine Tidy.ite ?_ ?_
  · assumption
  · extract_lets +onlyGivenNames s1
    have hs1 : Tidy q m (s1) := by
      unfold s1
      refine setFld_tidy _ _ _ _ ?_
      assumption
    clear_value s1
    refine Tidy.ite ?_ ?_
    · refine raise_tidy _ _ _ ?_
      assumption
    · assumption

theorem raiseLim_tidy : ∀ s src item p3, Tidy q m s → Tidy q m (@State.raiseLim s src item p3) := by
  intro s src item p3 h0_
  unfold State.raiseLim
  extract_lets +onlyGivenNames v0 v1
  clear_value v0
  clear_value v1
  refine Tidy.ite ?_ ?_
  · assumption
  · refine raise_tidy _ _ _ ?_
    refine Tidy.upd (s := s) ?_ rfl rfl rfl rfl
    assumption

theorem qTake_tidy : ∀ s r, Tidy q m s → Tidy q m (@State.qTake s r) := by
  intro s r h0_
  unfold State.qTake
  refine setFld_tidy _ _ _ _ ?_
  assumption

theorem respond_tidy : ∀ s e, Tidy q m s → Tidy q m (@State.respond s e) := by
  intro s e h0_
  unfold State.respond
  refine Tidy.ite ?_ ?_
  · refine Tidy.upd (s := s) ?_ rfl rfl rfl rfl
    assumption
  · refine qPost_tidy _ _ _ ?_
    assumption

theorem incWrap_tidy : ∀ s a f, Tidy q m s → Tidy q m (@State.incWrap s a f) := by
  intro s a f h0_
  unfold State.incWrap
  refine setFld_tidy _ _ _ _ ?_
  assumption

theorem supFault_tidy : ∀ s row engine, Tidy q m s → Tidy q m (@State.supFault s row engine) := by
  intro s row engine h0_
  unfold State.supFault
  have h0 : Tidy q m (s.nextFree).2 := by
    refine nextFree_tidy _ ?_
    assumption
  split
  rename_i b1 b2 b3 b4
  have e5 : Tidy q m b3 := by rw [b4] at h0; exact h0
  extract_lets +onlyGivenNames v6
  clear_value v6
  refine raiseLim_tidy _ _ _ _ ?_
  refine setReg_tidy _ _ _ ?_
  assumption

theorem supCount_tidy : ∀ s a f, Tidy q m s → Tidy q m (@State.supCount s a f) := by
  intro s a f h0_
  unfold State.supCount
  extract_lets +onlyGivenNames v0
  clear_value v0
  refine Tidy.ite ?_ ?_
  · assumption
  · extract_lets +onlyGivenNames s1
    have hs1 : Tidy q m (s1) := by
      unfold s1
      refine setFld_tidy _ _ _ _ ?_
      assumption
    clear_value s1
    refine Tidy.ite ?_ ?_
    · refine supFault_tidy _ _ _ ?_
      assumption
    · assumption

theorem engineWrite_tidy : ∀ s e a, Tidy q m s → Tidy q m (@State.engineWrite s e a) := by
  intro s e a h0_
  unfold State.engineWrite
  refine Tidy.ite ?_ ?_
  · refine supFault_tidy _ _ _ ?_
    refine supCount_tidy _ _ _ ?_
    assumption
  · assumption

theorem lastErr_tidy : ∀ s object cause, Tidy q m s → Tidy q m (@State.lastErr s object cause) := by
  intro s object cause h0_
  unfold State.lastErr
  refine raise_tidy _ _ _ ?_
  refine setReg_tidy _ _ _ ?_
  assumption

theorem incSatQuiet_tidy : ∀ s a f, Tidy q m s → Tidy q m (@State.incSatQuiet s a f) := by
  intro s a f h0_
  unfold State.incSatQuiet
  refine setFld_tidy _ _ _ _ ?_
  assumption

theorem refuseObject_tidy : ∀ s ty cause, Tidy q m s → Tidy q m (@State.refuseObject s ty cause) := by
  intro s ty cause h0_
  unfold State.refuseObject
  refine lastErr_tidy _ _ _ ?_
  refine incSatQuiet_tidy _ _ _ ?_
  assumption

theorem postOrDrop_tidy : ∀ s r e, Tidy q m s → Tidy q m (@State.postOrDrop s r e) := by
  intro s r e h0_
  unfold State.postOrDrop
  refine Tidy.ite ?_ ?_
  · refine ringDrop_tidy _ _ ?_
    assumption
  · refine qPost_tidy _ _ _ ?_
    assumption

/-! ### Operands -/

theorem writeBit_tidy : ∀ c s area i b, Tidy q none s → Tidy q none (@writeBit c s area i b).2 := by
  intro c s area i b h0_
  unfold writeBit
  extract_lets +onlyGivenNames v0
  clear_value v0
  split
  · rename_i b1
    dsimp only
    assumption
  · rename_i b2
    dsimp only
    refine setOctet_tidy _ _ _ ?_
    assumption
  · rename_i b3
    dsimp only
    refine setOctet_tidy _ _ _ ?_
    assumption
  · rename_i b4 b5 b6 b7
    dsimp only
    assumption

theorem writeWord_tidy : ∀ c s area size i v, Tidy q none s → Tidy q none (@writeWord c s area size i v).2 := by
  intro c s area size i v h0_
  unfold writeWord
  extract_lets +onlyGivenNames v0
  clear_value v0
  split
  · rename_i b1
    dsimp only
    assumption
  · rename_i b2
    extract_lets +onlyGivenNames v3 v4 v5
    clear_value v3
    clear_value v4
    clear_value v5
    dsimp only
    refine setOctetsLE_tidy _ _ _ _ ?_
    assumption
  · rename_i b6
    dsimp only
    refine setOctetsLE_tidy _ _ _ _ ?_
    assumption
  · rename_i b7 b8 b9 b10
    dsimp only
    assumption

/-! ### Trip -/

theorem drivePins_tidy : ∀ s, Tidy q m s → Tidy q m (@State.drivePins s) := by
  intro s h0_
  unfold State.drivePins
  extract_lets +onlyGivenNames v0 v1
  clear_value v0
  clear_value v1
  refine setFld_tidy _ _ _ _ ?_
  refine Tidy.upd (s := s) ?_ rfl rfl rfl rfl
  assumption

theorem gateGout_tidy : ∀ s, Tidy q m s → Tidy q m (@State.gateGout s) := by
  intro s h0_
  unfold State.gateGout
  extract_lets +onlyGivenNames v0 v1 v2
  clear_value v0
  clear_value v1
  clear_value v2
  refine forEach_tidy _ _ _ _ ?_ ?_
  · refine setFld_tidy _ _ _ _ ?_
    assumption
  · intro a3 a4 a5
    refine setBit_tidy _ _ _ _ ?_
    assumption

theorem cflTrigger_tidy : ∀ s c, Tidy q m s → Tidy q m (@State.cflTrigger s c) := by
  intro s c h0_
  unfold State.cflTrigger
  extract_lets +onlyGivenNames v0
  clear_value v0
  refine forEach_tidy _ _ _ _ ?_ ?_
  · assumption
  · intro a1 a2 a3
    split
    · rename_i b4 b5 b6 b7
      extract_lets +onlyGivenNames v8
      clear_value v8
      refine Tidy.ite ?_ ?_
      · assumption
      · refine Tidy.upd (s := a2) ?_ rfl rfl rfl rfl
        assumption
    · rename_i b9 b10
      assumption

theorem interruptOpen_tidy : ∀ s c, Tidy q m s → Tidy q m (@State.interruptOpen s c) := by
  intro s c h0_
  unfold State.interruptOpen
  refine Tidy.ite ?_ ?_
  · assumption
  · refine Tidy.upd (s := s) ?_ rfl rfl rfl rfl
    assumption

theorem channelAssert_tidy : ∀ s c, Tidy q m s → Tidy q m (@State.channelAssert s c) := by
  intro s c h0_
  unfold State.channelAssert
  extract_lets +onlyGivenNames s0 v1 s2 s3
  have hs0 : Tidy q m (s0) := by
    unfold s0
    refine setBit_tidy _ _ _ _ ?_
    refine setBit_tidy _ _ _ _ ?_
    assumption
  clear_value s0
  clear_value v1
  have hs2 : Tidy q m (s2) := by
    unfold s2
    refine Tidy.upd (s := s0) ?_ rfl rfl rfl rfl
    assumption
  clear_value s2
  have hs3 : Tidy q m (s3) := by
    unfold s3
    refine raise_tidy _ _ _ ?_
    refine incSat_tidy _ _ _ _ _ ?_
    assumption
  clear_value s3
  extract_lets +onlyGivenNames v4
  clear_value v4
  extract_lets +onlyGivenNames s5
  have hs5 : Tidy q m (s5) := by
    unfold s5
    refine Tidy.upd (s := s3) ?_ rfl rfl rfl rfl
    assumption
  clear_value s5
  refine cflTrigger_tidy _ _ ?_
  refine interruptOpen_tidy _ _ ?_
  assumption

theorem channelRelease_tidy : ∀ s c, Tidy q m s → Tidy q m (@State.channelRelease s c) := by
  intro s c h0_
  unfold State.channelRelease
  extract_lets +onlyGivenNames v0
  clear_value v0
  extract_lets +onlyGivenNames s1
  have hs1 : Tidy q m (s1) := by
    unfold s1
    refine Tidy.upd (s := s) ?_ rfl rfl rfl rfl
    assumption
  clear_value s1
  refine raise_tidy _ _ _ ?_
  refine setBit_tidy _ _ _ _ ?_
  refine setBit_tidy _ _ _ _ ?_
  assumption

theorem channelEval_tidy : ∀ s c, Tidy q m s → Tidy q m (@State.channelEval s c) := by
  intro s c h0_
  unfold State.channelEval
  extract_lets +onlyGivenNames v0
  clear_value v0
  refine Tidy.ite ?_ ?_
  · refine Tidy.ite ?_ ?_
    · refine channelAssert_tidy _ _ ?_
      assumption
    · assumption
  · refine Tidy.ite ?_ ?_
    · assumption
    · refine Tidy.ite ?_ ?_
      · refine Tidy.ite ?_ ?_
        · refine setBit_tidy _ _ _ _ ?_
          assumption
        · refine Tidy.ite ?_ ?_
          · assumption
          · refine raise_tidy _ _ _ ?_
            refine setBit_tidy _ _ _ _ ?_
            assumption
      · refine Tidy.ite ?_ ?_
        · assumption
        · refine channelRelease_tidy _ _ ?_
          assumption

theorem tripEval_tidy : ∀ s, Tidy q m s → Tidy q m (@State.tripEval s) := by
  intro s h0_
  unfold State.tripEval
  extract_lets +onlyGivenNames s0
  have hs0 : Tidy q m (s0) := by
    unfold s0
    refine drivePins_tidy _ ?_
    refine forEach_tidy _ _ _ _ ?_ ?_
    · assumption
    · intro a1 a2 a3
      refine channelEval_tidy _ _ ?_
      assumption
  clear_value s0
  refine Tidy.ite ?_ ?_
  · assumption
  · refine plySend_tidy _ _ ?_
    assumption

theorem setHeddle_tidy : ∀ s h x, Tidy q m s → Tidy q m (@State.setHeddle s h x) := by
  intro s h x h0_
  unfold State.setHeddle
  refine Tidy.upd (s := s) ?_ rfl rfl rfl rfl
  assumption

theorem setGout_tidy : ∀ s g b, Tidy q m s → Tidy q m (@State.setGout s g b) := by
  intro s g b h0_
  unfold State.setGout
  refine gateGout_tidy _ ?_
  refine setBit_tidy _ _ _ _ ?_
  assumption

theorem wakeNow_tidy : ∀ s c, Tidy q m s → Tidy q m (@State.wakeNow s c) := by
  intro s c h0_
  unfold State.wakeNow
  extract_lets +onlyGivenNames v0
  clear_value v0
  extract_lets +onlyGivenNames s1
  have hs1 : Tidy q m (s1) := by
    unfold s1
    refine Tidy.upd (s := s) ?_ rfl rfl rfl rfl
    assumption
  clear_value s1
  split
  · rename_i b2 b3
    refine setReg_tidy _ _ _ ?_
    refine setFld_tidy _ _ _ _ ?_
    assumption
  · rename_i b4 b5
    refine setReg_tidy _ _ _ ?_
    refine setFld_tidy _ _ _ _ ?_
    assumption
  · rename_i b6 b7 b8
    assumption

theorem wakeFor_tidy : ∀ s c, Tidy q m s → Tidy q m (@State.wakeFor s c) := by
  intro s c h0_
  unfold State.wakeFor
  refine Tidy.ite ?_ ?_
  · refine Tidy.upd (s := s) ?_ rfl rfl rfl rfl
    assumption
  · refine wakeNow_tidy _ _ ?_
    assumption

theorem setLiveOp_tidy : ∀ s x b, Tidy q m s → Tidy q m (@State.setLiveOp s x b) := by
  intro s x b h0_
  unfold State.setLiveOp
  extract_lets +onlyGivenNames v0
  clear_value v0
  refine Tidy.upd (s := s) ?_ rfl rfl rfl rfl
  assumption

theorem arcEval_tidy : ∀ s, Tidy q m s → Tidy q m (@State.arcEval s) := by
  intro s h0_
  unfold State.arcEval
  refine tripEval_tidy _ ?_
  refine forEach_tidy _ _ _ _ ?_ ?_
  · assumption
  · intro a0 a1 a2
    refine setLiveOp_tidy _ _ _ ?_
    assumption

theorem countSkip_tidy : ∀ s h t, Tidy q m s → Tidy q m (@State.countSkip s h t) := by
  intro s h t h0_
  unfold State.countSkip
  refine incSat_tidy _ _ _ _ _ ?_
  assumption

theorem postRelease_tidy : ∀ s h r, Tidy q m s → Tidy q m (@State.postRelease s h r) := by
  intro s h r h0_
  unfold State.postRelease
  extract_lets +onlyGivenNames v0
  clear_value v0
  refine Tidy.ite ?_ ?_
  · refine raise_tidy _ _ _ ?_
    refine countSkip_tidy _ _ _ ?_
    assumption
  · refine wakeFor_tidy _ _ ?_
    refine setHeddle_tidy _ _ _ ?_
    assumption

theorem releaseEvent_tidy : ∀ s h t, Tidy q m s → Tidy q m (@State.releaseEvent s h t) := by
  intro s h t h0_
  unfold State.releaseEvent
  refine Tidy.ite ?_ ?_
  · assumption
  · refine Tidy.ite ?_ ?_
    · refine raise_tidy _ _ _ ?_
      refine countSkip_tidy _ _ _ ?_
      assumption
    · refine Tidy.ite ?_ ?_
      · assumption
      · refine Tidy.ite ?_ ?_
        · refine raise_tidy _ _ _ ?_
          refine countSkip_tidy _ _ _ ?_
          assumption
        · refine postRelease_tidy _ _ _ ?_
          assumption

theorem releaseBySource_tidy : ∀ s src index, Tidy q m s → Tidy q m (@State.releaseBySource s src index) := by
  intro s src index h0_
  unfold State.releaseBySource
  refine forEach_tidy _ _ _ _ ?_ ?_
  · assumption
  · intro a0 a1 a2
    refine releaseEvent_tidy _ _ _ ?_
    assumption

theorem arcSample_tidy : ∀ s phase x f inst, Tidy q m s → Tidy q m (@State.arcSample s phase x f inst) := by
  intro s phase x f inst h0_
  unfold State.arcSample
  extract_lets +onlyGivenNames v0 v1 v2 v3 v4
  clear_value v0
  clear_value v1
  clear_value v2
  clear_value v3
  clear_value v4
  extract_lets +onlyGivenNames s5
  have hs5 : Tidy q m (s5) := by
    unfold s5
    refine Tidy.upd (s := s) ?_ rfl rfl rfl rfl
    assumption
  clear_value s5
  refine Tidy.ite ?_ ?_
  · refine Tidy.upd (s := s5) ?_ rfl rfl rfl rfl
    assumption
  · refine Tidy.ite ?_ ?_
    · refine Tidy.upd (s := s5) ?_ rfl rfl rfl rfl
      assumption
    · assumption

theorem awake_tidy : ∀ s f, Tidy q m s → (∀ y0, Tidy q m y0 → Tidy q m (f y0)) → Tidy q m (@State.awake s f) := by
  intro s f h0_ h1_
  unfold State.awake
  refine Tidy.ite ?_ ?_
  · assumption
  · refine h1_ _ ?_
    assumption

theorem channelReset_tidy : ∀ s c, Tidy q m s → Tidy q m (@State.channelReset s c).2 := by
  intro s c h0_
  unfold State.channelReset
  split
  · rename_i b0
    dsimp only
    assumption
  · rename_i b1
    split
    · rename_i b2
      dsimp only
      refine raise_tidy _ _ _ ?_
      assumption
    · rename_i b3
      split
      · rename_i b4
        dsimp only
        refine Tidy.upd (s := s) ?_ rfl rfl rfl rfl
        assumption
      · rename_i b5
        dsimp only
        refine drivePins_tidy _ ?_
        refine channelRelease_tidy _ _ ?_
        assumption

theorem wmOutputs_tidy : ∀ s, Tidy q m s → Tidy q m (@State.wmOutputs s) := by
  intro s h0_
  unfold State.wmOutputs
  refine arcEval_tidy _ ?_
  refine forEach_tidy _ _ _ _ ?_ ?_
  · assumption
  · intro a0 a1 a2
    extract_lets +onlyGivenNames v3 v4 s5
    clear_value v3
    clear_value v4
    have hs5 : Tidy q m (s5) := by
      unfold s5
      refine setBit_tidy _ _ _ _ ?_
      assumption
    clear_value s5
    refine Tidy.ite ?_ ?_
    · refine raise_tidy _ _ _ ?_
      assumption
    · assumption

theorem feedSample_tidy : ∀ bay phase x f s, Tidy q m s → Tidy q m (@State.feedSample bay phase x f s) := by
  intro bay phase x f s h0_
  unfold State.feedSample
  extract_lets +onlyGivenNames v0 v1 v2 v3 v4 v5 v6 v7 v8 v9 s10 s11
  clear_value v0
  clear_value v1
  clear_value v2
  clear_value v3
  clear_value v4
  clear_value v5
  clear_value v6
  clear_value v7
  clear_value v8
  clear_value v9
  have hs10 : Tidy q m (s10) := by
    unfold s10
    refine Tidy.upd (s := s) ?_ rfl rfl rfl rfl
    assumption
  clear_value s10
  have hs11 : Tidy q m (s11) := by
    unfold s11
    refine Tidy.ite ?_ ?_
    · refine setBit_tidy _ _ _ _ ?_
      assumption
    · assumption
  clear_value s11
  extract_lets +onlyGivenNames s12
  have hs12 : Tidy q m (s12) := by
    unfold s12
    refine forEach_tidy _ _ _ _ ?_ ?_
    · assumption
    · intro a13 a14 a15
      refine arcSample_tidy _ _ _ _ _ ?_
      assumption
  clear_value s12
  refine wmOutputs_tidy _ ?_
  assumption

theorem arcTake_tidy : ∀ s b, Tidy q m s → Tidy q m (@State.arcTake s b) := by
  intro s b h0_
  unfold State.arcTake
  extract_lets +onlyGivenNames v0
  clear_value v0
  refine Tidy.ite ?_ ?_
  · assumption
  · extract_lets +onlyGivenNames w0 s1 s2 v3 v4
    clear_value w0
    have hs1 : Tidy q m (s1) := by
      unfold s1
      refine Tidy.upd (s := s) ?_ rfl rfl rfl rfl
      assumption
    clear_value s1
    have hs2 : Tidy q m (s2) := by
      unfold s2
      refine forEach_tidy _ _ _ _ ?_ ?_
      · assumption
      · intro a5 a6 a7
        refine setReg_tidy _ _ _ ?_
        assumption
    clear_value s2
    clear_value v3
    clear_value v4
    extract_lets +onlyGivenNames w1 s3 s4
    clear_value w1
    have hs3 : Tidy q m (s3) := by
      unfold s3
      refine Tidy.upd (s := s2) ?_ rfl rfl rfl rfl
      assumption
    clear_value s3
    have hs4 : Tidy q m (s4) := by
      unfold s4
      refine forEach_tidy _ _ _ _ ?_ ?_
      · assumption
      · intro a8 a9 a10
        refine Tidy.ite ?_ ?_
        · assumption
        · refine setLiveOp_tidy _ _ _ ?_
          assumption
    clear_value s4
    refine raise_tidy _ _ _ ?_
    assumption

theorem doArcHoldExpire_tidy : ∀ x light s, Tidy q m s → Tidy q m (@doArcHoldExpire x light s) := by
  intro x light s h0_
  unfold doArcHoldExpire
  extract_lets +onlyGivenNames v0
  clear_value v0
  split
  · rename_i b1
    assumption
  · rename_i b2 b3
    refine Tidy.ite ?_ ?_
    · assumption
    · refine Tidy.ite ?_ ?_
      · refine arcEval_tidy _ ?_
        refine Tidy.upd (s := s) ?_ rfl rfl rfl rfl
        assumption
      · refine arcEval_tidy _ ?_
        refine Tidy.upd (s := s) ?_ rfl rfl rfl rfl
        assumption

theorem doLightAssert_tidy : ∀ i s, Tidy q m s → Tidy q m (@doLightAssert i s) := by
  intro i s h0_
  unfold doLightAssert
  refine Tidy.ite ?_ ?_
  · assumption
  · extract_lets +onlyGivenNames s0 v1
    have hs0 : Tidy q m (s0) := by
      unfold s0
      refine raise_tidy _ _ _ ?_
      refine setBit_tidy _ _ _ _ ?_
      assumption
    clear_value s0
    clear_value v1
    refine arcEval_tidy _ ?_
    refine Tidy.upd (s := s0) ?_ rfl rfl rfl rfl
    assumption

theorem doLightRelease_tidy : ∀ i s, Tidy q m s → Tidy q m (@doLightRelease i s) := by
  intro i s h0_
  unfold doLightRelease
  refine Tidy.ite ?_ ?_
  · assumption
  · extract_lets +onlyGivenNames s0 v1
    have hs0 : Tidy q m (s0) := by
      unfold s0
      refine setBit_tidy _ _ _ _ ?_
      assumption
    clear_value s0
    clear_value v1
    refine arcEval_tidy _ ?_
    refine Tidy.upd (s := s0) ?_ rfl rfl rfl rfl
    assumption

theorem doTripFbChange_tidy : ∀ p level s, Tidy q m s → Tidy q m (@doTripFbChange p level s) := by
  intro p level s h0_
  unfold doTripFbChange
  refine setBit_tidy _ _ _ _ ?_
  assumption

theorem doTripPulseEnd_tidy : ∀ ch s, Tidy q m s → Tidy q m (@doTripPulseEnd ch s) := by
  intro ch s h0_
  unfold doTripPulseEnd
  extract_lets +onlyGivenNames v0
  clear_value v0
  refine Tidy.ite ?_ ?_
  · assumption
  · extract_lets +onlyGivenNames s1 v2
    have hs1 : Tidy q m (s1) := by
      unfold s1
      refine setBit_tidy _ _ _ _ ?_
      assumption
    clear_value s1
    clear_value v2
    extract_lets +onlyGivenNames s3
    have hs3 : Tidy q m (s3) := by
      unfold s3
      refine Tidy.upd (s := s1) ?_ rfl rfl rfl rfl
      assumption
    clear_value s3
    refine Tidy.ite ?_ ?_
    · refine tripEval_tidy _ ?_
      refine channelRelease_tidy _ _ ?_
      assumption
    · refine tripEval_tidy _ ?_
      refine Tidy.upd (s := s3) ?_ rfl rfl rfl rfl
      assumption

theorem doWatchmanDrop_tidy : ∀ bay s, Tidy q m s → Tidy q m (@doWatchmanDrop bay s) := by
  intro bay s h0_
  unfold doWatchmanDrop
  refine Tidy.ite ?_ ?_
  · refine wmOutputs_tidy _ ?_
    refine forEach_tidy _ _ _ _ ?_ ?_
    · assumption
    · intro a0 a1 a2
      refine setBit_tidy _ _ _ _ ?_
      assumption
  · assumption

/-! ### Lanes -/

theorem setLane_tidy : ∀ s x l, Tidy q m s → Tidy q m (@State.setLane s x l) := by
  intro s x l h0_
  unfold State.setLane
  refine Tidy.upd (s := s) ?_ rfl rfl rfl rfl
  assumption

theorem trackerClear_tidy : ∀ s x, Tidy q m s → Tidy q m (@State.trackerClear s x) := by
  intro s x h0_
  unfold State.trackerClear
  extract_lets +onlyGivenNames s0
  have hs0 : Tidy q m (s0) := by
    unfold s0
    refine forEach_tidy _ _ _ _ ?_ ?_
    · assumption
    · intro a1 a2 a3
      refine setReg_tidy _ _ _ ?_
      assumption
  clear_value s0
  refine setBit_tidy _ _ _ _ ?_
  assumption

theorem trackSample_tidy : ∀ s x v f t, Tidy q m s → Tidy q m (@State.trackSample s x v f t) := by
  intro s x v f t h0_
  unfold State.trackSample
  extract_lets +onlyGivenNames v0 v1 s2 s3
  clear_value v0
  clear_value v1
  have hs2 : Tidy q m (s2) := by
    unfold s2
    refine Tidy.ite ?_ ?_
    · refine setFld_tidy _ _ _ _ ?_
      refine setReg64_tidy _ _ _ _ ?_
      refine setReg_tidy _ _ _ ?_
      assumption
    · assumption
  clear_value s2
  have hs3 : Tidy q m (s3) := by
    unfold s3
    refine Tidy.ite ?_ ?_
    · refine setFld_tidy _ _ _ _ ?_
      refine setReg64_tidy _ _ _ _ ?_
      refine setReg_tidy _ _ _ ?_
      assumption
    · assumption
  clear_value s3
  refine setBit_tidy _ _ _ _ ?_
  assumption

theorem trackerReset_tidy : ∀ s x, Tidy q m s → Tidy q m (@State.trackerReset s x) := by
  intro s x h0_
  unfold State.trackerReset
  extract_lets +onlyGivenNames s0
  have hs0 : Tidy q m (s0) := by
    unfold s0
    refine trackerClear_tidy _ _ ?_
    assumption
  clear_value s0
  split
  · rename_i b1 b2 b3
    refine Tidy.ite ?_ ?_
    · refine trackSample_tidy _ _ _ _ _ ?_
      assumption
    · assumption
  · rename_i b4 b5
    assumption

/-! ### Requests -/

theorem setLink_tidy : ∀ s b w, Tidy q m s → Tidy q m (State.setLink s b w) := by
  intro s b w h
  unfold State.setLink
  exact Tidy.ite (setReg_tidy _ _ _ h) h
theorem capLink_tidy : ∀ s l, Tidy q m s → Tidy q m (State.capLink s l) := by
  intro s l
  fun_induction State.capLink s l with
  | case1 => intro h; exact h
  | case2 => intro h; exact setLink_tidy _ _ _ h
  | case3 s b c l ih => intro h; exact ih (setLink_tidy _ _ _ h)

theorem atApply_tidy : ∀ s a, Tidy q m s → Tidy q m (@State.atApply s a) := by
  intro s a h0_
  unfold State.atApply
  refine Tidy.upd (s := s) ?_ rfl rfl rfl rfl
  assumption

theorem ovlSync_tidy : ∀ s, Tidy q m s → Tidy q m (@State.ovlSync s) := by
  intro s h0_
  unfold State.ovlSync
  extract_lets +onlyGivenNames s0
  have hs0 : Tidy q m (s0) := by
    unfold s0
    refine setFld_tidy _ _ _ _ ?_
    assumption
  clear_value s0
  split
  · rename_i b1 b2
    refine setReg64_tidy _ _ _ _ ?_
    refine setFld_tidy _ _ _ _ ?_
    assumption
  · rename_i b3 b4 b5 b6
    refine setReg64_tidy _ _ _ _ ?_
    refine setFld_tidy _ _ _ _ ?_
    assumption

theorem ovlRequest_tidy : ∀ s k src t0, Tidy q m s → Tidy q m (@State.ovlRequest s k src t0).2 := by
  intro s k src t0 h0_
  unfold State.ovlRequest
  split
  · rename_i b0
    dsimp only
    assumption
  · rename_i b1
    extract_lets +onlyGivenNames v2 v3
    have hv2 : ∀ x0, Tidy q m (v2 x0).2 := by
      intro a4
      unfold v2
      dsimp only
      refine setFld_tidy _ _ _ _ ?_
      refine setFld_tidy _ _ _ _ ?_
      assumption
    clear_value v2
    clear_value v3
    split
    · rename_i b5
      refine hv2  ?_
    · rename_i b6
      split
      · rename_i b7
        refine hv2  ?_
      · rename_i b8
        extract_lets +onlyGivenNames v9 v10
        clear_value v9
        clear_value v10
        extract_lets +onlyGivenNames s11
        have hs11 : Tidy q m (s11) := by
          unfold s11
          refine ovlSync_tidy _ ?_
          refine Tidy.upd (s := s) ?_ rfl rfl rfl rfl
          assumption
        clear_value s11
        dsimp only
        refine Tidy.ite ?_ ?_
        · refine plySend_tidy _ _ ?_
          assumption
        · assumption

theorem setSlice_tidy : ∀ s k x, Tidy q m s → Tidy q m (@State.setSlice s k x) := by
  intro s k x h0_
  unfold State.setSlice
  refine Tidy.upd (s := s) ?_ rfl rfl rfl rfl
  assumption

theorem urgDrop_tidy : ∀ s src, Tidy q m s → Tidy q m (@State.urgDrop s src) := by
  intro s src h0_
  unfold State.urgDrop
  split
  · rename_i b0
    refine incSat_tidy _ _ _ _ _ ?_
    assumption
  · rename_i b1
    refine incSat_tidy _ _ _ _ _ ?_
    assumption
  · rename_i b2 b3 b4
    refine incSat_tidy _ _ _ _ _ ?_
    assumption

theorem urgentRequest_tidy : ∀ s u k, Tidy q m s → Tidy q m (@State.urgentRequest s u k).2 := by
  intro s u k h0_
  unfold State.urgentRequest
  split
  · rename_i b0
    dsimp only
    assumption
  · rename_i b1
    split
    · rename_i b2
      dsimp only
      refine urgDrop_tidy _ _ ?_
      assumption
    · rename_i b3
      split
      · rename_i b4 b5
        dsimp only
        refine urgDrop_tidy _ _ ?_
        assumption
      · rename_i b6 b7 b8
        extract_lets +onlyGivenNames v9
        have hv9 : ∀ x0, Tidy q m x0 → Tidy q m (v9 x0) := by
          intro a10 a11
          unfold v9
          refine setSlice_tidy _ _ _ ?_
          assumption
        clear_value v9
        split
        · rename_i b12 b13
          dsimp only
          refine hv9 _ ?_
          assumption
        · rename_i b14 b15 b16
          split
          · rename_i b17
            extract_lets +onlyGivenNames s18
            have hs18 : Tidy q m (s18) := by
              unfold s18
              refine urgDrop_tidy _ _ ?_
              assumption
            clear_value s18
            dsimp only
            refine hv9 _ ?_
            refine Tidy.ite ?_ ?_
            · refine respond_tidy _ _ ?_
              assumption
            · assumption
          · rename_i b19
            dsimp only
            refine urgDrop_tidy _ _ ?_
            assumption

/-! ### CapOps -/

theorem setCapPlan_tidy : ∀ s p x, Tidy q m s → Tidy q m (@State.setCapPlan s p x) := by
  intro s p x h0_
  unfold State.setCapPlan
  refine Tidy.upd (s := s) ?_ rfl rfl rfl rfl
  assumption

theorem capSync_tidy : ∀ s, Tidy q m s → Tidy q m (@State.capSync s) := by
  intro s h0_
  unfold State.capSync
  refine setFld_tidy _ _ _ _ ?_
  refine setFld_tidy _ _ _ _ ?_
  assumption

theorem capNewRing_tidy : ∀ s p, Tidy q m s → Tidy q m (@State.capNewRing s p) := by
  intro s p h0_
  unfold State.capNewRing
  extract_lets +onlyGivenNames v0 v1
  clear_value v0
  clear_value v1
  extract_lets +onlyGivenNames s2
  have hs2 : Tidy q m (s2) := by
    unfold s2
    refine setCapPlan_tidy _ _ _ ?_
    refine capLink_tidy _ _ ?_
    assumption
  clear_value s2
  refine capSync_tidy _ ?_
  refine setFld_tidy _ _ _ _ ?_
  assumption

theorem capUnlink_tidy : ∀ s l, Tidy q m s → Tidy q m (@State.capUnlink s l) := by
  intro s l h0_
  unfold State.capUnlink
  refine forEach_tidy _ _ _ _ ?_ ?_
  · assumption
  · intro a0 a1 a2
    refine setLink_tidy _ _ _ ?_
    assumption

theorem setCapRec_tidy : ∀ s e x, Tidy q m s → Tidy q m (@State.setCapRec s e x) := by
  intro s e x h0_
  unfold State.setCapRec
  refine Tidy.upd (s := s) ?_ rfl rfl rfl rfl
  assumption

theorem capFreeRec_tidy : ∀ s e, Tidy q m s → Tidy q m (@State.capFreeRec s e) := by
  intro s e h0_
  unfold State.capFreeRec
  extract_lets +onlyGivenNames v0 v1 s2 s3
  clear_value v0
  clear_value v1
  have hs2 : Tidy q m (s2) := by
    unfold s2
    refine Tidy.ite ?_ ?_
    · refine raise_tidy _ _ _ ?_
      refine incSat_tidy _ _ _ _ _ ?_
      assumption
    · assumption
  clear_value s2
  have hs3 : Tidy q m (s3) := by
    unfold s3
    refine capUnlink_tidy _ _ ?_
    refine setReg_tidy _ _ _ ?_
    refine setCapRec_tidy _ _ _ ?_
    assumption
  clear_value s3
  refine capSync_tidy _ ?_
  refine Tidy.upd (s := s3) ?_ rfl rfl rfl rfl
  assumption

theorem capMakeRoom_tidy : ∀ s n dir a, Tidy q m s → Tidy q m (@State.capMakeRoom s n dir a).2 := by
  intro s n dir a
  induction a generalizing s with
  | zero => intro h; exact h
  | succ k ih =>
    intro h
    unfold State.capMakeRoom
    split
    · exact h
    · split
      · exact ih _ (capFreeRec_tidy _ _ h)
      · exact h

theorem capOpen_tidy : ∀ s p t c e, Tidy q m s → Tidy q m (@State.capOpen s p t c e) := by
  intro s p t c e h
  unfold State.capOpen
  extract_lets +onlyGivenNames pl num pre post r s2
  have h2 : Tidy q m s2 := setCapRec_tidy _ _ _ h
  clear_value s2 r
  extract_lets +onlyGivenNames pq s3 cq s4
  have h3 : Tidy q m s3 := setCapPlan_tidy _ _ _ h2
  clear_value s3
  have h4 : Tidy q m s4 := Tidy.upd (s := s3) h3 rfl rfl rfl rfl
  clear_value s4
  extract_lets +onlyGivenNames info s5
  have h5 : Tidy q m s5 := setReg_tidy _ _ _ (setReg_tidy _ _ _ (setReg_tidy _ _ _ h4))
  clear_value s5
  extract_lets +onlyGivenNames s6
  have h6 : Tidy q m s6 := capNewRing_tidy _ _ (setReg_tidy _ _ _ h5)
  clear_value s6
  extract_lets +onlyGivenNames s7
  exact raise_tidy _ _ _ (setBit_tidy _ _ _ _ (incWrap_tidy _ _ _ h6))

theorem Tidy.iteSnd {α : Type} {c : Prop} [Decidable c] {a b : α × State} (ha : Tidy q m a.2) (hb : Tidy q m b.2) :
    Tidy q m (if c then a else b).2 := by
  by_cases h : c
  · rw [if_pos h]; exact ha
  · rw [if_neg h]; exact hb

theorem capPick_tidy (room : Bool × State) (p t : Nat) (c : CapCause) (o : Option Nat) : Tidy q m room.2 →
    Tidy q m (match o with
      | none => (false, room.2)
      | some e => (true, room.2.capOpen p t c e)).2 := by
  intro h
  cases o with
  | none => exact h
  | some e => exact capOpen_tidy _ _ _ _ _ h

theorem capRoom_tidy (room : Bool × State) (p t : Nat) (c : CapCause) : Tidy q m room.2 →
    Tidy q m (if !room.1 then (false, (room.2.incSat A.CAP_CNT F.CAP_CNT_REFUSED Ev.CAP_CNT_SAT noIndex).raise Ev.CAP_REFUSED p)
      else match (List.range 64).find? (fun e => room.2.capState e == 0) with
        | none => (false, room.2)
        | some e => (true, room.2.capOpen p t c e)).2 := fun h =>
  Tidy.iteSnd (raise_tidy _ _ _ (incSat_tidy _ _ _ _ _ h)) (capPick_tidy _ _ _ _ _ h)

theorem capStart_tidy : ∀ s p t c, Tidy q m s → Tidy q m (@State.capStart s p t c).2 := by
  intro s p t c h
  rw [State.capStart]
  exact capRoom_tidy _ _ _ _ (capMakeRoom_tidy _ _ _ _ h)

theorem capTell_tidy : ∀ s p t c, Tidy q m s → Tidy q m (@State.capTell s p t c) := by
  intro s p t c h0_
  unfold State.capTell
  extract_lets +onlyGivenNames v0
  clear_value v0
  refine Tidy.ite ?_ ?_
  · refine plySend_tidy _ _ ?_
    assumption
  · refine Tidy.ite ?_ ?_
    · refine plySend_tidy _ _ ?_
      assumption
    · assumption

theorem captureTrigger_tidy : ∀ s p t c, Tidy q m s → Tidy q m (@State.captureTrigger s p t c) := by
  suffices hc : ∀ f, f = @State.captureTrigger → ∀ s p t c, Tidy q m s → Tidy q m (f s p t c) from hc _ rfl
  intro f hf s p t c h
  delta State.captureTrigger at hf
  subst hf
  beta_reduce
  extract_lets +onlyGivenNames start
  have hs : ∀ x, Tidy q m x → Tidy q m (start x) := fun x hx =>
    Tidy.ite (capTell_tidy _ _ _ _ (capStart_tidy _ _ _ _ hx)) (capStart_tidy _ _ _ _ hx)
  clear_value start
  refine Tidy.ite h ?_
  split
  · rename_i e r he
    refine Tidy.ite ?_ (hs _ h)
    extract_lets +onlyGivenNames r1
    exact capTell_tidy _ _ _ _ (setCapRec_tidy _ _ _ h)
  · exact hs _ h

theorem capEdges_tidy : ∀ s p t old new only, Tidy q m s → Tidy q m (@State.capEdges s p t old new only) := by
  intro s p t old new only h0_
  unfold State.capEdges
  refine forEach_tidy _ _ _ _ ?_ ?_
  · assumption
  · intro a0 a1 a2
    refine Tidy.ite ?_ ?_
    · refine captureTrigger_tidy _ _ _ _ ?_
      assumption
    · assumption

theorem planPatch_tidy : ∀ s p t hit f, Tidy q m s → Tidy q m (@State.planPatch s p t hit f) := by
  intro s p t hit f h0_
  unfold State.planPatch
  refine Tidy.ite ?_ ?_
  · assumption
  · extract_lets +onlyGivenNames v0 v1 v2 s3 s4
    clear_value v0
    clear_value v1
    clear_value v2
    have hs3 : Tidy q m (s3) := by
      unfold s3
      refine setCapPlan_tidy _ _ _ ?_
      assumption
    clear_value s3
    have hs4 : Tidy q m (s4) := by
      unfold s4
      refine forEach_tidy _ _ _ _ ?_ ?_
      · assumption
      · intro a5 a6 a7
        split
        · rename_i b8 b9 b10
          refine setCapRec_tidy _ _ _ ?_
          assumption
        · rename_i b11 b12
          assumption
    clear_value s4
    refine capEdges_tidy _ _ _ _ _ _ ?_
    assumption

theorem binCapture_tidy : ∀ s i v ts, Tidy q m s → Tidy q m (@State.binCapture s i v ts) := by
  intro s i v ts h0_
  unfold State.binCapture
  refine forEach_tidy _ _ _ _ ?_ ?_
  · assumption
  · intro a0 a1 a2
    refine planPatch_tidy _ _ _ _ _ ?_
    assumption

/-! ### HeddleOps -/

theorem holdDefaults_tidy : ∀ s, Tidy q m s → Tidy q m (@State.holdDefaults s) := by
  intro s h0_
  unfold State.holdDefaults
  extract_lets +onlyGivenNames v0 v1
  clear_value v0
  clear_value v1
  refine forEach_tidy _ _ _ _ ?_ ?_
  · refine setBit_tidy _ _ _ _ ?_
    refine Tidy.upd (s := s) ?_ rfl rfl rfl rfl
    assumption
  · intro a2 a3 a4
    refine raise_tidy _ _ _ ?_
    assumption

theorem ltrqFollow_tidy : ∀ s, Tidy q m s → Tidy q m (@State.ltrqFollow s) := by
  intro s h0_
  unfold State.ltrqFollow
  extract_lets +onlyGivenNames v0
  clear_value v0
  refine Tidy.ite ?_ ?_
  · assumption
  · refine tripEval_tidy _ ?_
    refine setReg_tidy _ _ _ ?_
    assumption

theorem setMode_tidy : ∀ s x1, Tidy q m s → Tidy q m (@State.setMode s x1) := by
  intro s x1 h0_
  unfold State.setMode
  refine Tidy.ite ?_ ?_
  · assumption
  · refine holdDefaults_tidy _ ?_
    refine ltrqFollow_tidy _ ?_
    refine raise_tidy _ _ _ ?_
    refine setFld_tidy _ _ _ _ ?_
    assumption

theorem goutFollow_tidy : ∀ s, Tidy q m s → Tidy q m (@State.goutFollow s) := by
  intro s h0_
  unfold State.goutFollow
  refine forEach_tidy _ _ _ _ ?_ ?_
  · assumption
  · intro a0 a1 a2
    refine Tidy.ite ?_ ?_
    · assumption
    · refine setGout_tidy _ _ _ ?_
      assumption

theorem qStop_tidy : ∀ s, Tidy q none s → Tidy q none (@State.qStop s) := by
  intro s h
  unfold State.qStop
  extract_lets keep src s0 s1 s2
  have h0 : Tidy q none s0 := Tidy.filterMem (s := s) _ h rfl rfl rfl rfl
  have h1 : Tidy q none s1 := forEach_tidy _ _ _ _ h0 (fun x t ht => setOctet_tidy _ _ _ ht)
  have h2 : Tidy q none s2 := forEach_tidy _ _ _ _ h1 (fun x t ht => forEach_tidy _ _ _ _ ht (fun i t ht => setOctet_tidy _ _ _ ht))
  exact goutFollow_tidy _ (ltrqFollow_tidy _ h2)

theorem stopLogic_tidy : ∀ s, Tidy q none s → Tidy q none (@State.stopLogic s) := by
  intro s h0_
  unfold State.stopLogic
  extract_lets +onlyGivenNames s0 s1
  have hs0 : Tidy q none (s0) := by
    unfold s0
    refine setMode_tidy _ _ ?_
    assumption
  clear_value s0
  have hs1 : Tidy q none (s1) := by
    unfold s1
    refine forEach_tidy _ _ _ _ ?_ ?_
    · assumption
    · intro a2 a3 a4
      extract_lets +onlyGivenNames v5
      clear_value v5
      extract_lets +onlyGivenNames v6
      clear_value v6
      split
      · rename_i b7 b8 b9 b10 b11 b12
        refine setHeddle_tidy _ _ _ ?_
        assumption
      · rename_i b13 b14 b15
        refine setHeddle_tidy _ _ _ ?_
        assumption
  clear_value s1
  refine Tidy.ite ?_ ?_
  · refine qStop_tidy _ ?_
    assumption
  · assumption

theorem breakCheck_tidy : ∀ s h, Tidy q m s → Tidy q m (@State.breakCheck s h) := by
  intro s h h0_
  unfold State.breakCheck
  split
  · rename_i b0 b1 b2 b3 b4 b5
    refine Tidy.ite ?_ ?_
    · extract_lets +onlyGivenNames v6
      clear_value v6
      refine setMode_tidy _ _ ?_
      refine setReg_tidy _ _ _ ?_
      refine Tidy.upd (s := s) ?_ rfl rfl rfl rfl
      assumption
    · assumption
  · rename_i b7 b8 b9
    assumption

theorem cycleEnd_tidy : ∀ s h, Tidy q m s → Tidy q m (@State.cycleEnd s h) := by
  intro s h h0_
  unfold State.cycleEnd
  extract_lets +onlyGivenNames v0
  clear_value v0
  refine Tidy.ite ?_ ?_
  · assumption
  · extract_lets +onlyGivenNames v1 s2 v3
    clear_value v1
    have hs2 : Tidy q m (s2) := by
      unfold s2
      refine setFld_tidy _ _ _ _ ?_
      refine setHeddle_tidy _ _ _ ?_
      assumption
    clear_value s2
    clear_value v3
    refine Tidy.ite ?_ ?_
    · assumption
    · extract_lets +onlyGivenNames s4
      have hs4 : Tidy q m (s4) := by
        unfold s4
        refine countSkip_tidy _ _ _ ?_
        refine raise_tidy _ _ _ ?_
        assumption
      clear_value s4
      refine setHeddle_tidy _ _ _ ?_
      assumption

theorem finishExec_tidy : ∀ s h c, Tidy q none s → Tidy q none (@State.finishExec s h c) := by
  intro s h c h0
  unfold State.finishExec
  extract_lets x ns base s1 s2
  have h1 : Tidy q none s1 := by
    unfold s1
    clear_value base
    cases x.stack with
    | nil => exact setHeddle_tidy _ _ _ h0
    | cons t l => exact Tidy.ite (setHeddle_tidy _ _ _ h0) (setHeddle_tidy _ _ _ h0)
  have h2 : Tidy q none s2 := by
    unfold s2
    exact Tidy.ite (cycleEnd_tidy _ _ h1) h1
  exact Tidy.ite (qStop_tidy _ h2) h2

theorem progFault_tidy : ∀ s h c code, Tidy q none s → Tidy q none (@State.progFault s h c code) := by
  intro s h c code h0_
  unfold State.progFault
  extract_lets +onlyGivenNames v0 s1 s2
  clear_value v0
  have hs1 : Tidy q none (s1) := by
    unfold s1
    refine setReg_tidy _ _ _ ?_
    assumption
  clear_value s1
  have hs2 : Tidy q none (s2) := by
    unfold s2
    refine raiseLim_tidy _ _ _ _ ?_
    refine incSat_tidy _ _ _ _ _ ?_
    assumption
  clear_value s2
  refine finishExec_tidy _ _ _ ?_
  assumption

theorem putCtx_tidy : ∀ s h c, Tidy q m s → Tidy q m (@State.putCtx s h c) := by
  intro s h c h0_
  unfold State.putCtx
  refine setHeddle_tidy _ _ _ ?_
  assumption

/-! ### HeddleTimers -/

theorem setCounter_tidy : ∀ s n cv ovf up down, Tidy q none s → Tidy q none (@State.setCounter s n cv ovf up down) := by
  intro s n cv ovf up down h0_
  unfold State.setCounter
  refine setOctetsLE_tidy _ _ _ _ ?_
  refine setOctetsLE_tidy _ _ _ _ ?_
  assumption

theorem setTimer_tidy : ∀ s n t, Tidy q none s → Tidy q none (@State.setTimer s n t) := by
  intro s n t h0_
  unfold State.setTimer
  refine setOctetsLE_tidy _ _ _ _ ?_
  refine setOctetsLE_tidy _ _ _ _ ?_
  assumption

theorem doTimerSweep_tidy : ∀ s, Tidy q none s → Tidy q none (@doTimerSweep s) := by
  intro s h0_
  unfold doTimerSweep
  extract_lets +onlyGivenNames v0
  clear_value v0
  refine Tidy.ite ?_ ?_
  · assumption
  · refine forEach_tidy _ _ _ _ ?_ ?_
    · assumption
    · intro a1 a2 a3
      extract_lets +onlyGivenNames v4
      clear_value v4
      refine Tidy.ite ?_ ?_
      · refine setTimer_tidy _ _ _ ?_
        assumption
      · assumption

/-! ### HeddleControl -/

theorem actCapt_tidy : ∀ a s, Tidy q m s → Tidy q m (@actCapt a s) := by
  intro a s h0_
  unfold actCapt
  refine captureTrigger_tidy _ _ _ _ ?_
  assumption

theorem actEvtt_tidy : ∀ a s, Tidy q m s → Tidy q m (@actEvtt a s) := by
  intro a s h0_
  unfold actEvtt
  refine releaseEvent_tidy _ _ _ ?_
  assumption

theorem actOvly_tidy : ∀ a s, Tidy q m s → Tidy q m (@actOvly a s) := by
  intro a s h0_
  unfold actOvly
  refine ovlRequest_tidy _ _ _ _ ?_
  assumption

theorem actTrkrst_tidy : ∀ a s, Tidy q m s → Tidy q m (@actTrkrst a s) := by
  intro a s h0_
  unfold actTrkrst
  refine trackerReset_tidy _ _ ?_
  assumption

theorem actTrprst_tidy : ∀ a s, Tidy q m s → Tidy q m (@actTrprst a s) := by
  intro a s h0_
  unfold actTrprst
  refine Tidy.ite ?_ ?_
  · refine channelReset_tidy _ _ ?_
    assumption
  · assumption

theorem actUrgc_tidy : ∀ a s, Tidy q m s → Tidy q m (@actUrgc a s) := by
  intro a s h0_
  unfold actUrgc
  refine urgentRequest_tidy _ _ _ ?_
  assumption

end Sys2Proof.Laws
end

