-- ==== Sys2Proof/Laws/TidyAcquisition.lean ====
section
/-! SUPPORT. Every function of acquisition, chain, measurement and protection keeps the queue of waiting commands and the canonical form of memory, registers and
latched copies; one that writes no octet keeps memory. -/

namespace Sys2Proof.Laws

open Sys2Proof.Machine

variable {q : List Instr} {m : Option (List Host.Cell)}

/-! ### AcqOps -/

theorem feedClear_tidy : ∀ s x, Tidy q m s → Tidy q m (@State.feedClear s x) := by
  intro s x h0_
  unfold State.feedClear
  split
  · rename_i b0 b1
    assumption
  · rename_i b2 b3 b4
    refine Tidy.upd (s := s) ?_ rfl rfl rfl rfl
    assumption

theorem laneEnable_tidy : ∀ s x, Tidy q m s → Tidy q m (@State.laneEnable s x) := by
  intro s x h0_
  unfold State.laneEnable
  extract_lets +onlyGivenNames s0
  have hs0 : Tidy q m (s0) := by
    unfold s0
    refine setBit_tidy _ _ _ _ ?_
    refine setBit_tidy _ _ _ _ ?_
    refine trackerReset_tidy _ _ ?_
    assumption
  clear_value s0
  refine raise_tidy _ _ _ ?_
  refine feedClear_tidy _ _ ?_
  refine setLane_tidy _ _ _ ?_
  assumption

theorem discard_tidy : ∀ s x a, Tidy q m s → Tidy q m (@State.discard s x a) := by
  intro s x a
  induction a generalizing s with
  | zero => intro h; exact h
  | succ n ih => intro h; exact ih _ (incSat_tidy _ _ _ _ _ h)

theorem laneDisable_tidy : ∀ s x, Tidy q m s → Tidy q m (@State.laneDisable s x) := by
  intro s x h0_
  unfold State.laneDisable
  extract_lets +onlyGivenNames s0 s1
  have hs0 : Tidy q m (s0) := by
    unfold s0
    refine setBit_tidy _ _ _ _ ?_
    refine discard_tidy _ _ _ ?_
    assumption
  clear_value s0
  have hs1 : Tidy q m (s1) := by
    unfold s1
    refine setBit_tidy _ _ _ _ ?_
    refine setBit_tidy _ _ _ _ ?_
    assumption
  clear_value s1
  refine raise_tidy _ _ _ ?_
  refine feedClear_tidy _ _ ?_
  refine setLane_tidy _ _ _ ?_
  assumption

/-! ### Stages -/

theorem setBayChain_tidy : ∀ s b c, Tidy q m s → Tidy q m (@State.setBayChain s b c) := by
  intro s b c h0_
  unfold State.setBayChain
  refine Tidy.upd (s := s) ?_ rfl rfl rfl rfl
  assumption

/-! ### Chain -/

theorem settleSync_tidy : ∀ s b, Tidy q m s → Tidy q m (@State.settleSync s b) := by
  intro s b h0_
  unfold State.settleSync
  extract_lets +onlyGivenNames v0
  clear_value v0
  refine setBit_tidy _ _ _ _ ?_
  refine setFld_tidy _ _ _ _ ?_
  assumption

theorem settleSigs_tidy : ∀ s b xs t, Tidy q m s → Tidy q m (@State.settleSigs s b xs t) := by
  intro s b xs t h0_
  unfold State.settleSigs
  refine Tidy.ite ?_ ?_
  · assumption
  · extract_lets +onlyGivenNames s0 v1 s2
    have hs0 : Tidy q m (s0) := by
      unfold s0
      refine forEach_tidy _ _ _ _ ?_ ?_
      · assumption
      · intro a3 a4 a5
        refine Tidy.upd (s := a4) ?_ rfl rfl rfl rfl
        assumption
    clear_value s0
    clear_value v1
    have hs2 : Tidy q m (s2) := by
      unfold s2
      refine settleSync_tidy _ _ ?_
      refine setFld_tidy _ _ _ _ ?_
      assumption
    clear_value s2
    refine setBayChain_tidy _ _ _ ?_
    assumption

theorem laneSettle_tidy : ∀ s x t, Tidy q m s → Tidy q m (@State.laneSettle s x t) := by
  intro s x t h0_
  unfold State.laneSettle
  refine forEach_tidy _ _ _ _ ?_ ?_
  · assumption
  · intro a0 a1 a2
    extract_lets +onlyGivenNames v3
    clear_value v3
    refine Tidy.ite ?_ ?_
    · extract_lets +onlyGivenNames v4
      clear_value v4
      refine Tidy.upd (s := a1) ?_ rfl rfl rfl rfl
      assumption
    · refine settleSigs_tidy _ _ _ _ ?_
      assumption

theorem applyChainReg_tidy : ∀ s t e, Tidy q m s → Tidy q m (@State.applyChainReg s t e) := by
  intro s t e h0_
  unfold State.applyChainReg
  extract_lets +onlyGivenNames v0
  clear_value v0
  refine Tidy.ite ?_ ?_
  · refine Tidy.ite ?_ ?_
    · refine laneSettle_tidy _ _ _ ?_
      refine laneEnable_tidy _ _ ?_
      assumption
    · refine Tidy.ite ?_ ?_
      · refine laneDisable_tidy _ _ ?_
        assumption
      · assumption
  · refine setReg_tidy _ _ _ ?_
    assumption

theorem firChange_tidy : ∀ s x f direct old, Tidy q m s → Tidy q m (@State.firChange s x f direct old) := by
  intro s x f direct old h0_
  unfold State.firChange
  extract_lets +onlyGivenNames v0
  clear_value v0
  refine Tidy.upd (s := s) ?_ rfl rfl rfl rfl
  assumption

theorem chainStop_tidy : ∀ s b t, Tidy q m s → Tidy q m (@State.chainStop s b t) := by
  intro s b t h0_
  unfold State.chainStop
  extract_lets +onlyGivenNames v0
  clear_value v0
  refine setBit_tidy _ _ _ _ ?_
  refine setBayChain_tidy _ _ _ ?_
  assumption

theorem takeChange_tidy : ∀ s b n f d, Tidy q m s → Tidy q m (@State.takeChange s b n f d) := by
  intro s b n f d h0_
  unfold State.takeChange
  extract_lets +onlyGivenNames v0 s1 s2
  clear_value v0
  have hs1 : Tidy q m (s1) := by
    unfold s1
    refine forEach_tidy _ _ _ _ ?_ ?_
    · assumption
    · intro a3 a4 a5
      refine applyChainReg_tidy _ _ _ ?_
      assumption
  clear_value s1
  have hs2 : Tidy q m (s2) := by
    unfold s2
    refine forEach_tidy _ _ _ _ ?_ ?_
    · assumption
    · intro a6 a7 a8
      refine firChange_tidy _ _ _ _ _ ?_
      assumption
  clear_value s2
  refine Tidy.ite ?_ ?_
  · extract_lets +onlyGivenNames s9
    have hs9 : Tidy q m (s9) := by
      unfold s9
      refine raise_tidy _ _ _ ?_
      refine chainStop_tidy _ _ _ ?_
      assumption
    clear_value s9
    refine setBayChain_tidy _ _ _ ?_
    assumption
  · assumption

theorem bayBoundary_tidy : ∀ s b, Tidy q m s → Tidy q m (@State.bayBoundary s b) := by
  intro s b h0_
  unfold State.bayBoundary
  extract_lets +onlyGivenNames v0 v1
  clear_value v0
  clear_value v1
  refine Tidy.ite ?_ ?_
  · assumption
  · extract_lets +onlyGivenNames v2
    clear_value v2
    extract_lets +onlyGivenNames s3
    have hs3 : Tidy q m (s3) := by
      unfold s3
      refine Tidy.upd (s := s) ?_ rfl rfl rfl rfl
      assumption
    clear_value s3
    refine forEach_tidy _ _ _ _ ?_ ?_
    · assumption
    · intro a4 a5 a6
      refine takeChange_tidy _ _ _ _ _ ?_
      assumption

theorem boundaryTick_tidy : ∀ s, Tidy q m s → Tidy q m (@State.boundaryTick s) := by
  intro s h0_
  unfold State.boundaryTick
  refine Tidy.ite ?_ ?_
  · assumption
  · refine forEach_tidy _ _ _ _ ?_ ?_
    · assumption
    · intro a0 a1 a2
      refine bayBoundary_tidy _ _ ?_
      assumption

theorem settleCount_tidy : ∀ s x t, Tidy q m s → Tidy q m (@State.settleCount s x t) := by
  intro s x t h0_
  unfold State.settleCount
  refine Tidy.upd (s := s) ?_ rfl rfl rfl rfl
  assumption

theorem chainPush_tidy : ∀ s key k rate v f, Tidy q m s → Tidy q m (@State.chainPush s key k rate v f) := by
  intro s key k rate v f h0_
  unfold State.chainPush
  refine Tidy.upd (s := s) ?_ rfl rfl rfl rfl
  assumption

theorem setLatency_tidy : ∀ s b, Tidy q m s → Tidy q m (@State.setLatency s b) := by
  intro s b h0_
  unfold State.setLatency
  refine setReg_tidy _ _ _ ?_
  assumption

theorem chainStart_tidy : ∀ s b t, Tidy q m s → Tidy q m (@State.chainStart s b t) := by
  intro s b t h0_
  unfold State.chainStart
  extract_lets +onlyGivenNames v0 s1
  clear_value v0
  have hs1 : Tidy q m (s1) := by
    unfold s1
    refine raise_tidy _ _ _ ?_
    refine setBit_tidy _ _ _ _ ?_
    refine setBayChain_tidy _ _ _ ?_
    assumption
  clear_value s1
  refine setLatency_tidy _ _ ?_
  refine settleSigs_tidy _ _ _ _ ?_
  assumption

theorem migTrigger_tidy : ∀ s x1, Tidy q m s → Tidy q m (@State.migTrigger s x1) := by
  intro s x1 h0_
  unfold State.migTrigger
  refine Tidy.upd (s := s) ?_ rfl rfl rfl rfl
  assumption

theorem postFrame_tidy : ∀ s b fr, Tidy q m s → Tidy q m (@State.postFrame s b fr) := by
  intro s b fr h0_
  unfold State.postFrame
  extract_lets +onlyGivenNames v0 s1 s2 v3 s4 v5 v6
  clear_value v0
  have hs1 : Tidy q m (s1) := by
    unfold s1
    refine raise_tidy _ _ _ ?_
    refine incSat_tidy _ _ _ _ _ ?_
    assumption
  clear_value s1
  have hs2 : Tidy q m (s2) := by
    unfold s2
    refine Tidy.ite ?_ ?_
    · assumption
    · refine migTrigger_tidy _ _ ?_
      assumption
  clear_value s2
  clear_value v3
  have hs4 : Tidy q m (s4) := by
    unfold s4
    refine Tidy.ite ?_ ?_
    · refine raise_tidy _ _ _ ?_
      refine incSat_tidy _ _ _ _ _ ?_
      assumption
    · assumption
  clear_value s4
  clear_value v5
  clear_value v6
  extract_lets +onlyGivenNames s7 s8
  have hs7 : Tidy q m (s7) := by
    unfold s7
    refine setBayChain_tidy _ _ _ ?_
    assumption
  clear_value s7
  have hs8 : Tidy q m (s8) := by
    unfold s8
    refine setFld_tidy _ _ _ _ ?_
    assumption
  clear_value s8
  refine Tidy.ite ?_ ?_
  · refine wakeFor_tidy _ _ ?_
    assumption
  · assumption

theorem timeline_tidy : ∀ s b, Tidy q m s → Tidy q m (@State.timeline s b) := by
  intro s b h0_
  unfold State.timeline
  extract_lets +onlyGivenNames v0 v1
  clear_value v0
  clear_value v1
  refine setBayChain_tidy _ _ _ ?_
  assumption

theorem track_tidy : ∀ s b, Tidy q m s → Tidy q m (@State.track s b) := by
  intro s b h0_
  unfold State.track
  extract_lets +onlyGivenNames v0 v1 v2 v3 v4 v5 v6 v7 v8 s9 s10 s11 s12
  clear_value v0
  clear_value v1
  clear_value v2
  clear_value v3
  clear_value v4
  clear_value v5
  clear_value v6
  clear_value v7
  clear_value v8
  have hs9 : Tidy q m (s9) := by
    unfold s9
    refine setBayChain_tidy _ _ _ ?_
    assumption
  clear_value s9
  have hs10 : Tidy q m (s10) := by
    unfold s10
    refine setBit_tidy _ _ _ _ ?_
    refine setBit_tidy _ _ _ _ ?_
    refine setFld_tidy _ _ _ _ ?_
    assumption
  clear_value s10
  have hs11 : Tidy q m (s11) := by
    unfold s11
    refine setFld_tidy _ _ _ _ ?_
    assumption
  clear_value s11
  have hs12 : Tidy q m (s12) := by
    unfold s12
    refine Tidy.ite ?_ ?_
    · assumption
    · refine raise_tidy _ _ _ ?_
      assumption
  clear_value s12
  refine Tidy.ite ?_ ?_
  · refine raise_tidy _ _ _ ?_
    assumption
  · assumption

theorem doChainRestart_tidy : ∀ bay s, Tidy q m s → Tidy q m (@doChainRestart bay s) := by
  intro bay s h0_
  unfold doChainRestart
  split
  · rename_i b0 b1
    assumption
  · rename_i b2 b3 b4
    refine Tidy.ite ?_ ?_
    · assumption
    · refine chainStart_tidy _ _ _ ?_
      assumption

theorem sigSamples_tidy : ∀ s x c per a, Tidy q m s → Tidy q m (@State.sigSamples s x c per a).1 := by
  intro s x c per a
  induction a generalizing s with
  | zero => intro h; exact h
  | succ n ih => intro h; exact ih _ (Tidy.ite (settleCount_tidy _ _ _ h) h)

theorem buildFrame_tidy : ∀ s b, Tidy q m s → Tidy q m (@State.buildFrame s b).1 := by
  intro s b h
  rw [State.buildFrame]
  exact Tidy.fst (foldlFst_tidy _ _ (fun p x hp => Tidy.fst (sigSamples_tidy _ _ _ _ _ hp)) h)

theorem doFrameClose_tidy : ∀ bay s, Tidy q m s → Tidy q m (@doFrameClose bay s) := by
  intro bay s h0_
  unfold doFrameClose
  extract_lets +onlyGivenNames v0
  clear_value v0
  refine Tidy.ite ?_ ?_
  · assumption
  · have h1 : Tidy q m ((s.setBayChain v0 (s.bayChain v0).stopAtFrame).buildFrame v0).1 := by
      refine buildFrame_tidy _ _ ?_
      refine setBayChain_tidy _ _ _ ?_
      assumption
    split
    rename_i b2 b3 b4 b5
    have e6 : Tidy q m b3 := by rw [b5] at h1; exact h1
    extract_lets +onlyGivenNames s7 v8 v9 v10 s11 s12 s13 s14
    have hs7 : Tidy q m (s7) := by
      unfold s7
      refine settleSync_tidy _ _ ?_
      refine setBayChain_tidy _ _ _ ?_
      assumption
    clear_value s7
    clear_value v8
    clear_value v9
    clear_value v10
    have hs11 : Tidy q m (s11) := by
      unfold s11
      refine Tidy.ite ?_ ?_
      · refine raise_tidy _ _ _ ?_
        refine setBayChain_tidy _ _ _ ?_
        assumption
      · assumption
    clear_value s11
    have hs12 : Tidy q m (s12) := by
      unfold s12
      refine setReg64_tidy _ _ _ _ ?_
      assumption
    clear_value s12
    have hs13 : Tidy q m (s13) := by
      unfold s13
      refine setReg64_tidy _ _ _ _ ?_
      assumption
    clear_value s13
    have hs14 : Tidy q m (s14) := by
      unfold s14
      refine setReg_tidy _ _ _ ?_
      assumption
    clear_value s14
    extract_lets +onlyGivenNames s15
    have hs15 : Tidy q m (s15) := by
      unfold s15
      refine timeline_tidy _ _ ?_
      refine track_tidy _ _ ?_
      refine postFrame_tidy _ _ _ ?_
      assumption
    clear_value s15
    refine Tidy.ite ?_ ?_
    · refine plySend_tidy _ _ ?_
      assumption
    · assumption

/-! ### WaveBranch -/

theorem feedPush_tidy : ∀ s c y, Tidy q m s → Tidy q m (@State.feedPush s c y) := by
  intro s c y h0_
  unfold State.feedPush
  refine Tidy.upd (s := s) ?_ rfl rfl rfl rfl
  assumption

theorem waveTake_tidy : ∀ s b, Tidy q m s → Tidy q m (@State.waveTake s b) := by
  intro s b h0_
  unfold State.waveTake
  extract_lets +onlyGivenNames v0
  clear_value v0
  refine Tidy.ite ?_ ?_
  · assumption
  · extract_lets +onlyGivenNames v1
    clear_value v1
    refine Tidy.ite ?_ ?_
    · assumption
    · split
      · rename_i b2 b3
        assumption
      · rename_i b4 b5 b6
        refine setBayChain_tidy _ _ _ ?_
        assumption

theorem doArrivalDetect_tidy : ∀ bay mode s, Tidy q m s → Tidy q m (@doArrivalDetect bay mode s) := by
  intro bay mode s h0_
  unfold doArrivalDetect
  extract_lets +onlyGivenNames v0 v1
  clear_value v0
  clear_value v1
  split
  · rename_i b2 b3 b4 b5 b6 b7 b8 b9 b10 b11
    refine Tidy.ite ?_ ?_
    · assumption
    · extract_lets +onlyGivenNames v12 v13 v14
      clear_value v12
      clear_value v13
      clear_value v14
      refine incWrap_tidy _ _ _ ?_
      refine setBayChain_tidy _ _ _ ?_
      assumption
  · rename_i b15 b16 b17
    assumption

theorem doArrivalRearm_tidy : ∀ bay mode s, Tidy q m s → Tidy q m (@doArrivalRearm bay mode s) := by
  intro bay mode s h0_
  unfold doArrivalRearm
  extract_lets +onlyGivenNames v0 v1
  clear_value v0
  clear_value v1
  split
  · rename_i b2 b3
    assumption
  · rename_i b4 b5 b6 b7
    refine Tidy.ite ?_ ?_
    · assumption
    · extract_lets +onlyGivenNames s8 v9
      have hs8 : Tidy q m (s8) := by
        unfold s8
        refine setBayChain_tidy _ _ _ ?_
        assumption
      clear_value s8
      clear_value v9
      refine Tidy.ite ?_ ?_
      · extract_lets +onlyGivenNames s10
        have hs10 : Tidy q m (s10) := by
          unfold s10
          refine incSat_tidy _ _ _ _ _ ?_
          assumption
        clear_value s10
        refine Tidy.ite ?_ ?_
        · assumption
        · refine raise_tidy _ _ _ ?_
          refine setBayChain_tidy _ _ _ ?_
          assumption
      · extract_lets +onlyGivenNames v11
        clear_value v11
        refine setBayChain_tidy _ _ _ ?_
        assumption

/-! ### Calibration -/

theorem rotSync_tidy : ∀ s, Tidy q m s → Tidy q m (@State.rotSync s) := by
  intro s h0_
  unfold State.rotSync
  extract_lets +onlyGivenNames v0
  clear_value v0
  refine setFld_tidy _ _ _ _ ?_
  assumption

theorem setUse_tidy : ∀ s u, Tidy q m s → Tidy q m (@State.setUse s u) := by
  intro s u h0_
  unfold State.setUse
  refine Tidy.upd (s := s) ?_ rfl rfl rfl rfl
  assumption

theorem setConvState_tidy : ∀ s n v, Tidy q m s → Tidy q m (@State.setConvState s n v) := by
  intro s n v h0_
  unfold State.setConvState
  refine setFld_tidy _ _ _ _ ?_
  assumption

theorem calBegin_tidy : ∀ s second why, Tidy q m s → Tidy q m (@State.calBegin s second why) := by
  intro s second why h0_
  unfold State.calBegin
  refine rotSync_tidy _ ?_
  refine setUse_tidy _ _ ?_
  refine setConvState_tidy _ _ _ ?_
  assumption

theorem putGain_tidy : ∀ s n g o k, Tidy q m s → Tidy q m (@State.putGain s n g o k) := by
  intro s n g o k h0_
  unfold State.putGain
  refine setReg_tidy _ _ _ ?_
  refine setFld_tidy _ _ _ _ ?_
  assumption

theorem calCommit_tidy : ∀ s n r, Tidy q m s → Tidy q m (@State.calCommit s n r) := by
  intro s n r h0_
  unfold State.calCommit
  extract_lets +onlyGivenNames v0 s1 s2 s3 s4
  clear_value v0
  have hs1 : Tidy q m (s1) := by
    unfold s1
    refine putList_tidy _ _ _ _ ?_ ?_
    · assumption
    · intro a5 a6 a7 a8
      refine putGain_tidy _ _ _ _ _ ?_
      assumption
  clear_value s1
  have hs2 : Tidy q m (s2) := by
    unfold s2
    refine putList_tidy _ _ _ _ ?_ ?_
    · assumption
    · intro a9 a10 a11 a12
      refine setReg_tidy _ _ _ ?_
      assumption
  clear_value s2
  have hs3 : Tidy q m (s3) := by
    unfold s3
    refine setReg_tidy _ _ _ ?_
    refine setReg_tidy _ _ _ ?_
    assumption
  clear_value s3
  have hs4 : Tidy q m (s4) := by
    unfold s4
    refine setFld_tidy _ _ _ _ ?_
    refine setFld_tidy _ _ _ _ ?_
    assumption
  clear_value s4
  refine incWrap_tidy _ _ _ ?_
  refine Tidy.upd (s := s4) ?_ rfl rfl rfl rfl
  assumption

theorem calReject_tidy : ∀ s n, Tidy q m s → Tidy q m (@State.calReject s n) := by
  intro s n h0_
  unfold State.calReject
  refine raise_tidy _ _ _ ?_
  refine incWrap_tidy _ _ _ ?_
  refine setBit_tidy _ _ _ _ ?_
  assumption

theorem calRetire_tidy : ∀ s n, Tidy q m s → Tidy q m (@State.calRetire s n) := by
  intro s n h0_
  unfold State.calRetire
  refine raise_tidy _ _ _ ?_
  refine setConvState_tidy _ _ _ ?_
  assumption

theorem searchEnd_tidy : ∀ s k result, Tidy q m s → Tidy q m (@State.searchEnd s k result) := by
  intro s k result h0_
  unfold State.searchEnd
  extract_lets +onlyGivenNames s0
  have hs0 : Tidy q m (s0) := by
    unfold s0
    refine setFld_tidy _ _ _ _ ?_
    refine setFld_tidy _ _ _ _ ?_
    assumption
  clear_value s0
  refine rotSync_tidy _ ?_
  refine raise_tidy _ _ _ ?_
  refine Tidy.upd (s := s0) ?_ rfl rfl rfl rfl
  assumption

theorem calFinish_tidy : ∀ s n ok second why, Tidy q m s → Tidy q m (@State.calFinish s n ok second why) := by
  intro s n ok second why h0_
  unfold State.calFinish
  refine Tidy.ite ?_ ?_
  · refine Tidy.ite ?_ ?_
    · refine calBegin_tidy _ _ _ ?_
      refine calReject_tidy _ _ ?_
      assumption
    · extract_lets +onlyGivenNames s0
      have hs0 : Tidy q m (s0) := by
        unfold s0
        refine setUse_tidy _ _ ?_
        refine calRetire_tidy _ _ ?_
        refine calReject_tidy _ _ ?_
        assumption
      clear_value s0
      split
      · rename_i b1 b2 b3
        refine searchEnd_tidy _ _ _ ?_
        assumption
      · rename_i b4 b5
        refine rotSync_tidy _ ?_
        assumption
  · extract_lets +onlyGivenNames s6
    have hs6 : Tidy q m (s6) := by
      unfold s6
      refine setUse_tidy _ _ ?_
      refine setConvState_tidy _ _ _ ?_
      refine setBit_tidy _ _ _ _ ?_
      assumption
    clear_value s6
    split
    · rename_i b7
      refine rotSync_tidy _ ?_
      refine incWrap_tidy _ _ _ ?_
      refine setFld_tidy _ _ _ _ ?_
      assumption
    · rename_i b8
      split
      · rename_i b9 b10 b11
        refine rotSync_tidy _ ?_
        refine setFld_tidy _ _ _ _ ?_
        refine setUse_tidy _ _ ?_
        assumption
      · rename_i b12 b13
        refine rotSync_tidy _ ?_
        assumption
    · rename_i b14 b15 b16
      refine rotSync_tidy _ ?_
      assumption

theorem suspectSync_tidy : ∀ s k, Tidy q m s → Tidy q m (@State.suspectSync s k) := by
  intro s k h0_
  unfold State.suspectSync
  refine forEach_tidy _ _ _ _ ?_ ?_
  · assumption
  · intro a0 a1 a2
    refine setBit_tidy _ _ _ _ ?_
    assumption

theorem clearSuspect_tidy : ∀ s k, Tidy q m s → Tidy q m (@State.clearSuspect s k) := by
  intro s k h0_
  unfold State.clearSuspect
  refine raise_tidy _ _ _ ?_
  refine setSlice_tidy _ _ _ ?_
  refine suspectSync_tidy _ _ ?_
  refine setBit_tidy _ _ _ _ ?_
  assumption

theorem diagFresh_tidy : ∀ s k, Tidy q m s → Tidy q m (@State.diagFresh s k) := by
  intro s k h0_
  unfold State.diagFresh
  refine setSlice_tidy _ _ _ ?_
  assumption

theorem markSuspect_tidy : ∀ s k, Tidy q m s → Tidy q m (@State.markSuspect s k) := by
  intro s k h0_
  unfold State.markSuspect
  refine Tidy.ite ?_ ?_
  · assumption
  · extract_lets +onlyGivenNames s0
    have hs0 : Tidy q m (s0) := by
      unfold s0
      refine raise_tidy _ _ _ ?_
      refine suspectSync_tidy _ _ ?_
      refine setBit_tidy _ _ _ _ ?_
      assumption
    clear_value s0
    refine rotSync_tidy _ ?_
    refine Tidy.upd (s := s0) ?_ rfl rfl rfl rfl
    assumption

theorem putReel_tidy : ∀ s k l, Tidy q m s → Tidy q m (@State.putReel s k l) := by
  intro s k l h0_
  unfold State.putReel
  extract_lets +onlyGivenNames s0 s1
  have hs0 : Tidy q m (s0) := by
    unfold s0
    refine forEach_tidy _ _ _ _ ?_ ?_
    · assumption
    · intro a2 a3 a4
      refine setReg_tidy _ _ _ ?_
      assumption
  clear_value s0
  have hs1 : Tidy q m (s1) := by
    unfold s1
    refine putList_tidy _ _ _ _ ?_ ?_
    · assumption
    · intro a5 a6 a7 a8
      refine setReg_tidy _ _ _ ?_
      assumption
  clear_value s1
  refine setFld_tidy _ _ _ _ ?_
  refine setFld_tidy _ _ _ _ ?_
  assumption

theorem xckRestart_tidy : ∀ s k, Tidy q m s → Tidy q m (@State.xckRestart s k) := by
  intro s k h0_
  unfold State.xckRestart
  refine forEach_tidy _ _ _ _ ?_ ?_
  · assumption
  · intro a0 a1 a2
    refine setSlice_tidy _ _ _ ?_
    assumption

theorem takeOver_tidy : ∀ s k st, Tidy q m s → Tidy q m (@State.takeOver s k st) := by
  intro s k st h0_
  unfold State.takeOver
  extract_lets +onlyGivenNames v0 v1 s2 v3 s4 v5
  clear_value v0
  clear_value v1
  have hs2 : Tidy q m (s2) := by
    unfold s2
    refine setFld_tidy _ _ _ _ ?_
    refine setFld_tidy _ _ _ _ ?_
    assumption
  clear_value s2
  clear_value v3
  have hs4 : Tidy q m (s4) := by
    unfold s4
    refine setSlice_tidy _ _ _ ?_
    assumption
  clear_value s4
  clear_value v5
  extract_lets +onlyGivenNames s6 s7
  have hs6 : Tidy q m (s6) := by
    unfold s6
    refine setSlice_tidy _ _ _ ?_
    assumption
  clear_value s6
  have hs7 : Tidy q m (s7) := by
    unfold s7
    refine setFld_tidy _ _ _ _ ?_
    refine setConvState_tidy _ _ _ ?_
    refine setConvState_tidy _ _ _ ?_
    assumption
  clear_value s7
  refine raise_tidy _ _ _ ?_
  refine xckRestart_tidy _ _ ?_
  assumption

theorem searchTake_tidy : ∀ s k j result, Tidy q m s → Tidy q m (@State.searchTake s k j result) := by
  intro s k j result h0_
  unfold State.searchTake
  refine calBegin_tidy _ _ _ ?_
  refine searchEnd_tidy _ _ _ ?_
  refine clearSuspect_tidy _ _ ?_
  refine takeOver_tidy _ _ _ ?_
  refine setUse_tidy _ _ ?_
  assumption

theorem startupCal_tidy : ∀ s n r, Tidy q m s → Tidy q m (@State.startupCal s n r) := by
  intro s n r h
  unfold State.startupCal
  refine Tidy.ite h (Tidy.ite ?_ (Tidy.ite ?_ ?_))
  · extract_lets +onlyGivenNames s1
    have h1 : Tidy q m s1 := setBit_tidy _ _ _ _ (calCommit_tidy _ _ _ h)
    clear_value s1
    exact acq_tidy h1
  · extract_lets +onlyGivenNames s1
    have h1 : Tidy q m s1 := calReject_tidy _ _ h
    clear_value s1
    exact acq_tidy h1
  · extract_lets +onlyGivenNames s1
    have h1 : Tidy q m s1 := calRetire_tidy _ _ (calReject_tidy _ _ h)
    clear_value s1
    exact acq_tidy h1

theorem doCalibrationDone_tidy : ∀ r s, Tidy q m s → Tidy q m (@doCalibrationDone r s) := by
  intro r s h0_
  unfold doCalibrationDone
  split
  · rename_i b0 b1 b2 b3 b4 b5
    refine Tidy.ite ?_ ?_
    · assumption
    · refine Tidy.ite ?_ ?_
      · refine calFinish_tidy _ _ _ _ _ ?_
        refine calCommit_tidy _ _ _ ?_
        assumption
      · refine calFinish_tidy _ _ _ _ _ ?_
        assumption
  · rename_i b6 b7
    assumption

theorem doOutOfTurnTakeover_tidy : ∀ slice s, Tidy q m s → Tidy q m (@doOutOfTurnTakeover slice s) := by
  intro slice s h0_
  unfold doOutOfTurnTakeover
  extract_lets +onlyGivenNames v0
  clear_value v0
  split
  · rename_i b1 b2 b3 b4 b5 b6
    assumption
  · rename_i b7 b8
    refine Tidy.ite ?_ ?_
    · assumption
    · extract_lets +onlyGivenNames v9 v10
      clear_value v9
      clear_value v10
      extract_lets +onlyGivenNames s11
      have hs11 : Tidy q m (s11) := by
        unfold s11
        refine Tidy.upd (s := s) ?_ rfl rfl rfl rfl
        assumption
      clear_value s11
      refine Tidy.ite ?_ ?_
      · refine calBegin_tidy _ _ _ ?_
        refine diagFresh_tidy _ _ ?_
        assumption
      · refine calBegin_tidy _ _ _ ?_
        refine takeOver_tidy _ _ _ ?_
        refine diagFresh_tidy _ _ ?_
        assumption

theorem doReelCycleBoundary_tidy : ∀ s, Tidy q m s → Tidy q m (@doReelCycleBoundary s) := by
  intro s h0_
  unfold doReelCycleBoundary
  refine Tidy.ite ?_ ?_
  · assumption
  · split
    · rename_i b0 b1
      assumption
    · rename_i b2 b3 b4 b5
      extract_lets +onlyGivenNames v6
      clear_value v6
      extract_lets +onlyGivenNames s7
      have hs7 : Tidy q m (s7) := by
        unfold s7
        refine Tidy.upd (s := s) ?_ rfl rfl rfl rfl
        assumption
      clear_value s7
      refine Tidy.ite ?_ ?_
      · refine rotSync_tidy _ ?_
        assumption
      · refine rotSync_tidy _ ?_
        refine takeOver_tidy _ _ _ ?_
        assumption

theorem doRotationDue_tidy : ∀ s, Tidy q m s → Tidy q m (@doRotationDue s) := by
  intro s h0_
  unfold doRotationDue
  refine Tidy.ite ?_ ?_
  · refine rotSync_tidy _ ?_
    assumption
  · refine Tidy.ite ?_ ?_
    · refine Tidy.ite ?_ ?_
      · extract_lets +onlyGivenNames s0
        have hs0 : Tidy q m (s0) := by
          unfold s0
          refine setUse_tidy _ _ ?_
          assumption
        clear_value s0
        refine rotSync_tidy _ ?_
        refine Tidy.upd (s := s0) ?_ rfl rfl rfl rfl
        assumption
      · refine rotSync_tidy _ ?_
        assumption
    · refine Tidy.ite ?_ ?_
      · refine calBegin_tidy _ _ _ ?_
        refine Tidy.upd (s := s) ?_ rfl rfl rfl rfl
        assumption
      · refine rotSync_tidy _ ?_
        assumption

theorem doSampleClockLock_tidy : ∀ x0 s, Tidy q m s → Tidy q m (@doSampleClockLock x0 s) := by
  suffices hc : ∀ f, f = @doSampleClockLock → ∀ x0 s, Tidy q m s → Tidy q m (f x0 s) from hc _ rfl
  intro f hf x0 s h
  delta doSampleClockLock at hf
  subst hf
  beta_reduce
  refine Tidy.ite h ?_
  extract_lets +onlyGivenNames s1 s2 s3 aq s4
  have h1 : Tidy q m s1 := setBit_tidy _ _ _ _ h
  clear_value s1
  have h2 : Tidy q m s2 := putList_tidy _ _ _ _ h1 (fun n r t ht => Tidy.ite ht (putGain_tidy _ _ _ _ _ ht))
  clear_value s2
  have h3 : Tidy q m s3 := forEach_tidy _ _ _ _ h2 (fun k t ht => putReel_tidy _ _ _ ht)
  clear_value s3
  have h4 : Tidy q m s4 := rotSync_tidy _ (acq_tidy h3)
  clear_value s4
  extract_lets +onlyGivenNames any s5
  have h5 : Tidy q m s5 := Tidy.ite (raise_tidy _ _ _ (setFld_tidy _ _ _ _ h4)) h4
  clear_value s5
  extract_lets +onlyGivenNames s6
  have h6 : Tidy q m s6 := setReg_tidy _ _ _ h5
  clear_value s6
  refine Tidy.ite ?_ (setFld_tidy _ _ _ _ h6)
  extract_lets +onlyGivenNames s7 s7b aq2 s8
  have h7 : Tidy q m s7 := forEach_tidy _ _ _ _ h6 (fun c t ht => setReg_tidy _ _ _ ht)
  clear_value s7
  have h7b : Tidy q m s7b := setBit_tidy _ _ _ _ (setBit_tidy _ _ _ _ h7)
  clear_value s7b
  have h8 : Tidy q m s8 := acq_tidy h7b
  clear_value s8
  exact raise_tidy _ _ _ (setFld_tidy _ _ _ _ h8)

theorem doSearchPhaseEnd_tidy : ∀ s, Tidy q m s → Tidy q m (@doSearchPhaseEnd s) := by
  intro s h0_
  unfold doSearchPhaseEnd
  split
  · rename_i b0 b1 b2 b3 b4 b5 b6 b7 b8 b9
    refine Tidy.ite ?_ ?_
    · assumption
    · extract_lets +onlyGivenNames s10
      have hs10 : Tidy q m (s10) := by
        unfold s10
        refine Tidy.ite ?_ ?_
        · refine raise_tidy _ _ _ ?_
          assumption
        · assumption
      clear_value s10
      refine Tidy.ite ?_ ?_
      · extract_lets +onlyGivenNames v11
        clear_value v11
        extract_lets +onlyGivenNames s12
        have hs12 : Tidy q m (s12) := by
          unfold s12
          refine Tidy.upd (s := s10) ?_ rfl rfl rfl rfl
          assumption
        clear_value s12
        refine setUse_tidy _ _ ?_
        refine setFld_tidy _ _ _ _ ?_
        assumption
      · refine Tidy.ite ?_ ?_
        · refine searchTake_tidy _ _ _ _ ?_
          assumption
        · refine Tidy.ite ?_ ?_
          · refine searchTake_tidy _ _ _ _ ?_
            assumption
          · refine Tidy.ite ?_ ?_
            · refine searchEnd_tidy _ _ _ ?_
              refine clearSuspect_tidy _ _ ?_
              refine setUse_tidy _ _ ?_
              assumption
            · refine Tidy.ite ?_ ?_
              · refine searchEnd_tidy _ _ _ ?_
                refine setUse_tidy _ _ ?_
                assumption
              · extract_lets +onlyGivenNames v13
                clear_value v13
                extract_lets +onlyGivenNames s14
                have hs14 : Tidy q m (s14) := by
                  unfold s14
                  refine Tidy.upd (s := s10) ?_ rfl rfl rfl rfl
                  assumption
                clear_value s14
                refine calBegin_tidy _ _ _ ?_
                refine setFld_tidy _ _ _ _ ?_
                assumption
  · rename_i b15 b16 b17
    assumption

theorem doSearchStart_tidy : ∀ s, Tidy q m s → Tidy q m (@doSearchStart s) := by
  intro s h0_
  unfold doSearchStart
  split
  · rename_i b0 b1 b2 b3 b4 b5 b6
    assumption
  · rename_i b7 b8 b9 b10
    assumption
  · rename_i b11 b12 b13 b14 b15 b16
    refine Tidy.ite ?_ ?_
    · assumption
    · extract_lets +onlyGivenNames v17 s18
      clear_value v17
      have hs18 : Tidy q m (s18) := by
        unfold s18
        refine Tidy.upd (s := s) ?_ rfl rfl rfl rfl
        assumption
      clear_value s18
      extract_lets +onlyGivenNames s19
      have hs19 : Tidy q m (s19) := by
        unfold s19
        refine setFld_tidy _ _ _ _ ?_
        refine setFld_tidy _ _ _ _ ?_
        assumption
      clear_value s19
      refine rotSync_tidy _ ?_
      refine setUse_tidy _ _ ?_
      assumption

theorem doShadowEnd_tidy : ∀ s, Tidy q m s → Tidy q m (@doShadowEnd s) := by
  intro s h0_
  unfold doShadowEnd
  split
  · rename_i b0 b1 b2 b3 b4 b5
    refine Tidy.ite ?_ ?_
    · assumption
    · refine Tidy.ite ?_ ?_
      · refine setUse_tidy _ _ ?_
        assumption
      · extract_lets +onlyGivenNames s6
        have hs6 : Tidy q m (s6) := by
          unfold s6
          refine Tidy.ite ?_ ?_
          · refine raise_tidy _ _ _ ?_
            assumption
          · assumption
        clear_value s6
        refine calBegin_tidy _ _ _ ?_
        refine takeOver_tidy _ _ _ ?_
        assumption
  · rename_i b7 b8
    assumption

theorem doStartupCalDone_tidy : ∀ r s, Tidy q m s → Tidy q m (@doStartupCalDone r s) := by
  intro r s h0_
  unfold doStartupCalDone
  split
  · rename_i b0 b1
    assumption
  · rename_i b2 b3 b4
    refine Tidy.ite ?_ ?_
    · assumption
    · extract_lets +onlyGivenNames v5 s6
      clear_value v5
      have hs6 : Tidy q m (s6) := by
        unfold s6
        refine putList_tidy _ _ _ _ ?_ ?_
        · assumption
        · intro a7 a8 a9 a10
          refine Tidy.ite ?_ ?_
          · refine startupCal_tidy _ _ _ ?_
            assumption
          · assumption
      clear_value s6
      refine Tidy.ite ?_ ?_
      · refine rotSync_tidy _ ?_
        refine Tidy.upd (s := s6) ?_ rfl rfl rfl rfl
        assumption
      · refine Tidy.upd (s := s6) ?_ rfl rfl rfl rfl
        assumption

/-! ### Injection -/

theorem setInjBit_tidy : ∀ s lo b v, Tidy q m s → Tidy q m (@State.setInjBit s lo b v) := by
  intro s lo b v h0_
  unfold State.setInjBit
  refine Tidy.ite ?_ ?_
  · refine setBit_tidy _ _ _ _ ?_
    assumption
  · assumption

theorem injClose_tidy : ∀ s b, Tidy q m s → Tidy q m (@State.injClose s b) := by
  intro s b h0_
  unfold State.injClose
  extract_lets +onlyGivenNames v0 s1
  clear_value v0
  have hs1 : Tidy q m (s1) := by
    unfold s1
    refine Tidy.upd (s := s) ?_ rfl rfl rfl rfl
    assumption
  clear_value s1
  extract_lets +onlyGivenNames s2
  have hs2 : Tidy q m (s2) := by
    unfold s2
    refine setInjBit_tidy _ _ _ _ ?_
    assumption
  clear_value s2
  refine rotSync_tidy _ ?_
  refine Tidy.ite ?_ ?_
  · refine chainStart_tidy _ _ _ ?_
    assumption
  · assumption

theorem setInjPin_tidy : ∀ s p v, Tidy q m s → Tidy q m (@State.setInjPin s p v) := by
  intro s p v h0_
  unfold State.setInjPin
  refine Tidy.upd (s := s) ?_ rfl rfl rfl rfl
  assumption

theorem injDepart_tidy : ∀ s p level, Tidy q m s → Tidy q m (@State.injDepart s p level) := by
  intro s p level h0_
  unfold State.injDepart
  extract_lets +onlyGivenNames v0 v1 s2 s3
  clear_value v0
  clear_value v1
  have hs2 : Tidy q m (s2) := by
    unfold s2
    refine forEach_tidy _ _ _ _ ?_ ?_
    · assumption
    · intro a4 a5 a6
      refine setInjPin_tidy _ _ _ ?_
      assumption
  clear_value s2
  have hs3 : Tidy q m (s3) := by
    unfold s3
    refine setInjPin_tidy _ _ _ ?_
    assumption
  clear_value s3
  refine injClose_tidy _ _ ?_
  refine Tidy.ite ?_ ?_
  · assumption
  · refine setInjBit_tidy _ _ _ _ ?_
    assumption

theorem pathChange_tidy : ∀ s pin f, Tidy q m s → (∀ y0, Tidy q m y0 → Tidy q m (f y0)) → Tidy q m (@State.pathChange s pin f) := by
  intro s pin f h0_ h1_
  unfold State.pathChange
  extract_lets +onlyGivenNames v0 s1 v2
  clear_value v0
  have hs1 : Tidy q m (s1) := by
    unfold s1
    refine h1_ _ ?_
    assumption
  clear_value s1
  clear_value v2
  refine Tidy.ite ?_ ?_
  · refine raise_tidy _ _ _ ?_
    assumption
  · refine Tidy.ite ?_ ?_
    · refine raise_tidy _ _ _ ?_
      assumption
    · assumption

theorem setPin_tidy : ∀ s w pin b, Tidy q m s → Tidy q m (@State.setPin s w pin b) := by
  intro s w pin b h0_
  unfold State.setPin
  refine pathChange_tidy _ _ _ ?_ ?_
  · assumption
  · intro a0 a1
    refine setBit_tidy _ _ _ _ ?_
    assumption

theorem injJudge_tidy : ∀ s p t0, Tidy q m s → Tidy q m (@State.injJudge s p t0) := by
  intro s p t0 h0_
  unfold State.injJudge
  split
  · rename_i b0 b1 b2 b3 b4 b5
    extract_lets +onlyGivenNames v6 v7 v8 v9 v10 s11
    clear_value v6
    clear_value v7
    clear_value v8
    clear_value v9
    clear_value v10
    have hs11 : Tidy q m (s11) := by
      unfold s11
      refine Tidy.ite ?_ ?_
      · refine setInjBit_tidy _ _ _ _ ?_
        assumption
      · assumption
    clear_value s11
    refine setPin_tidy _ _ _ _ ?_
    assumption
  · rename_i b12 b13 b14
    assumption

theorem injEnd_tidy : ∀ s b, Tidy q m s → Tidy q m (@State.injEnd s b) := by
  intro s b h0_
  unfold State.injEnd
  split
  · rename_i b0 b1
    assumption
  · rename_i b2 b3 b4
    refine Tidy.ite ?_ ?_
    · assumption
    · extract_lets +onlyGivenNames v5 s6
      clear_value v5
      have hs6 : Tidy q m (s6) := by
        unfold s6
        refine forEach_tidy _ _ _ _ ?_ ?_
        · refine setInjBit_tidy _ _ _ _ ?_
          assumption
        · intro a7 a8 a9
          refine injJudge_tidy _ _ _ ?_
          assumption
      clear_value s6
      refine injClose_tidy _ _ ?_
      refine forEach_tidy _ _ _ _ ?_ ?_
      · assumption
      · intro a10 a11 a12
        refine setInjPin_tidy _ _ _ ?_
        assumption

theorem injSample_tidy : ∀ s lane v t, Tidy q m s → Tidy q m (@State.injSample s lane v t) := by
  intro s lane v t h0_
  unfold State.injSample
  split
  · rename_i b0 b1
    assumption
  · rename_i b2 b3 b4
    refine Tidy.ite ?_ ?_
    · assumption
    · extract_lets +onlyGivenNames v5
      clear_value v5
      split
      · rename_i b6 b7
        refine Tidy.ite ?_ ?_
        · refine injDepart_tidy _ _ _ ?_
          assumption
        · assumption
      · rename_i b8 b9 b10 b11 b12
        refine Tidy.ite ?_ ?_
        · refine setInjPin_tidy _ _ _ ?_
          assumption
        · assumption
      · rename_i b13 b14 b15
        assumption

theorem injStart_tidy : ∀ s b atStart, Tidy q m s → Tidy q m (@State.injStart s b atStart) := by
  intro s b atStart h0_
  unfold State.injStart
  extract_lets +onlyGivenNames v0 v1 v2 s3 s4
  clear_value v0
  clear_value v1
  clear_value v2
  have hs3 : Tidy q m (s3) := by
    unfold s3
    refine setInjBit_tidy _ _ _ _ ?_
    assumption
  clear_value s3
  have hs4 : Tidy q m (s4) := by
    unfold s4
    refine forEach_tidy _ _ _ _ ?_ ?_
    · assumption
    · intro a5 a6 a7
      refine setInjPin_tidy _ _ _ ?_
      assumption
  clear_value s4
  refine Tidy.ite ?_ ?_
  · refine Tidy.upd (s := s4) ?_ rfl rfl rfl rfl
    assumption
  · extract_lets +onlyGivenNames s8 v9
    have hs8 : Tidy q m (s8) := by
      unfold s8
      refine forEach_tidy _ _ _ _ ?_ ?_
      · assumption
      · intro a10 a11 a12
        refine setInjPin_tidy _ _ _ ?_
        assumption
    clear_value s8
    clear_value v9
    extract_lets +onlyGivenNames s13
    have hs13 : Tidy q m (s13) := by
      unfold s13
      refine rotSync_tidy _ ?_
      refine setInjBit_tidy _ _ _ _ ?_
      refine Tidy.upd (s := s8) ?_ rfl rfl rfl rfl
      assumption
    clear_value s13
    refine Tidy.ite ?_ ?_
    · refine chainStop_tidy _ _ _ ?_
      assumption
    · assumption

theorem setOpenChk_tidy : ∀ s p e, Tidy q m s → Tidy q m (@State.setOpenChk s p e) := by
  intro s p e h0_
  unfold State.setOpenChk
  refine Tidy.upd (s := s) ?_ rfl rfl rfl rfl
  assumption

theorem openSample_tidy : ∀ s lane v t, Tidy q m s → Tidy q m (@State.openSample s lane v t) := by
  intro s lane v t h0_
  unfold State.openSample
  split
  · rename_i b0 b1
    assumption
  · rename_i b2 b3 b4
    extract_lets +onlyGivenNames v5
    clear_value v5
    refine Tidy.ite ?_ ?_
    · assumption
    · refine setOpenChk_tidy _ _ _ ?_
      assumption

theorem setPb_tidy : ∀ s b p v, Tidy q m s → Tidy q m (@State.setPb s b p v) := by
  intro s b p v h0_
  unfold State.setPb
  split
  · rename_i b0 b1
    assumption
  · rename_i b2 b3 b4
    split
    · rename_i b5 b6
      assumption
    · rename_i b7 b8 b9
      refine pathChange_tidy _ _ _ ?_ ?_
      · assumption
      · intro a10 a11
        refine setBit_tidy _ _ _ _ ?_
        assumption

theorem pairBalance_tidy : ∀ s b va vb vc i2, Tidy q m s → Tidy q m (@State.pairBalance s b va vb vc i2) := by
  intro s b va vb vc i2 h0_
  unfold State.pairBalance
  extract_lets +onlyGivenNames v0 v1 v2 v3
  clear_value v0
  clear_value v1
  clear_value v2
  clear_value v3
  refine Tidy.ite ?_ ?_
  · assumption
  · extract_lets +onlyGivenNames v4 v5 v6 v7 v8 v9 v10 s11
    clear_value v4
    clear_value v5
    clear_value v6
    clear_value v7
    clear_value v8
    clear_value v9
    clear_value v10
    have hs11 : Tidy q m (s11) := by
      unfold s11
      refine Tidy.upd (s := s) ?_ rfl rfl rfl rfl
      assumption
    clear_value s11
    extract_lets +onlyGivenNames s12
    have hs12 : Tidy q m (s12) := by
      unfold s12
      refine forEach_tidy _ _ _ _ ?_ ?_
      · assumption
      · intro a13 a14 a15
        refine setPb_tidy _ _ _ _ ?_
        assumption
    clear_value s12
    refine Tidy.ite ?_ ?_
    · refine forEach_tidy _ _ _ _ ?_ ?_
      · assumption
      · intro a16 a17 a18
        refine setPb_tidy _ _ _ _ ?_
        assumption
    · assumption

theorem doInjectionWatchEnd_tidy : ∀ pin s, Tidy q m s → Tidy q m (@doInjectionWatchEnd pin s) := by
  intro pin s h0_
  unfold doInjectionWatchEnd
  split
  · rename_i b0 b1 b2 b3 b4
    refine Tidy.ite ?_ ?_
    · assumption
    · extract_lets +onlyGivenNames s5
      have hs5 : Tidy q m (s5) := by
        unfold s5
        refine setInjPin_tidy _ _ _ ?_
        assumption
      clear_value s5
      refine Tidy.ite ?_ ?_
      · refine setInjBit_tidy _ _ _ _ ?_
        assumption
      · refine setPin_tidy _ _ _ _ ?_
        refine setInjBit_tidy _ _ _ _ ?_
        assumption
  · rename_i b6 b7
    assumption

theorem doOpenCheckReversal_tidy : ∀ pin s, Tidy q m s → Tidy q m (@doOpenCheckReversal pin s) := by
  intro pin s h0_
  unfold doOpenCheckReversal
  extract_lets +onlyGivenNames v0 v1
  clear_value v0
  clear_value v1
  refine Tidy.ite ?_ ?_
  · assumption
  · extract_lets +onlyGivenNames v2 v3 v4 v5 s6
    clear_value v2
    clear_value v3
    clear_value v4
    clear_value v5
    have hs6 : Tidy q m (s6) := by
      unfold s6
      refine setOpenChk_tidy _ _ _ ?_
      assumption
    clear_value s6
    refine Tidy.ite ?_ ?_
    · refine setPin_tidy _ _ _ _ ?_
      assumption
    · refine Tidy.ite ?_ ?_
      · refine setPin_tidy _ _ _ _ ?_
        assumption
      · assumption

theorem doStepInjectionEnd_tidy : ∀ bay s, Tidy q m s → Tidy q m (@doStepInjectionEnd bay s) := by
  intro bay s h0_
  unfold doStepInjectionEnd
  refine injEnd_tidy _ _ ?_
  refine injEnd_tidy _ _ ?_
  assumption

theorem doStepInjectionStart_tidy : ∀ bay atStart s, Tidy q m s → Tidy q m (@doStepInjectionStart bay atStart s) := by
  intro bay atStart s h0_
  unfold doStepInjectionStart
  refine Tidy.ite ?_ ?_
  · refine forEach_tidy _ _ _ _ ?_ ?_
    · assumption
    · intro a0 a1 a2
      refine injStart_tidy _ _ _ ?_
      assumption
  · refine Tidy.ite ?_ ?_
    · refine injStart_tidy _ _ _ ?_
      assumption
    · assumption

/-! ### Acquisition -/

theorem windowEnd_tidy : ∀ s x, Tidy q m s → Tidy q m (@State.windowEnd s x) := by
  intro s x h0_
  unfold State.windowEnd
  extract_lets +onlyGivenNames v0 v1 s2 s3 s4 v5
  clear_value v0
  clear_value v1
  have hs2 : Tidy q m (s2) := by
    unfold s2
    refine setReg_tidy _ _ _ ?_
    refine setReg64_tidy _ _ _ _ ?_
    refine setReg64_tidy _ _ _ _ ?_
    assumption
  clear_value s2
  have hs3 : Tidy q m (s3) := by
    unfold s3
    refine setReg_tidy _ _ _ ?_
    assumption
  clear_value s3
  have hs4 : Tidy q m (s4) := by
    unfold s4
    refine setReg_tidy _ _ _ ?_
    assumption
  clear_value s4
  clear_value v5
  extract_lets +onlyGivenNames s6
  have hs6 : Tidy q m (s6) := by
    unfold s6
    refine setLane_tidy _ _ _ ?_
    assumption
  clear_value s6
  refine Tidy.ite ?_ ?_
  · refine raise_tidy _ _ _ ?_
    assumption
  · assumption

theorem accumulate_tidy : ∀ s x v f t, Tidy q m s → Tidy q m (@State.accumulate s x v f t) := by
  intro s x v f t h0_
  unfold State.accumulate
  extract_lets +onlyGivenNames s0 v1 v2 v3 v4 v5
  have hs0 : Tidy q m (s0) := by
    unfold s0
    refine Tidy.ite ?_ ?_
    · refine windowEnd_tidy _ _ ?_
      assumption
    · assumption
  clear_value s0
  clear_value v1
  clear_value v2
  clear_value v3
  clear_value v4
  clear_value v5
  refine Tidy.ite ?_ ?_
  · refine setLane_tidy _ _ _ ?_
    assumption
  · refine setLane_tidy _ _ _ ?_
    assumption

theorem testResult_tidy : ∀ s k test slot v, Tidy q m s → Tidy q m (@State.testResult s k test slot v) := by
  intro s k test slot v h
  unfold State.testResult
  extract_lets +onlyGivenNames s0
  have h0 : Tidy q m s0 := by
    unfold s0
    exact Tidy.ite (setFld_tidy _ _ _ _ h) h
  clear_value s0
  split
  · exact h0
  · rename_i ok he
    extract_lets +onlyGivenNames sl was n runs s1
    have h1 : Tidy q m s1 := setSlice_tidy _ _ _ h0
    clear_value s1
    extract_lets +onlyGivenNames s2
    have h2 : Tidy q m s2 := setFld_tidy _ _ _ _ (setBit_tidy _ _ _ _ h1)
    clear_value s2
    refine Tidy.ite ?_ h2
    extract_lets +onlyGivenNames s3
    have h3 : Tidy q m s3 := raise_tidy _ _ _ h2
    clear_value s3
    refine Tidy.ite (Tidy.ite h3 (acq_tidy h3)) ?_
    have h4 := setSlice_tidy s3 k { s3.slice k with diagBad := true } h3
    exact Tidy.ite h4 (acq_tidy h4)

theorem diagResult_tidy : ∀ s k pos gain slot v, Tidy q m s → Tidy q m (@State.diagResult s k pos gain slot v) := by
  intro s k pos gain slot v h0_
  unfold State.diagResult
  split
  · rename_i b0 b1 b2
    refine testResult_tidy _ _ _ _ _ ?_
    assumption
  · rename_i b3 b4
    assumption

theorem laneKeep_tidy : ∀ s x k v f, Tidy q m s → Tidy q m (@State.laneKeep s x k v f) := by
  intro s x k v f h0_
  unfold State.laneKeep
  extract_lets +onlyGivenNames v0 s1 s2 v3 v4 s5 s6 s7
  clear_value v0
  have hs1 : Tidy q m (s1) := by
    unfold s1
    refine trackSample_tidy _ _ _ _ _ ?_
    refine accumulate_tidy _ _ _ _ _ ?_
    assumption
  clear_value s1
  have hs2 : Tidy q m (s2) := by
    unfold s2
    refine Tidy.ite ?_ ?_
    · refine raiseLim_tidy _ _ _ _ ?_
      assumption
    · assumption
  clear_value s2
  clear_value v3
  clear_value v4
  have hs5 : Tidy q m (s5) := by
    unfold s5
    refine setLane_tidy _ _ _ ?_
    assumption
  clear_value s5
  have hs6 : Tidy q m (s6) := by
    unfold s6
    refine chainPush_tidy _ _ _ _ _ _ ?_
    assumption
  clear_value s6
  have hs7 : Tidy q m (s7) := by
    unfold s7
    split
    · rename_i b8 b9 b10
      refine waveTake_tidy _ _ ?_
      refine feedPush_tidy _ _ _ ?_
      assumption
    · rename_i b11 b12
      assumption
  clear_value s7
  refine openSample_tidy _ _ _ _ ?_
  assumption

theorem shadowCompare_tidy : ∀ s j g mine other, Tidy q m s → Tidy q m (@State.shadowCompare s j g mine other) := by
  intro s j g mine other h0_
  unfold State.shadowCompare
  split
  · rename_i b0 b1 b2 b3 b4 b5 b6
    refine Tidy.ite ?_ ?_
    · assumption
    · extract_lets +onlyGivenNames v7
      clear_value v7
      refine setUse_tidy _ _ ?_
      assumption
  · rename_i b8 b9
    assumption

theorem xckCount_tidy : ∀ s k differ, Tidy q m s → Tidy q m (@State.xckCount s k differ) := by
  intro s k differ h0_
  unfold State.xckCount
  refine Tidy.ite ?_ ?_
  · extract_lets +onlyGivenNames v0 v1
    clear_value v0
    clear_value v1
    extract_lets +onlyGivenNames s2
    have hs2 : Tidy q m (s2) := by
      unfold s2
      refine setSlice_tidy _ _ _ ?_
      assumption
    clear_value s2
    refine Tidy.ite ?_ ?_
    · refine markSuspect_tidy _ _ ?_
      assumption
    · assumption
  · refine setSlice_tidy _ _ _ ?_
    assumption

theorem xckStep_tidy : ∀ s x mine code shadow, Tidy q m s → Tidy q m (@State.xckStep s x mine code shadow) := by
  intro s x mine code shadow h0_
  unfold State.xckStep
  extract_lets +onlyGivenNames v0 v1 s2
  clear_value v0
  clear_value v1
  have hs2 : Tidy q m (s2) := by
    unfold s2
    refine Tidy.ite ?_ ?_
    · assumption
    · refine xckCount_tidy _ _ _ ?_
      assumption
  clear_value s2
  split
  · rename_i b3 b4
    refine shadowCompare_tidy _ _ _ _ _ ?_
    assumption
  · rename_i b5
    assumption

theorem doAccWindowEnd_tidy : ∀ lane s, Tidy q m s → Tidy q m (@doAccWindowEnd lane s) := by
  intro lane s h0_
  unfold doAccWindowEnd
  extract_lets +onlyGivenNames v0
  clear_value v0
  refine Tidy.ite ?_ ?_
  · refine windowEnd_tidy _ _ ?_
    assumption
  · assumption

theorem doInputCheckRequest_tidy : ∀ s, Tidy q m s → Tidy q m (@doInputCheckRequest s) := by
  intro s h0_
  unfold doInputCheckRequest
  extract_lets +onlyGivenNames v0
  clear_value v0
  refine Tidy.ite ?_ ?_
  · assumption
  · extract_lets +onlyGivenNames v1
    clear_value v1
    extract_lets +onlyGivenNames s2
    have hs2 : Tidy q m (s2) := by
      unfold s2
      refine Tidy.upd (s := s) ?_ rfl rfl rfl rfl
      assumption
    clear_value s2
    refine forEach_tidy _ _ _ _ ?_ ?_
    · assumption
    · intro a3 a4 a5
      extract_lets +onlyGivenNames v6
      clear_value v6
      have h7 : Tidy q m (a4.urgentRequest { src := 0, pos := v6.1, gain := v6.2, came := 0, slot := 0, tag := 0, heddle := 0 } a3).2 := by
        refine urgentRequest_tidy _ _ _ ?_
        assumption
      split
      rename_i b8 b9 b10 b11
      have e12 : Tidy q m b10 := by rw [b11] at h7; exact h7
      refine Tidy.ite ?_ ?_
      · refine setSlice_tidy _ _ _ ?_
        assumption
      · assumption

theorem doLaneSample_tidy : ∀ lane d s, Tidy q m s → Tidy q m (@doLaneSample lane d s) := by
  intro lane d s h0_
  unfold doLaneSample
  extract_lets +onlyGivenNames v0
  clear_value v0
  split
  · rename_i b1 b2
    assumption
  · rename_i b3 b4 b5
    refine Tidy.ite ?_ ?_
    · assumption
    · extract_lets +onlyGivenNames v6 v7 v8 s9 s10 s11
      clear_value v6
      clear_value v7
      clear_value v8
      have hs9 : Tidy q m (s9) := by
        unfold s9
        refine laneKeep_tidy _ _ _ _ _ ?_
        assumption
      clear_value s9
      have hs10 : Tidy q m (s10) := by
        unfold s10
        split
        · rename_i b12 b13 b14 b15 b16 b17
          refine xckStep_tidy _ _ _ _ _ ?_
          assumption
        · rename_i b18 b19 b20
          assumption
      clear_value s10
      have hs11 : Tidy q m (s11) := by
        unfold s11
        refine forEach_tidy _ _ _ _ ?_ ?_
        · assumption
        · intro a21 a22 a23
          refine shadowCompare_tidy _ _ _ _ _ ?_
          assumption
      clear_value s11
      refine injSample_tidy _ _ _ _ ?_
      assumption

theorem doUrgentServe_tidy : ∀ slice code s, Tidy q none s → Tidy q none (@doUrgentServe slice code s) := by
  intro slice code s h0_
  unfold doUrgentServe
  extract_lets +onlyGivenNames v0 v1
  clear_value v0
  clear_value v1
  split
  · rename_i b2 b3
    split
    · rename_i b4 b5
      assumption
    · rename_i b6 b7 b8 b9 b10
      refine diagResult_tidy _ _ _ _ _ _ ?_
      refine setSlice_tidy _ _ _ ?_
      assumption
  · rename_i b11 b12 b13
    refine Tidy.ite ?_ ?_
    · assumption
    · extract_lets +onlyGivenNames v14 s15 v16
      clear_value v14
      have hs15 : Tidy q none (s15) := by
        unfold s15
        refine setSlice_tidy _ _ _ ?_
        assumption
      clear_value s15
      clear_value v16
      extract_lets +onlyGivenNames v17
      clear_value v17
      split
      · rename_i b18 b19
        refine diagResult_tidy _ _ _ _ _ _ ?_
        assumption
      · rename_i b20 b21
        extract_lets +onlyGivenNames s22
        have hs22 : Tidy q none (s22) := by
          unfold s22
          refine setReg_tidy _ _ _ ?_
          assumption
        clear_value s22
        refine setOctetsLE_tidy _ _ _ _ ?_
        refine setOctetsLE_tidy _ _ _ _ ?_
        assumption
      · rename_i b23 b24 b25
        refine respond_tidy _ _ ?_
        refine raise_tidy _ _ _ ?_
        refine setReg_tidy _ _ _ ?_
        assumption

/-! ### Measure -/

theorem setBayProt_tidy : ∀ s b p, Tidy q m s → Tidy q m (@State.setBayProt s b p) := by
  intro s b p h0_
  unfold State.setBayProt
  refine Tidy.upd (s := s) ?_ rfl rfl rfl rfl
  assumption

theorem putPhasor_tidy : ∀ s am aa x ref, Tidy q m s → Tidy q m (@State.putPhasor s am aa x ref) := by
  intro s am aa x ref h0_
  unfold State.putPhasor
  refine setReg_tidy _ _ _ ?_
  refine setReg_tidy _ _ _ ?_
  assumption

theorem snapshot_tidy : ∀ s cx p, Tidy q m s → Tidy q m (@State.snapshot s cx p) := by
  intro s cx p h0_
  unfold State.snapshot
  extract_lets +onlyGivenNames v0
  clear_value v0
  split
  rename_i b1 b2 b3 b4
  extract_lets +onlyGivenNames s5 v6 v7 s8 s9 v10 v11 s12 s13 s14 v15 s16 s17 s18 v19
  have hs5 : Tidy q m (s5) := by
    unfold s5
    refine setReg_tidy _ _ _ ?_
    assumption
  clear_value s5
  clear_value v6
  clear_value v7
  have hs8 : Tidy q m (s8) := by
    unfold s8
    refine setReg_tidy _ _ _ ?_
    refine setReg_tidy _ _ _ ?_
    assumption
  clear_value s8
  have hs9 : Tidy q m (s9) := by
    unfold s9
    refine forEach_tidy _ _ _ _ ?_ ?_
    · assumption
    · intro a20 a21 a22
      refine Tidy.ite ?_ ?_
      · refine putPhasor_tidy _ _ _ _ _ ?_
        assumption
      · assumption
  clear_value s9
  clear_value v10
  clear_value v11
  have hs12 : Tidy q m (s12) := by
    unfold s12
    refine putPhasor_tidy _ _ _ _ _ ?_
    refine putPhasor_tidy _ _ _ _ _ ?_
    refine putPhasor_tidy _ _ _ _ _ ?_
    assumption
  clear_value s12
  have hs13 : Tidy q m (s13) := by
    unfold s13
    refine Tidy.ite ?_ ?_
    · refine setReg_tidy _ _ _ ?_
      refine setReg_tidy _ _ _ ?_
      assumption
    · refine putPhasor_tidy _ _ _ _ _ ?_
      assumption
  clear_value s13
  have hs14 : Tidy q m (s14) := by
    unfold s14
    refine putPhasor_tidy _ _ _ _ _ ?_
    refine putPhasor_tidy _ _ _ _ _ ?_
    assumption
  clear_value s14
  clear_value v15
  have hs16 : Tidy q m (s16) := by
    unfold s16
    refine setReg_tidy _ _ _ ?_
    refine setReg_tidy _ _ _ ?_
    assumption
  clear_value s16
  have hs17 : Tidy q m (s17) := by
    unfold s17
    refine forEach_tidy _ _ _ _ ?_ ?_
    · assumption
    · intro a23 a24 a25
      split
      · rename_i b26 b27 b28
        refine setReg_tidy _ _ _ ?_
        refine setReg_tidy _ _ _ ?_
        assumption
      · rename_i b29 b30
        refine setReg_tidy _ _ _ ?_
        refine setReg_tidy _ _ _ ?_
        assumption
  clear_value s17
  have hs18 : Tidy q m (s18) := by
    unfold s18
    refine Tidy.ite ?_ ?_
    · refine forEach_tidy _ _ _ _ ?_ ?_
      · assumption
      · intro a31 a32 a33
        refine setReg_tidy _ _ _ ?_
        assumption
    · assumption
  clear_value s18
  clear_value v19
  refine setReg_tidy _ _ _ ?_
  assumption

theorem measure_tidy : ∀ s b fr, Tidy q m s → Tidy q m (@State.measure s b fr).2 := by
  intro s b fr h0_
  unfold State.measure
  extract_lets +onlyGivenNames v0 v1 v2 v3 v4 v5 v6 v7 v8 v9 s10 s11 s12
  clear_value v0
  clear_value v1
  clear_value v2
  clear_value v3
  clear_value v4
  clear_value v5
  clear_value v6
  clear_value v7
  clear_value v8
  clear_value v9
  have hs10 : Tidy q m (s10) := by
    unfold s10
    refine setBayProt_tidy _ _ _ ?_
    assumption
  clear_value s10
  have hs11 : Tidy q m (s11) := by
    unfold s11
    refine snapshot_tidy _ _ _ ?_
    assumption
  clear_value s11
  have hs12 : Tidy q m (s12) := by
    unfold s12
    refine Tidy.ite ?_ ?_
    · refine pairBalance_tidy _ _ _ _ _ _ ?_
      assumption
    · assumption
  clear_value s12
  dsimp only
  assumption

/-! ### ElementOps -/

theorem setInst_tidy : ∀ s x i, Tidy q m s → Tidy q m (@State.setInst s x i) := by
  intro s x i h0_
  unfold State.setInst
  refine Tidy.upd (s := s) ?_ rfl rfl rfl rfl
  assumption

/-! ### Motor -/

theorem setMotor_tidy : ∀ s b x2, Tidy q m s → Tidy q m (@State.setMotor s b x2) := by
  intro s b x2 h0_
  unfold State.setMotor
  refine setBayProt_tidy _ _ _ ?_
  assumption

theorem motorSync_tidy : ∀ s b t, Tidy q m s → Tidy q m (@State.motorSync s b t) := by
  intro s b t h0_
  unfold State.motorSync
  extract_lets +onlyGivenNames v0 v1 v2
  clear_value v0
  clear_value v1
  clear_value v2
  refine setReg_tidy _ _ _ ?_
  refine setReg_tidy _ _ _ ?_
  refine setReg_tidy _ _ _ ?_
  refine setReg_tidy _ _ _ ?_
  assumption

theorem countStart_tidy : ∀ s b, Tidy q m s → Tidy q m (@State.countStart s b) := by
  intro s b h0_
  unfold State.countStart
  extract_lets +onlyGivenNames v0
  clear_value v0
  refine Tidy.ite ?_ ?_
  · assumption
  · extract_lets +onlyGivenNames s1
    have hs1 : Tidy q m (s1) := by
      unfold s1
      refine setReg_tidy _ _ _ ?_
      assumption
    clear_value s1
    refine Tidy.ite ?_ ?_
    · refine raise_tidy _ _ _ ?_
      assumption
    · assumption

theorem thermalStep_tidy : ∀ s cx x, Tidy q m s → Tidy q m (@State.thermalStep s cx x) := by
  intro s cx x h0_
  unfold State.thermalStep
  refine Tidy.ite ?_ ?_
  · assumption
  · extract_lets +onlyGivenNames v0 v1 v2 v3 v4 v5 v6 v7 v8 v9 v10
    clear_value v0
    clear_value v1
    clear_value v2
    clear_value v3
    clear_value v4
    clear_value v5
    clear_value v6
    clear_value v7
    clear_value v8
    clear_value v9
    clear_value v10
    refine setMotor_tidy _ _ _ ?_
    assumption

theorem startRecord_tidy : ∀ s b x2, Tidy q m s → Tidy q m (@State.startRecord s b x2) := by
  intro s b x2 h0_
  unfold State.startRecord
  refine setReg_tidy _ _ _ ?_
  refine setReg_tidy _ _ _ ?_
  refine setReg_tidy _ _ _ ?_
  assumption

theorem motorStep_tidy : ∀ s cx, Tidy q m s → Tidy q m (@State.motorStep s cx) := by
  intro s cx h0_
  unfold State.motorStep
  extract_lets +onlyGivenNames v0
  clear_value v0
  split
  · rename_i b1 b2
    assumption
  · rename_i b3 b4 b5
    extract_lets +onlyGivenNames v6
    clear_value v6
    refine Tidy.ite ?_ ?_
    · refine setMotor_tidy _ _ _ ?_
      assumption
    · extract_lets +onlyGivenNames v7 v8 v9 v10 v11 v12 v13 s14 s15
      clear_value v7
      clear_value v8
      clear_value v9
      clear_value v10
      clear_value v11
      clear_value v12
      clear_value v13
      have hs14 : Tidy q m (s14) := by
        unfold s14
        refine setMotor_tidy _ _ _ ?_
        assumption
      clear_value s14
      have hs15 : Tidy q m (s15) := by
        unfold s15
        refine Tidy.ite ?_ ?_
        · refine countStart_tidy _ _ ?_
          assumption
        · assumption
      clear_value s15
      refine Tidy.ite ?_ ?_
      · refine startRecord_tidy _ _ _ ?_
        assumption
      · assumption

theorem trstSync_tidy : ∀ s b, Tidy q m s → Tidy q m (@State.trstSync s b) := by
  intro s b h0_
  unfold State.trstSync
  split
  · rename_i b0 b1 b2 b3 b4 b5 b6
    extract_lets +onlyGivenNames v7 v8 v9
    clear_value v7
    clear_value v8
    clear_value v9
    refine setReg_tidy _ _ _ ?_
    assumption
  · rename_i b10 b11 b12
    refine setReg_tidy _ _ _ ?_
    assumption

/-! ### FrameProcess -/

theorem armSync_tidy : ∀ s b, Tidy q m s → Tidy q m (@State.armSync s b) := by
  intro s b h0_
  unfold State.armSync
  extract_lets +onlyGivenNames v0
  clear_value v0
  refine Tidy.ite ?_ ?_
  · assumption
  · refine raise_tidy _ _ _ ?_
    refine setBit_tidy _ _ _ _ ?_
    assumption

theorem setWaveInst_tidy : ∀ s x w, Tidy q m s → Tidy q m (@State.setWaveInst s x w) := by
  intro s x w h0_
  unfold State.setWaveInst
  refine Tidy.upd (s := s) ?_ rfl rfl rfl rfl
  assumption

theorem countOps_tidy : ∀ s x, Tidy q m s → Tidy q m (@State.countOps s x) := by
  intro s x h0_
  unfold State.countOps
  extract_lets +onlyGivenNames v0
  clear_value v0
  refine Tidy.ite ?_ ?_
  · assumption
  · extract_lets +onlyGivenNames v1
    clear_value v1
    extract_lets +onlyGivenNames s2
    have hs2 : Tidy q m (s2) := by
      unfold s2
      refine Tidy.upd (s := s) ?_ rfl rfl rfl rfl
      assumption
    clear_value s2
    refine forEach_tidy _ _ _ _ ?_ ?_
    · assumption
    · intro a3 a4 a5
      refine incSat_tidy _ _ _ _ _ ?_
      assumption

theorem putDisabled_tidy : ∀ s x, Tidy q m s → Tidy q m (@State.putDisabled s x) := by
  intro s x h0_
  unfold State.putDisabled
  extract_lets +onlyGivenNames v0 s1
  clear_value v0
  have hs1 : Tidy q m (s1) := by
    unfold s1
    refine setReg_tidy _ _ _ ?_
    refine setInst_tidy _ _ _ ?_
    assumption
  clear_value s1
  extract_lets +onlyGivenNames s2
  have hs2 : Tidy q m (s2) := by
    unfold s2
    refine setReg_tidy _ _ _ ?_
    assumption
  clear_value s2
  refine Tidy.ite ?_ ?_
  · refine tripEval_tidy _ ?_
    refine setLiveOp_tidy _ _ _ ?_
    assumption
  · assumption

theorem putArc_tidy : ∀ s x, Tidy q m s → Tidy q m (@State.putArc s x) := by
  intro s x h0_
  unfold State.putArc
  extract_lets +onlyGivenNames v0 v1 v2 s3 s4
  clear_value v0
  clear_value v1
  clear_value v2
  have hs3 : Tidy q m (s3) := by
    unfold s3
    refine setInst_tidy _ _ _ ?_
    assumption
  clear_value s3
  have hs4 : Tidy q m (s4) := by
    unfold s4
    refine setReg_tidy _ _ _ ?_
    assumption
  clear_value s4
  extract_lets +onlyGivenNames s5
  have hs5 : Tidy q m (s5) := by
    unfold s5
    refine countOps_tidy _ _ ?_
    assumption
  clear_value s5
  refine Tidy.ite ?_ ?_
  · refine raiseLim_tidy _ _ _ _ ?_
    assumption
  · assumption

theorem putWave_tidy : ∀ s x, Tidy q m s → Tidy q m (@State.putWave s x) := by
  intro s x h0_
  unfold State.putWave
  extract_lets +onlyGivenNames v0 v1 v2 s3
  clear_value v0
  clear_value v1
  clear_value v2
  have hs3 : Tidy q m (s3) := by
    unfold s3
    refine setInst_tidy _ _ _ ?_
    assumption
  clear_value s3
  extract_lets +onlyGivenNames s4
  have hs4 : Tidy q m (s4) := by
    unfold s4
    refine countOps_tidy _ _ ?_
    refine setReg_tidy _ _ _ ?_
    assumption
  clear_value s4
  refine Tidy.ite ?_ ?_
  · refine setLiveOp_tidy _ _ _ ?_
    assumption
  · assumption

theorem observe_tidy : ∀ s cx x st, Tidy q m s → Tidy q m (@State.observe s cx x st).1 := by
  intro s cx x st h0_
  unfold State.observe
  split
  · rename_i b0 b1
    dsimp only
    assumption
  · rename_i b2 b3
    dsimp only
    assumption
  · rename_i b4 b5
    dsimp only
    refine thermalStep_tidy _ _ _ ?_
    assumption
  · rename_i b6 b7 b8 b9
    dsimp only
    assumption

theorem putResult_tidy : ∀ s x st op blk inv, Tidy q m s → Tidy q m (@State.putResult s x st op blk inv) := by
  intro s x st op blk inv h0_
  unfold State.putResult
  extract_lets +onlyGivenNames v0 s1 s2 s3 s4
  clear_value v0
  have hs1 : Tidy q m (s1) := by
    unfold s1
    refine setInst_tidy _ _ _ ?_
    assumption
  clear_value s1
  have hs2 : Tidy q m (s2) := by
    unfold s2
    refine setReg_tidy _ _ _ ?_
    refine setReg_tidy _ _ _ ?_
    assumption
  clear_value s2
  have hs3 : Tidy q m (s3) := by
    unfold s3
    refine Tidy.ite ?_ ?_
    · assumption
    · refine Tidy.ite ?_ ?_
      · refine arcEval_tidy _ ?_
        refine setLiveOp_tidy _ _ _ ?_
        assumption
      · refine tripEval_tidy _ ?_
        refine setLiveOp_tidy _ _ _ ?_
        assumption
  clear_value s3
  have hs4 : Tidy q m (s4) := by
    unfold s4
    refine countOps_tidy _ _ ?_
    assumption
  clear_value s4
  refine Tidy.ite ?_ ?_
  · refine raiseLim_tidy _ _ _ _ ?_
    assumption
  · assumption

theorem evalInst_tidy : ∀ s cx x, Tidy q m s → Tidy q m (@State.evalInst s cx x) := by
  intro s cx x h0_
  unfold State.evalInst
  refine Tidy.ite ?_ ?_
  · refine putDisabled_tidy _ _ ?_
    assumption
  · refine Tidy.ite ?_ ?_
    · refine putArc_tidy _ _ ?_
      assumption
    · refine Tidy.ite ?_ ?_
      · refine putWave_tidy _ _ ?_
        assumption
      · have h0 : Tidy q m (s.observe cx x (s.instBegin x)).1 := by
          refine observe_tidy _ _ _ _ ?_
          assumption
        split
        rename_i b1 b2 b3 b4
        have e5 : Tidy q m b2 := by rw [b4] at h0; exact h0
        extract_lets +onlyGivenNames v6 v7
        clear_value v6
        clear_value v7
        refine Tidy.ite ?_ ?_
        · refine putResult_tidy _ _ _ _ _ _ ?_
          assumption
        · split
          rename_i b8 b9 b10 b11
          refine putResult_tidy _ _ _ _ _ _ ?_
          assumption

theorem riseEvents_tidy : ∀ s b old new, Tidy q m s → Tidy q m (@State.riseEvents s b old new) := by
  intro s b old new h0_
  unfold State.riseEvents
  extract_lets +onlyGivenNames s0
  have hs0 : Tidy q m (s0) := by
    unfold s0
    refine Tidy.ite ?_ ?_
    · refine raise_tidy _ _ _ ?_
      assumption
    · assumption
  clear_value s0
  refine Tidy.ite ?_ ?_
  · refine raise_tidy _ _ _ ?_
    assumption
  · assumption

theorem interruptFrame_tidy : ∀ s b per, Tidy q m s → Tidy q m (@State.interruptFrame s b per) := by
  intro s b per h0_
  unfold State.interruptFrame
  split
  · rename_i b0 b1
    assumption
  · rename_i b2 b3 b4
    refine forEach_tidy _ _ _ _ ?_ ?_
    · assumption
    · intro a5 a6 a7
      split
      · rename_i b8 b9 b10
        refine Tidy.ite ?_ ?_
        · assumption
        · extract_lets +onlyGivenNames v11
          clear_value v11
          refine Tidy.upd (s := a6) ?_ rfl rfl rfl rfl
          assumption
      · rename_i b12 b13
        assumption

theorem postResults_tidy : ∀ s cx bits, Tidy q m s → Tidy q m (@State.postResults s cx bits) := by
  intro s cx bits h0_
  unfold State.postResults
  extract_lets +onlyGivenNames v0
  clear_value v0
  refine Tidy.ite ?_ ?_
  · refine Tidy.upd (s := s) ?_ rfl rfl rfl rfl
    assumption
  · extract_lets +onlyGivenNames v1 v2 v3
    clear_value v1
    clear_value v2
    clear_value v3
    refine wakeFor_tidy _ _ ?_
    refine Tidy.upd (s := s) ?_ rfl rfl rfl rfl
    assumption

theorem imageBits_tidy : ∀ s bits, Tidy q none s → Tidy q none (@State.imageBits s bits) := by
  intro s bits h0_
  unfold State.imageBits
  refine forEach_tidy _ _ _ _ ?_ ?_
  · assumption
  · intro a0 a1 a2
    extract_lets +onlyGivenNames v3 v4 v5 v6
    clear_value v3
    clear_value v4
    clear_value v5
    clear_value v6
    refine setOctet_tidy _ _ _ ?_
    assumption

theorem protUp_tidy : ∀ s, Tidy q m s → Tidy q m (@State.protUp s) := by
  intro s h0_
  unfold State.protUp
  extract_lets +onlyGivenNames v0 v1 v2
  clear_value v0
  clear_value v1
  clear_value v2
  refine Tidy.ite ?_ ?_
  · assumption
  · extract_lets +onlyGivenNames s3
    have hs3 : Tidy q m (s3) := by
      unfold s3
      refine setBit_tidy _ _ _ _ ?_
      refine setBit_tidy _ _ _ _ ?_
      assumption
    clear_value s3
    refine raise_tidy _ _ _ ?_
    refine setFld_tidy _ _ _ _ ?_
    assumption

theorem resultTime_tidy : ∀ s b e ns, Tidy q m s → Tidy q m (@State.resultTime s b e ns) := by
  intro s b e ns h0_
  unfold State.resultTime
  extract_lets +onlyGivenNames v0 v1 v2 s3
  clear_value v0
  clear_value v1
  clear_value v2
  have hs3 : Tidy q m (s3) := by
    unfold s3
    refine Tidy.upd (s := s) ?_ rfl rfl rfl rfl
    assumption
  clear_value s3
  extract_lets +onlyGivenNames s4
  have hs4 : Tidy q m (s4) := by
    unfold s4
    refine setFld_tidy _ _ _ _ ?_
    refine setReg_tidy _ _ _ ?_
    assumption
  clear_value s4
  refine Tidy.ite ?_ ?_
  · assumption
  · refine raise_tidy _ _ _ ?_
    refine Tidy.upd (s := s4) ?_ rfl rfl rfl rfl
    assumption

theorem prtBoundary_tidy : ∀ s b n, Tidy q m s → Tidy q m (@State.prtBoundary s b n) := by
  intro s b n h0_
  unfold State.prtBoundary
  extract_lets +onlyGivenNames v0 v1 v2
  clear_value v0
  clear_value v1
  clear_value v2
  extract_lets +onlyGivenNames s3
  have hs3 : Tidy q m (s3) := by
    unfold s3
    refine Tidy.upd (s := s) ?_ rfl rfl rfl rfl
    assumption
  clear_value s3
  refine forEach_tidy _ _ _ _ ?_ ?_
  · assumption
  · intro a4 a5 a6
    refine Tidy.ite ?_ ?_
    · assumption
    · refine raise_tidy _ _ _ ?_
      refine forEach_tidy _ _ _ _ ?_ ?_
      · assumption
      · intro a7 a8 a9
        refine setReg_tidy _ _ _ ?_
        assumption

/-! ### Wavefront -/

theorem putDecision_tidy : ∀ s b add d, Tidy q m s → Tidy q m (@State.putDecision s b add d) := by
  intro s b add d h0_
  unfold State.putDecision
  extract_lets +onlyGivenNames v0
  clear_value v0
  refine setReg_tidy _ _ _ ?_
  refine setReg_tidy _ _ _ ?_
  assumption

theorem burstDecide_tidy : ∀ s b ta add xs burst, Tidy q m s → Tidy q m (@State.burstDecide s b ta add xs burst) := by
  intro s b ta add xs burst h0_
  unfold State.burstDecide
  extract_lets +onlyGivenNames s0
  have hs0 : Tidy q m (s0) := by
    unfold s0
    refine forEach_tidy _ _ _ _ ?_ ?_
    · assumption
    · intro a1 a2 a3
      extract_lets +onlyGivenNames v4 v5 v6
      clear_value v4
      clear_value v5
      clear_value v6
      refine setWaveInst_tidy _ _ _ ?_
      assumption
  clear_value s0
  split
  · rename_i b7 b8 b9
    refine putDecision_tidy _ _ _ _ ?_
    assumption
  · rename_i b10
    assumption

theorem cflLate_tidy : ∀ s b ta, Tidy q m s → Tidy q m (@State.cflLate s b ta) := by
  intro s b ta h0_
  unfold State.cflLate
  extract_lets +onlyGivenNames v0
  clear_value v0
  refine forEach_tidy _ _ _ _ ?_ ?_
  · assumption
  · intro a1 a2 a3
    refine setWaveInst_tidy _ _ _ ?_
    assumption

theorem arrivalTake_tidy : ∀ s b a, Tidy q m s → Tidy q m (@State.arrivalTake s b a) := by
  intro s b a h0_
  unfold State.arrivalTake
  extract_lets +onlyGivenNames v0 v1 v2 s3 s4
  clear_value v0
  clear_value v1
  clear_value v2
  have hs3 : Tidy q m (s3) := by
    unfold s3
    split
    · rename_i b5 b6 b7 b8
      refine Tidy.ite ?_ ?_
      · refine burstDecide_tidy _ _ _ _ _ _ ?_
        refine setBayProt_tidy _ _ _ ?_
        assumption
      · assumption
    · rename_i b9 b10
      assumption
  clear_value s3
  have hs4 : Tidy q m (s4) := by
    unfold s4
    refine burstDecide_tidy _ _ _ _ _ _ ?_
    assumption
  clear_value s4
  extract_lets +onlyGivenNames v11
  clear_value v11
  extract_lets +onlyGivenNames s12
  have hs12 : Tidy q m (s12) := by
    unfold s12
    refine Tidy.ite ?_ ?_
    · refine cflLate_tidy _ _ _ ?_
      refine setBayProt_tidy _ _ _ ?_
      assumption
    · assumption
  clear_value s12
  refine setBayProt_tidy _ _ _ ?_
  assumption

theorem putFar_tidy : ∀ s b d, Tidy q m s → Tidy q m (@State.putFar s b d) := by
  intro s b d h0_
  unfold State.putFar
  have h0 : Tidy q m (s.nextFree).2 := by
    refine nextFree_tidy _ ?_
    assumption
  split
  rename_i b1 b2 b3 b4
  have e5 : Tidy q m b3 := by rw [b4] at h0; exact h0
  extract_lets +onlyGivenNames v6 s7
  clear_value v6
  have hs7 : Tidy q m (s7) := by
    unfold s7
    refine setFld_tidy _ _ _ _ ?_
    refine setBit_tidy _ _ _ _ ?_
    refine setBit_tidy _ _ _ _ ?_
    assumption
  clear_value s7
  refine setReg_tidy _ _ _ ?_
  assumption

theorem putLocation_tidy : ∀ s b se de clip, Tidy q m s → Tidy q m (@State.putLocation s b se de clip) := by
  intro s b se de clip h0_
  unfold State.putLocation
  have h0 : Tidy q m (s.nextFree).2 := by
    refine nextFree_tidy _ ?_
    assumption
  split
  rename_i b1 b2 b3 b4
  have e5 : Tidy q m b3 := by rw [b4] at h0; exact h0
  extract_lets +onlyGivenNames v6 v7 v8
  clear_value v6
  clear_value v7
  clear_value v8
  refine setReg_tidy _ _ _ ?_
  refine setReg_tidy _ _ _ ?_
  refine setReg_tidy _ _ _ ?_
  assumption

theorem wfdTriggersCfl_tidy : ∀ s b x ta, Tidy q m s → Tidy q m (@State.wfdTriggersCfl s b x ta) := by
  intro s b x ta h0_
  unfold State.wfdTriggersCfl
  refine forEach_tidy _ _ _ _ ?_ ?_
  · assumption
  · intro a0 a1 a2
    refine setWaveInst_tidy _ _ _ ?_
    assumption

theorem doCflLocate_tidy : ∀ inst s, Tidy q m s → Tidy q m (@doCflLocate inst s) := by
  intro inst s h0_
  unfold doCflLocate
  extract_lets +onlyGivenNames v0 v1 v2
  clear_value v0
  clear_value v1
  clear_value v2
  split
  · rename_i b3 b4
    assumption
  · rename_i b5 b6 b7
    extract_lets +onlyGivenNames v8
    clear_value v8
    refine Tidy.ite ?_ ?_
    · assumption
    · extract_lets +onlyGivenNames v9 v10
      clear_value v9
      clear_value v10
      refine Tidy.ite ?_ ?_
      · split
        · rename_i b11 b12
          refine setLiveOp_tidy _ _ _ ?_
          refine setWaveInst_tidy _ _ _ ?_
          refine putFar_tidy _ _ _ ?_
          assumption
        · rename_i b13
          refine Tidy.ite ?_ ?_
          · assumption
          · refine setWaveInst_tidy _ _ _ ?_
            assumption
      · extract_lets +onlyGivenNames v14 v15 v16 v17 v18 s19 s20
        clear_value v14
        clear_value v15
        clear_value v16
        clear_value v17
        clear_value v18
        have hs19 : Tidy q m (s19) := by
          unfold s19
          refine setReg64_tidy _ _ _ _ ?_
          refine putLocation_tidy _ _ _ _ _ ?_
          assumption
        clear_value s19
        have hs20 : Tidy q m (s20) := by
          unfold s20
          refine setWaveInst_tidy _ _ _ ?_
          assumption
        clear_value s20
        refine Tidy.ite ?_ ?_
        · refine setLiveOp_tidy _ _ _ ?_
          assumption
        · assumption

theorem doWfdHoldEnd_tidy : ∀ inst s, Tidy q m s → Tidy q m (@doWfdHoldEnd inst s) := by
  intro inst s h0_
  unfold doWfdHoldEnd
  extract_lets +onlyGivenNames v0
  clear_value v0
  split
  · rename_i b1 b2
    assumption
  · rename_i b3 b4 b5
    refine Tidy.ite ?_ ?_
    · assumption
    · refine tripEval_tidy _ ?_
      refine setLiveOp_tidy _ _ _ ?_
      refine setWaveInst_tidy _ _ _ ?_
      assumption

theorem doWfdRecordTake_tidy : ∀ bay s, Tidy q m s → Tidy q m (@doWfdRecordTake bay s) := by
  intro bay s h0_
  unfold doWfdRecordTake
  extract_lets +onlyGivenNames v0
  clear_value v0
  refine Tidy.ite ?_ ?_
  · assumption
  · extract_lets +onlyGivenNames v1 s2
    clear_value v1
    have hs2 : Tidy q m (s2) := by
      unfold s2
      refine setBayChain_tidy _ _ _ ?_
      assumption
    clear_value s2
    refine forEach_tidy _ _ _ _ ?_ ?_
    · assumption
    · intro a3 a4 a5
      refine arrivalTake_tidy _ _ _ ?_
      assumption

theorem doWfdSupervision_tidy : ∀ inst s, Tidy q m s → Tidy q m (@doWfdSupervision inst s) := by
  intro inst s h0_
  unfold doWfdSupervision
  extract_lets +onlyGivenNames v0 v1 v2
  clear_value v0
  clear_value v1
  clear_value v2
  split
  · rename_i b3 b4
    assumption
  · rename_i b5 b6 b7
    refine Tidy.ite ?_ ?_
    · assumption
    · extract_lets +onlyGivenNames v8 s9
      clear_value v8
      have hs9 : Tidy q m (s9) := by
        unfold s9
        refine setBit_tidy _ _ _ _ ?_
        refine setWaveInst_tidy _ _ _ ?_
        assumption
      clear_value s9
      refine Tidy.ite ?_ ?_
      · extract_lets +onlyGivenNames v10
        clear_value v10
        extract_lets +onlyGivenNames s11
        have hs11 : Tidy q m (s11) := by
          unfold s11
          refine setWaveInst_tidy _ _ _ ?_
          assumption
        clear_value s11
        refine tripEval_tidy _ ?_
        refine wfdTriggersCfl_tidy _ _ _ _ ?_
        refine setLiveOp_tidy _ _ _ ?_
        assumption
      · assumption

end Sys2Proof.Laws
end

