-- ==== Sys2Proof/Laws/TidyLogic.lean ====
section
/-! SUPPORT. Every function of Heddle, Spindle and the Peal keeps the queue of waiting commands and the canonical form of memory, registers and
latched copies; one that writes no octet keeps memory. -/

namespace Sys2Proof.Laws

open Sys2Proof.Machine

variable {q : List Instr} {m : Option (List Host.Cell)}

/-! ### QImage -/

theorem qShadow_tidy : ∀ s o x2 v, Tidy q m s → Tidy q m (@State.qShadow s o x2 v) := by
  intro s o x2 v h0_
  unfold State.qShadow
  refine forEach_tidy _ _ _ _ ?_ ?_
  · assumption
  · intro a0 a1 a2
    extract_lets +onlyGivenNames v3
    clear_value v3
    refine forEach_tidy _ _ _ _ ?_ ?_
    · assumption
    · intro a4 a5 a6
      refine Tidy.ite ?_ ?_
      · refine setBit_tidy _ _ _ _ ?_
        assumption
      · assumption

theorem qStore_tidy : ∀ s o x2 v derived, Tidy q none s → Tidy q none (@State.qStore s o x2 v derived) := by
  intro s o x2 v derived h0_
  unfold State.qStore
  extract_lets +onlyGivenNames s0 s1
  have hs0 : Tidy q none (s0) := by
    unfold s0
    refine qShadow_tidy _ _ _ _ ?_
    assumption
  clear_value s0
  have hs1 : Tidy q none (s1) := by
    unfold s1
    refine setOctet_tidy _ _ _ ?_
    assumption
  clear_value s1
  refine Tidy.upd (s := s1) ?_ rfl rfl rfl rfl
  assumption

theorem qStoreLE_tidy : ∀ s o derived n v, Tidy q none s → Tidy q none (@State.qStoreLE s o derived n v) := by
  intro s o derived n
  induction n generalizing s o with
  | zero => intro v h; exact h
  | succ k ih => intro v h; exact ih _ _ _ (qStore_tidy _ _ _ _ _ h)

/-! ### Sources -/

theorem setMod_tidy : ∀ s x1 x, Tidy q m s → Tidy q m (@State.setMod s x1 x) := by
  intro s x1 x h0_
  unfold State.setMod
  refine Tidy.upd (s := s) ?_ rfl rfl rfl rfl
  assumption

theorem setSub_tidy : ∀ s n x, Tidy q m s → Tidy q m (@State.setSub s n x) := by
  intro s n x h0_
  unfold State.setSub
  refine Tidy.upd (s := s) ?_ rfl rfl rfl rfl
  assumption

/-! ### LoopMath -/

theorem setLoopB_tidy : ∀ s b x, Tidy q m s → Tidy q m (@State.setLoopB s b x) := by
  intro s b x h0_
  unfold State.setLoopB
  refine Tidy.upd (s := s) ?_ rfl rfl rfl rfl
  assumption

/-! ### Spindle -/

theorem spnTwin_tidy : ∀ s, Tidy q m s → Tidy q m (@State.spnTwin s) := by
  intro s h0_
  unfold State.spnTwin
  refine setFld_tidy _ _ _ _ ?_
  refine setFld_tidy _ _ _ _ ?_
  assumption

theorem issueTo_tidy : ∀ s b x, Tidy q none s → Tidy q none (@State.issueTo s b x) := by
  intro s b x h0_
  unfold State.issueTo
  extract_lets +onlyGivenNames v0 v1
  clear_value v0
  clear_value v1
  split
  · rename_i b2 b3
    refine setFld_tidy _ _ _ _ ?_
    assumption
  · rename_i b4 b5
    refine qStoreLE_tidy _ _ _ _ _ ?_
    assumption
  · rename_i b6 b7
    refine qStoreLE_tidy _ _ _ _ _ ?_
    assumption
  · rename_i b8 b9 b10 b11
    assumption

theorem issueLoop_tidy :
    ∀ s b x tsmp mode sat bad stale trip pdone sel, Tidy q none s → Tidy q none (@State.issueLoop s b x tsmp mode sat bad stale trip pdone sel) := by
  intro s b x tsmp mode sat bad stale trip pdone sel h0_
  unfold State.issueLoop
  extract_lets +onlyGivenNames v0 v1 v2 s3 s4 s5
  clear_value v0
  clear_value v1
  clear_value v2
  have hs3 : Tidy q none (s3) := by
    unfold s3
    refine setReg_tidy _ _ _ ?_
    refine setReg_tidy _ _ _ ?_
    refine setReg_tidy _ _ _ ?_
    assumption
  clear_value s3
  have hs4 : Tidy q none (s4) := by
    unfold s4
    refine setReg64_tidy _ _ _ _ ?_
    refine setReg64_tidy _ _ _ _ ?_
    assumption
  clear_value s4
  have hs5 : Tidy q none (s5) := by
    unfold s5
    refine setOctetsLE_tidy _ _ _ _ ?_
    refine setOctetsLE_tidy _ _ _ _ ?_
    assumption
  clear_value s5
  refine issueTo_tidy _ _ _ ?_
  assumption

theorem loopEvents_tidy :
    ∀ s b r d wasMode mode wasTrip wasBad wasSel wasRefused, Tidy q m s → Tidy q m (@State.loopEvents s b r d wasMode mode wasTrip wasBad wasSel wasRefused) := by
  intro s b r d wasMode mode wasTrip wasBad wasSel wasRefused h0_
  unfold State.loopEvents
  extract_lets +onlyGivenNames s0 s1 s2 s3 s4
  have hs0 : Tidy q m (s0) := by
    unfold s0
    refine Tidy.ite ?_ ?_
    · refine raiseLim_tidy _ _ _ _ ?_
      assumption
    · assumption
  clear_value s0
  have hs1 : Tidy q m (s1) := by
    unfold s1
    refine Tidy.ite ?_ ?_
    · refine raise_tidy _ _ _ ?_
      assumption
    · assumption
  clear_value s1
  have hs2 : Tidy q m (s2) := by
    unfold s2
    refine Tidy.ite ?_ ?_
    · refine raise_tidy _ _ _ ?_
      assumption
    · assumption
  clear_value s2
  have hs3 : Tidy q m (s3) := by
    unfold s3
    refine Tidy.ite ?_ ?_
    · refine raise_tidy _ _ _ ?_
      assumption
    · assumption
  clear_value s3
  have hs4 : Tidy q m (s4) := by
    unfold s4
    refine Tidy.ite ?_ ?_
    · refine raiseLim_tidy _ _ _ _ ?_
      assumption
    · assumption
  clear_value s4
  refine Tidy.ite ?_ ?_
  · refine raise_tidy _ _ _ ?_
    assumption
  · assumption

theorem releaseLoop_tidy : ∀ s b, Tidy q none s → Tidy q none (@State.releaseLoop s b) := by
  intro s b h
  unfold State.releaseLoop
  extract_lets st wasMode wasTrip wasBad wasSel
  generalize (if st.started = true then (st, s.spnOut b) else s.loopStart b st) = p
  cases p with
  | mk st0 last =>
  dsimp -zeta only
  extract_lets d r0 follow r mode stale tsmp s1 s2 s3
  have h1 : Tidy q none s1 := setLoopB_tidy _ _ _ h
  have h2 : Tidy q none s2 := issueLoop_tidy _ _ _ _ _ _ _ _ _ _ _ h1
  have h3 : Tidy q none s3 := loopEvents_tidy _ _ _ _ _ _ _ _ _ _ (Tidy.upd (s := s2) h2 rfl rfl rfl rfl)
  exact Tidy.ite (plySend_tidy _ _ h3) h3

theorem skipLoops_tidy : ∀ s b n, Tidy q m s → Tidy q m (@State.skipLoops s b n) := by
  intro s b n h0_
  unfold State.skipLoops
  extract_lets +onlyGivenNames v0
  clear_value v0
  refine forEach_tidy _ _ _ _ ?_ ?_
  · assumption
  · intro a1 a2 a3
    refine raiseLim_tidy _ _ _ _ ?_
    refine incSat_tidy _ _ _ _ _ ?_
    assumption

theorem doBlockRelease_tidy : ∀ b s, Tidy q none s → Tidy q none (@doBlockRelease b s) := by
  intro b s h0_
  unfold doBlockRelease
  split
  · rename_i b0 b1
    assumption
  · rename_i b2 b3 b4
    refine Tidy.ite ?_ ?_
    · assumption
    · extract_lets +onlyGivenNames v5
      clear_value v5
      refine Tidy.ite ?_ ?_
      · refine wakeFor_tidy _ _ ?_
        assumption
      · extract_lets +onlyGivenNames v6
        clear_value v6
        extract_lets +onlyGivenNames s7
        have hs7 : Tidy q none (s7) := by
          unfold s7
          refine setLoopB_tidy _ _ _ ?_
          assumption
        clear_value s7
        refine releaseLoop_tidy _ _ ?_
        refine skipLoops_tidy _ _ _ ?_
        refine spnTwin_tidy _ ?_
        refine wakeFor_tidy _ _ ?_
        assumption

theorem doLoopValuesReceive_tidy : ∀ b v s, Tidy q m s → Tidy q m (@doLoopValuesReceive b v s) := by
  intro b v s h0_
  unfold doLoopValuesReceive
  refine Tidy.ite ?_ ?_
  · refine Tidy.upd (s := s) ?_ rfl rfl rfl rfl
    assumption
  · assumption

/-! ### Peal -/

theorem pealPut_tidy : ∀ s e st i, Tidy q m s → Tidy q m (@State.pealPut s e st i) := by
  intro s e st i h0_
  unfold State.pealPut
  extract_lets +onlyGivenNames v0 v1 s2 v3 s4
  clear_value v0
  clear_value v1
  have hs2 : Tidy q m (s2) := by
    unfold s2
    refine setFld_tidy _ _ _ _ ?_
    refine setFld_tidy _ _ _ _ ?_
    assumption
  clear_value s2
  clear_value v3
  have hs4 : Tidy q m (s4) := by
    unfold s4
    refine Tidy.upd (s := s2) ?_ rfl rfl rfl rfl
    assumption
  clear_value s4
  extract_lets +onlyGivenNames v5
  clear_value v5
  refine Tidy.ite ?_ ?_
  · assumption
  · refine setFld_tidy _ _ _ _ ?_
    assumption

theorem pealGo_tidy : ∀ s e i, Tidy q m s → Tidy q m (@State.pealGo s e i) := by
  intro s e i h0_
  unfold State.pealGo
  refine pealPut_tidy _ _ _ _ ?_
  assumption

theorem pealArm_tidy : ∀ s e, Tidy q m s → Tidy q m (@State.pealArm s e) := by
  intro s e h0_
  unfold State.pealArm
  extract_lets +onlyGivenNames v0
  clear_value v0
  refine Tidy.ite ?_ ?_
  · refine Tidy.ite ?_ ?_
    · refine pealGo_tidy _ _ _ ?_
      assumption
    · extract_lets +onlyGivenNames s1
      have hs1 : Tidy q m (s1) := by
        unfold s1
        refine pealGo_tidy _ _ _ ?_
        assumption
      clear_value s1
      refine Tidy.upd (s := s1) ?_ rfl rfl rfl rfl
      assumption
  · refine pealGo_tidy _ _ _ ?_
    assumption

theorem pealEnable_tidy : ∀ s e, Tidy q m s → Tidy q m (@State.pealEnable s e) := by
  intro s e h0_
  unfold State.pealEnable
  refine Tidy.ite ?_ ?_
  · refine Tidy.ite ?_ ?_
    · refine pealArm_tidy _ _ ?_
      assumption
    · assumption
  · refine Tidy.ite ?_ ?_
    · assumption
    · refine pealPut_tidy _ _ _ _ ?_
      assumption

theorem pelCount_tidy : ∀ s late, Tidy q m s → Tidy q m (@State.pelCount s late) := by
  intro s late h0_
  unfold State.pelCount
  refine incSat_tidy _ _ _ _ _ ?_
  assumption

theorem setClose_tidy : ∀ s b c, Tidy q m s → Tidy q m (@State.setClose s b c) := by
  intro s b c h0_
  unfold State.setClose
  refine Tidy.upd (s := s) ?_ rfl rfl rfl rfl
  assumption

theorem closeCancel_tidy : ∀ s, Tidy q m s → Tidy q m (@State.closeCancel s) := by
  intro s h0_
  unfold State.closeCancel
  refine forEach_tidy _ _ _ _ ?_ ?_
  · assumption
  · intro a0 a1 a2
    refine Tidy.ite ?_ ?_
    · extract_lets +onlyGivenNames s3
      have hs3 : Tidy q m (s3) := by
        unfold s3
        refine setFld_tidy _ _ _ _ ?_
        refine setFld_tidy _ _ _ _ ?_
        assumption
      clear_value s3
      split
      · rename_i b4 b5 b6
        refine Tidy.ite ?_ ?_
        · refine setFld_tidy _ _ _ _ ?_
          assumption
        · refine setClose_tidy _ _ _ ?_
          assumption
      · rename_i b7 b8
        assumption
    · assumption

theorem closeDrive_tidy : ∀ s b c ns, Tidy q m s → Tidy q m (@State.closeDrive s b c ns) := by
  intro s b c ns h0_
  unfold State.closeDrive
  refine setClose_tidy _ _ _ ?_
  refine setGout_tidy _ _ _ ?_
  assumption

theorem closeRefuse_tidy : ∀ s b cause t, Tidy q m s → Tidy q m (@State.closeRefuse s b cause t) := by
  intro s b cause t h0_
  unfold State.closeRefuse
  extract_lets +onlyGivenNames s0
  have hs0 : Tidy q m (s0) := by
    unfold s0
    refine raise_tidy _ _ _ ?_
    refine setFld_tidy _ _ _ _ ?_
    assumption
  clear_value s0
  refine Tidy.ite ?_ ?_
  · extract_lets +onlyGivenNames s1
    have hs1 : Tidy q m (s1) := by
      unfold s1
      refine Tidy.ite ?_ ?_
      · refine setFld_tidy _ _ _ _ ?_
        assumption
      · assumption
    clear_value s1
    extract_lets +onlyGivenNames v2
    clear_value v2
    refine closeDrive_tidy _ _ _ _ ?_
    assumption
  · assumption

theorem closeRequest_tidy : ∀ s b t, Tidy q m s → Tidy q m (@State.closeRequest s b t) := by
  intro s b t h0_
  unfold State.closeRequest
  refine Tidy.ite ?_ ?_
  · assumption
  · refine Tidy.ite ?_ ?_
    · refine closeRefuse_tidy _ _ _ _ ?_
      assumption
    · split
      · rename_i b0 b1
        refine closeRefuse_tidy _ _ _ _ ?_
        assumption
      · rename_i b2 b3 b4 b5 b6
        refine Tidy.ite ?_ ?_
        · refine closeRefuse_tidy _ _ _ _ ?_
          assumption
        · refine Tidy.ite ?_ ?_
          · refine closeRefuse_tidy _ _ _ _ ?_
            assumption
          · split
            rename_i b7 b8 b9 b10
            extract_lets +onlyGivenNames v11 v12 s13
            clear_value v11
            clear_value v12
            have hs13 : Tidy q m (s13) := by
              unfold s13
              refine setReg64_tidy _ _ _ _ ?_
              refine setFld_tidy _ _ _ _ ?_
              refine setFld_tidy _ _ _ _ ?_
              assumption
            clear_value s13
            refine setClose_tidy _ _ _ ?_
            refine Tidy.upd (s := s13) ?_ rfl rfl rfl rfl
            assumption

theorem closeLearn_tidy : ∀ s b c, Tidy q m s → Tidy q m (@State.closeLearn s b c) := by
  intro s b c h0_
  unfold State.closeLearn
  extract_lets +onlyGivenNames v0
  have hv0 : ∀ x0, Tidy q m x0 → Tidy q m (v0 x0) := by
    intro a1 a2
    unfold v0
    refine incSat_tidy _ _ _ _ _ ?_
    assumption
  clear_value v0
  split
  · rename_i b3 b4
    refine hv0 _ ?_
    assumption
  · rename_i b5 b6 b7
    extract_lets +onlyGivenNames s8 v9 v10
    have hs8 : Tidy q m (s8) := by
      unfold s8
      refine setReg_tidy _ _ _ ?_
      assumption
    clear_value s8
    clear_value v9
    clear_value v10
    refine Tidy.ite ?_ ?_
    · refine hv0 _ ?_
      assumption
    · refine Tidy.ite ?_ ?_
      · assumption
      · extract_lets +onlyGivenNames v11 v12 v13
        clear_value v11
        clear_value v12
        clear_value v13
        refine incWrap_tidy _ _ _ ?_
        refine setFld_tidy _ _ _ _ ?_
        refine setReg_tidy _ _ _ ?_
        assumption

theorem closeOnset_tidy : ∀ s b phase x, Tidy q m s → Tidy q m (@State.closeOnset s b phase x) := by
  intro s b phase x h0_
  unfold State.closeOnset
  split
  · rename_i b0 b1
    assumption
  · rename_i b2 b3 b4
    refine Tidy.ite ?_ ?_
    · refine setClose_tidy _ _ _ ?_
      assumption
    · assumption

theorem defaultFeed_tidy : ∀ s b p codes, Tidy q m s → Tidy q m (@State.defaultFeed s b p codes) := by
  intro s b p codes h0_
  unfold State.defaultFeed
  extract_lets +onlyGivenNames v0 v1
  clear_value v0
  clear_value v1
  refine Tidy.ite ?_ ?_
  · assumption
  · refine forEach_tidy _ _ _ _ ?_ ?_
    · refine Tidy.upd (s := s) ?_ rfl rfl rfl rfl
      assumption
    · intro a2 a3 a4
      refine feedPush_tidy _ _ _ ?_
      assumption

theorem pealStep_tidy : ∀ s, Tidy q m s → Tidy q m (@State.pealStep s) := by
  intro s h0_
  unfold State.pealStep
  refine forEach_tidy _ _ _ _ ?_ ?_
  · assumption
  · intro a0 a1 a2
    refine Tidy.ite ?_ ?_
    · assumption
    · refine Tidy.ite ?_ ?_
      · refine pealGo_tidy _ _ _ ?_
        assumption
      · refine Tidy.upd (s := a1) ?_ rfl rfl rfl rfl
        assumption

theorem doCloseCommand_tidy : ∀ bay s, Tidy q m s → Tidy q m (@doCloseCommand bay s) := by
  intro bay s h0_
  unfold doCloseCommand
  split
  · rename_i b0 b1
    assumption
  · rename_i b2 b3 b4
    refine Tidy.ite ?_ ?_
    · assumption
    · extract_lets +onlyGivenNames v5
      clear_value v5
      refine closeDrive_tidy _ _ _ _ ?_
      refine setFld_tidy _ _ _ _ ?_
      assumption

theorem doClosePulseEnd_tidy : ∀ bay s, Tidy q m s → Tidy q m (@doClosePulseEnd bay s) := by
  intro bay s h0_
  unfold doClosePulseEnd
  split
  · rename_i b0 b1
    assumption
  · rename_i b2 b3 b4
    refine Tidy.ite ?_ ?_
    · assumption
    · extract_lets +onlyGivenNames s5
      have hs5 : Tidy q m (s5) := by
        unfold s5
        refine setClose_tidy _ _ _ ?_
        refine setGout_tidy _ _ _ ?_
        assumption
      clear_value s5
      refine Tidy.ite ?_ ?_
      · refine setClose_tidy _ _ _ ?_
        refine setFld_tidy _ _ _ _ ?_
        assumption
      · assumption

theorem doCloseWindowEnd_tidy : ∀ bay s, Tidy q m s → Tidy q m (@doCloseWindowEnd bay s) := by
  intro bay s h0_
  unfold doCloseWindowEnd
  split
  · rename_i b0 b1
    assumption
  · rename_i b2 b3 b4
    refine Tidy.ite ?_ ?_
    · assumption
    · extract_lets +onlyGivenNames s5
      have hs5 : Tidy q m (s5) := by
        unfold s5
        refine setFld_tidy _ _ _ _ ?_
        refine closeLearn_tidy _ _ _ ?_
        assumption
      clear_value s5
      refine raise_tidy _ _ _ ?_
      refine Tidy.ite ?_ ?_
      · assumption
      · refine setClose_tidy _ _ _ ?_
        assumption

theorem doPealSlotLoad_tidy : ∀ e s, Tidy q m s → Tidy q m (@doPealSlotLoad e s) := by
  intro e s h0_
  unfold doPealSlotLoad
  extract_lets +onlyGivenNames v0 v1
  clear_value v0 v1
  refine Tidy.ite ?_ ?_
  · assumption
  · refine Tidy.upd (s := s) ?_ rfl rfl rfl rfl
    assumption

theorem doWatchmanFeedSample_tidy : ∀ bay phase codes s, Tidy q m s → Tidy q m (@doWatchmanFeedSample bay phase codes s) := by
  intro bay phase codes s h0_
  unfold doWatchmanFeedSample
  extract_lets +onlyGivenNames v0 s1 v2
  clear_value v0
  have hs1 : Tidy q m (s1) := by
    unfold s1
    refine defaultFeed_tidy _ _ _ _ ?_
    assumption
  clear_value s1
  clear_value v2
  refine Tidy.ite ?_ ?_
  · assumption
  · extract_lets +onlyGivenNames v3 v4
    clear_value v3
    clear_value v4
    extract_lets +onlyGivenNames s5
    have hs5 : Tidy q m (s5) := by
      unfold s5
      refine Tidy.upd (s := s1) ?_ rfl rfl rfl rfl
      assumption
    clear_value s5
    refine closeOnset_tidy _ _ _ _ ?_
    refine feedSample_tidy _ _ _ _ _ ?_
    refine arcTake_tidy _ _ ?_
    assumption

theorem pealTake_tidy : ∀ s e action, Tidy q m s → ∀ t, @State.pealTake s e action = some t → Tidy q m t.2 := by
  intro s e action h r hr
  unfold State.pealTake at hr
  extract_lets i t late slot src s1 s2 s3 at hr
  split at hr
  · have h1 : Tidy q m s1 := Tidy.ite (Tidy.upd (s := s) h rfl rfl rfl rfl) (Tidy.ite h (incSat_tidy _ _ _ _ _ h))
    have h2 : Tidy q m s2 := incWrap_tidy _ _ _ (setBit_tidy _ _ _ _ h1)
    have h3 : Tidy q m s3 := Tidy.ite (raise_tidy _ _ _ (pelCount_tidy _ _ h2)) h2
    obtain rfl := Option.some.inj hr
    exact pealGo_tidy _ _ _ (wakeFor_tidy _ _ h3)
  · cases hr

theorem pealAct_tidy : ∀ s e action f, Tidy q m s → (∀ y0 y1, Tidy q m y1 → Tidy q m (f y0 y1)) →
    Tidy q m (@State.pealAct s e action f) := by
  intro s e action f h hf
  unfold State.pealAct
  split
  · rename_i t s1 he
    exact hf _ _ (pealTake_tidy _ _ _ h _ he)
  · exact h

theorem doPealCapture_tidy : ∀ e s, Tidy q m s → Tidy q m (@doPealCapture e s) := by
  intro e s h0_
  unfold doPealCapture
  refine pealAct_tidy _ _ _ _ ?_ ?_
  · assumption
  · intro a0 a1 a2
    refine captureTrigger_tidy _ _ _ _ ?_
    assumption

theorem doPealControlledClose_tidy : ∀ e s, Tidy q m s → Tidy q m (@doPealControlledClose e s) := by
  intro e s h0_
  unfold doPealControlledClose
  refine pealAct_tidy _ _ _ _ ?_ ?_
  · assumption
  · intro a0 a1 a2
    refine closeRequest_tidy _ _ _ ?_
    assumption

theorem doPealEventTask_tidy : ∀ e s, Tidy q m s → Tidy q m (@doPealEventTask e s) := by
  intro e s h0_
  unfold doPealEventTask
  refine pealAct_tidy _ _ _ _ ?_ ?_
  · assumption
  · intro a0 a1 a2
    refine releaseEvent_tidy _ _ _ ?_
    assumption

theorem doPealOverlay_tidy : ∀ e s, Tidy q m s → Tidy q m (@doPealOverlay e s) := by
  intro e s h0_
  unfold doPealOverlay
  refine pealAct_tidy _ _ _ _ ?_ ?_
  · assumption
  · intro a0 a1 a2
    refine ovlRequest_tidy _ _ _ _ ?_
    assumption

theorem doPealProfileStart_tidy : ∀ e s, Tidy q m s → Tidy q m (@doPealProfileStart e s) := by
  intro e s h0_
  unfold doPealProfileStart
  refine pealAct_tidy _ _ _ _ ?_ ?_
  · assumption
  · intro a0 a1 a2
    extract_lets +onlyGivenNames v3 v4
    clear_value v3
    clear_value v4
    refine Tidy.ite ?_ ?_
    · refine raise_tidy _ _ _ ?_
      refine pelCount_tidy _ _ ?_
      assumption
    · refine setLoopB_tidy _ _ _ ?_
      assumption

theorem doPealSetGout_tidy : ∀ e s, Tidy q m s → Tidy q m (@doPealSetGout e s) := by
  intro e s h0_
  unfold doPealSetGout
  refine pealAct_tidy _ _ _ _ ?_ ?_
  · assumption
  · intro a0 a1 a2
    refine setGout_tidy _ _ _ ?_
    assumption

/-! ### HeddleTasks -/

theorem keepSeen_tidy : ∀ s a n, Tidy q m s → Tidy q m (@State.keepSeen s a n) := by
  intro s a n h0_
  unfold State.keepSeen
  refine forEach_tidy _ _ _ _ ?_ ?_
  · assumption
  · intro a0 a1 a2
    refine setHeddle_tidy _ _ _ ?_
    assumption

theorem forceQ_tidy : ∀ s e, Tidy q none s → Tidy q none (@State.forceQ s e) := by
  intro s e h0_
  unfold State.forceQ
  extract_lets +onlyGivenNames v0 v1 s2 s3
  clear_value v0
  clear_value v1
  have hs2 : Tidy q none (s2) := by
    unfold s2
    refine setReg_tidy _ _ _ ?_
    refine keepSeen_tidy _ _ _ ?_
    assumption
  clear_value s2
  have hs3 : Tidy q none (s3) := by
    unfold s3
    refine forEach_tidy _ _ _ _ ?_ ?_
    · assumption
    · intro a4 a5 a6
      extract_lets +onlyGivenNames v7
      clear_value v7
      refine setOctet_tidy _ _ _ ?_
      assumption
  clear_value s3
  refine arcEval_tidy _ ?_
  refine goutFollow_tidy _ ?_
  refine ltrqFollow_tidy _ ?_
  assumption

theorem forceSync_tidy : ∀ s, Tidy q m s → Tidy q m (@State.forceSync s) := by
  intro s h0_
  unfold State.forceSync
  extract_lets +onlyGivenNames v0 v1 s2
  clear_value v0
  clear_value v1
  have hs2 : Tidy q m (s2) := by
    unfold s2
    refine setBit_tidy _ _ _ _ ?_
    refine setFld_tidy _ _ _ _ ?_
    assumption
  clear_value s2
  refine Tidy.ite ?_ ?_
  · refine raise_tidy _ _ _ ?_
    assumption
  · refine Tidy.ite ?_ ?_
    · refine raise_tidy _ _ _ ?_
      assumption
    · assumption

theorem tunablePut_tidy : ∀ s t v, Tidy q none s → Tidy q none (@State.tunablePut s t v) := by
  intro s t v h0_
  unfold State.tunablePut
  refine setOctetsLE_tidy _ _ _ _ ?_
  assumption

theorem putOnline_tidy : ∀ s l, Tidy q none s → Tidy q none (@State.putOnline s l) := by
  intro s l h0_
  unfold State.putOnline
  refine forEach_tidy _ _ _ _ ?_ ?_
  · assumption
  · intro a0 a1 a2
    split
    · rename_i b3 b4 b5
      extract_lets +onlyGivenNames s6
      have hs6 : Tidy q none (s6) := by
        unfold s6
        refine tunablePut_tidy _ _ _ ?_
        assumption
      clear_value s6
      refine Tidy.upd (s := s6) ?_ rfl rfl rfl rfl
      assumption
    · rename_i b7 b8
      assumption

theorem forceNote_tidy : ∀ s e released, Tidy q m s → Tidy q m (@State.forceNote s e released) := by
  intro s e released h0_
  unfold State.forceNote
  refine note_tidy _ _ _ ?_
  assumption

theorem forceOff_tidy : ∀ s e, Tidy q m s → Tidy q m (@State.forceOff s e) := by
  intro s e h0_
  unfold State.forceOff
  refine Tidy.ite ?_ ?_
  · refine forceSync_tidy _ ?_
    refine setReg_tidy _ _ _ ?_
    refine setReg_tidy _ _ _ ?_
    refine setReg_tidy _ _ _ ?_
    refine forceNote_tidy _ _ _ ?_
    assumption
  · assumption

theorem heddleArm_tidy : ∀ s, Tidy q m s → Tidy q m (@State.heddleArm s) := by
  intro s h0_
  unfold State.heddleArm
  refine forEach_tidy _ _ _ _ ?_ ?_
  · assumption
  · intro a0 a1 a2
    extract_lets +onlyGivenNames v3
    clear_value v3
    refine setHeddle_tidy _ _ _ ?_
    assumption

theorem runLogic_tidy : ∀ s, Tidy q m s → Tidy q m (@State.runLogic s) := by
  intro s h0_
  unfold State.runLogic
  refine Tidy.ite ?_ ?_
  · assumption
  · extract_lets +onlyGivenNames s0 v1
    have hs0 : Tidy q m (s0) := by
      unfold s0
      refine forEach_tidy _ _ _ _ ?_ ?_
      · assumption
      · intro a2 a3 a4
        refine setHeddle_tidy _ _ _ ?_
        assumption
    clear_value s0
    clear_value v1
    extract_lets +onlyGivenNames s5
    have hs5 : Tidy q m (s5) := by
      unfold s5
      refine Tidy.upd (s := s0) ?_ rfl rfl rfl rfl
      assumption
    clear_value s5
    refine heddleArm_tidy _ ?_
    refine setMode_tidy _ _ ?_
    refine setFld_tidy _ _ _ _ ?_
    refine setReg_tidy _ _ _ ?_
    assumption

theorem forceOn_tidy : ∀ s e area size addr v, Tidy q none s → Tidy q none (@State.forceOn s e area size addr v) := by
  intro s e area size addr v h0_
  unfold State.forceOn
  extract_lets +onlyGivenNames v0 s1
  clear_value v0
  have hs1 : Tidy q none (s1) := by
    unfold s1
    refine forceNote_tidy _ _ _ ?_
    refine setReg_tidy _ _ _ ?_
    refine setReg_tidy _ _ _ ?_
    assumption
  clear_value s1
  refine forceSync_tidy _ ?_
  refine Tidy.ite ?_ ?_
  · refine forceQ_tidy _ _ ?_
    assumption
  · assumption

theorem onlineApply_tidy : ∀ s i v, Tidy q none s → Tidy q none (@State.onlineApply s i v) := by
  intro s i v h0_
  unfold State.onlineApply
  split
  · rename_i b0 b1
    assumption
  · rename_i b2 b3 b4
    extract_lets +onlyGivenNames v5 s6 v7
    clear_value v5
    have hs6 : Tidy q none (s6) := by
      unfold s6
      refine tunablePut_tidy _ _ _ ?_
      refine keepSeen_tidy _ _ _ ?_
      assumption
    clear_value s6
    clear_value v7
    extract_lets +onlyGivenNames s8
    have hs8 : Tidy q none (s8) := by
      unfold s8
      refine Tidy.upd (s := s6) ?_ rfl rfl rfl rfl
      assumption
    clear_value s8
    refine raise_tidy _ _ _ ?_
    refine note_tidy _ _ _ ?_
    refine incWrap_tidy _ _ _ ?_
    assumption

theorem logicAct_tidy : ∀ s a, Tidy q none s → Tidy q none (@State.logicAct s a) := by
  intro s a h0_
  unfold State.logicAct
  split
  · rename_i b0 b1 b2 b3 b4 b5
    refine forceOn_tidy _ _ _ _ _ _ ?_
    assumption
  · rename_i b6 b7
    refine forceOff_tidy _ _ ?_
    assumption
  · rename_i b8
    refine forEach_tidy _ _ _ _ ?_ ?_
    · assumption
    · intro a9 a10 a11
      refine forceOff_tidy _ _ ?_
      assumption
  · rename_i b12 b13 b14
    refine onlineApply_tidy _ _ _ ?_
    assumption
  · rename_i b15
    refine runLogic_tidy _ ?_
    assumption
  · rename_i b16
    refine stopLogic_tidy _ ?_
    assumption

theorem applyDue_tidy : ∀ s, Tidy q none s → Tidy q none (@State.applyDue s) := by
  intro s h0_
  unfold State.applyDue
  extract_lets +onlyGivenNames v0
  clear_value v0
  refine forEach_tidy _ _ _ _ ?_ ?_
  · refine Tidy.upd (s := s) ?_ rfl rfl rfl rfl
    assumption
  · intro a1 a2 a3
    refine logicAct_tidy _ _ ?_
    assumption

theorem closeEdges_tidy : ∀ s before, Tidy q m s → Tidy q m (@State.closeEdges s before) := by
  intro s before h0_
  unfold State.closeEdges
  refine forEach_tidy _ _ _ _ ?_ ?_
  · assumption
  · intro a0 a1 a2
    extract_lets +onlyGivenNames v3
    clear_value v3
    refine Tidy.ite ?_ ?_
    · refine closeRequest_tidy _ _ _ ?_
      assumption
    · assumption

theorem execDone_tidy : ∀ s h c, Tidy q none s → Tidy q none (@State.execDone s h c) := by
  intro s h c h0_
  unfold State.execDone
  extract_lets +onlyGivenNames s0 s1
  have hs0 : Tidy q none (s0) := by
    unfold s0
    refine incWrap_tidy _ _ _ ?_
    assumption
  clear_value s0
  have hs1 : Tidy q none (s1) := by
    unfold s1
    refine setFld_tidy _ _ _ _ ?_
    assumption
  clear_value s1
  refine finishExec_tidy _ _ _ ?_
  refine holdDefaults_tidy _ ?_
  refine setBit_tidy _ _ _ _ ?_
  assumption

theorem outputWrite_tidy : ∀ s h c, Tidy q none s → Tidy q none (@State.outputWrite s h c) := by
  intro s h c h0_
  unfold State.outputWrite
  extract_lets +onlyGivenNames v0 v1 s2 v3 v4 v5
  clear_value v0
  clear_value v1
  have hs2 : Tidy q none (s2) := by
    unfold s2
    refine forEach_tidy _ _ _ _ ?_ ?_
    · assumption
    · intro a6 a7 a8
      refine qStore_tidy _ _ _ _ _ ?_
      assumption
  clear_value s2
  clear_value v3
  clear_value v4
  clear_value v5
  extract_lets +onlyGivenNames s9
  have hs9 : Tidy q none (s9) := by
    unfold s9
    refine Tidy.upd (s := s2) ?_ rfl rfl rfl rfl
    assumption
  clear_value s9
  refine arcEval_tidy _ ?_
  refine closeEdges_tidy _ _ ?_
  refine goutFollow_tidy _ ?_
  refine ltrqFollow_tidy _ ?_
  assumption

theorem endNow_tidy : ∀ s h c, Tidy q none s → Tidy q none (@State.endNow s h c) := by
  intro s h c h0_
  unfold State.endNow
  refine Tidy.ite ?_ ?_
  · refine progFault_tidy _ _ _ _ ?_
    assumption
  · refine execDone_tidy _ _ _ ?_
    refine outputWrite_tidy _ _ _ ?_
    assumption

theorem forceImage_tidy : ∀ s img, Tidy q m s → Tidy q m (@State.forceImage s img).2 := by
  intro s img h
  exact foldlSnd_tidy _ _ (fun p x hp => setReg_tidy _ _ _ hp) h

theorem periodicDue_tidy : ∀ s h t at_, Tidy q m s → Tidy q m (@State.periodicDue s h t at_) := by
  intro s h t at_ h0_
  unfold State.periodicDue
  refine Tidy.ite ?_ ?_
  · refine raise_tidy _ _ _ ?_
    refine countSkip_tidy _ _ _ ?_
    assumption
  · refine Tidy.ite ?_ ?_
    · assumption
    · refine postRelease_tidy _ _ _ ?_
      assumption

theorem doBudgetIdleEnd_tidy : ∀ h s, Tidy q m s → Tidy q m (@doBudgetIdleEnd h s) := by
  intro h s h0_
  unfold doBudgetIdleEnd
  split
  · rename_i b0 b1 b2
    refine Tidy.ite ?_ ?_
    · assumption
    · refine setHeddle_tidy _ _ _ ?_
      assumption
  · rename_i b3 b4
    assumption

theorem doEndExec_tidy : ∀ h s, Tidy q none s → Tidy q none (@doEndExec h s) := by
  intro h s h0_
  unfold doEndExec
  split
  · rename_i b0 b1
    assumption
  · rename_i b2 b3 b4 b5
    refine Tidy.ite ?_ ?_
    · refine endNow_tidy _ _ _ ?_
      assumption
    · assumption

theorem doEventRelease_tidy : ∀ h t s, Tidy q m s → Tidy q m (@doEventRelease h t s) := by
  intro h t s h0_
  unfold doEventRelease
  extract_lets +onlyGivenNames v0
  clear_value v0
  refine Tidy.ite ?_ ?_
  · refine releaseEvent_tidy _ _ _ ?_
    refine Tidy.upd (s := s) ?_ rfl rfl rfl rfl
    assumption
  · assumption

theorem doExecutionStart_tidy : ∀ h s, Tidy q m s → Tidy q m (@doExecutionStart h s) := by
  intro h s h0_
  unfold doExecutionStart
  split
  · rename_i b0 b1
    assumption
  · rename_i b2 b3 b4
    refine Tidy.ite ?_ ?_
    · assumption
    · have h5 : Tidy q m ((s.wakeFor 2).forceImage s.rawImage).2 := by
        refine forceImage_tidy _ _ ?_
        refine wakeFor_tidy _ _ ?_
        assumption
      split
      rename_i b6 b7 b8 b9
      have e10 : Tidy q m b8 := by rw [b9] at h5; exact h5
      extract_lets +onlyGivenNames v11 v12 v13 v14 v15 s16
      clear_value v11
      clear_value v12
      clear_value v13
      clear_value v14
      clear_value v15
      have hs16 : Tidy q m (s16) := by
        unfold s16
        refine setHeddle_tidy _ _ _ ?_
        assumption
      clear_value s16
      refine breakCheck_tidy _ _ ?_
      refine setFld_tidy _ _ _ _ ?_
      assumption

theorem doFreeRunCycleStart_tidy : ∀ h s, Tidy q m s → Tidy q m (@doFreeRunCycleStart h s) := by
  intro h s h0_
  unfold doFreeRunCycleStart
  extract_lets +onlyGivenNames v0 v1
  clear_value v0
  clear_value v1
  refine Tidy.ite ?_ ?_
  · assumption
  · refine cycleEnd_tidy _ _ ?_
    refine setHeddle_tidy _ _ _ ?_
    refine wakeFor_tidy _ _ ?_
    assumption

theorem doOnlineApply_tidy : ∀ s, Tidy q none s → Tidy q none (@doOnlineApply s) := by
  intro s h0_
  unfold doOnlineApply
  refine applyDue_tidy _ ?_
  assumption

theorem doPeriodicRelease_tidy : ∀ h t s, Tidy q m s → Tidy q m (@doPeriodicRelease h t s) := by
  intro h t s h0_
  unfold doPeriodicRelease
  extract_lets +onlyGivenNames v0
  clear_value v0
  split
  · rename_i b1 b2
    assumption
  · rename_i b3 b4 b5
    refine Tidy.ite ?_ ?_
    · assumption
    · extract_lets +onlyGivenNames v6 v7
      clear_value v6
      clear_value v7
      extract_lets +onlyGivenNames s8
      have hs8 : Tidy q m (s8) := by
        unfold s8
        refine setHeddle_tidy _ _ _ ?_
        assumption
      clear_value s8
      refine forEach_tidy _ _ _ _ ?_ ?_
      · assumption
      · intro a9 a10 a11
        refine periodicDue_tidy _ _ _ _ ?_
        assumption

/-! ### Heddle instructions -/

/-- What an instruction's meaning answers is tidy. -/
def HTidy (q : List Instr) (r : HRes) : Prop := ∀ c s, r = .ok c s → Tidy q none s
/-- An instruction's meaning keeps a state tidy. -/
def SemTidy (q : List Instr) (sem : BitVec 64 → Ctx → State → HRes) : Prop := ∀ w c s, Tidy q none s → HTidy q (sem w c s)
theorem htidy_ok {c : Ctx} {s : State} (h : Tidy q none s) : HTidy q (.ok c s) := by
  intro c1 s1 e
  injection e with _ e
  exact e ▸ h
theorem htidy_fault {n : Nat} : HTidy q (.fault n) := by
  intro c1 s1 e
  cases e
theorem HTidy.ite {p : Prop} [Decidable p] {a b : HRes} (ha : HTidy q a) (hb : HTidy q b) : HTidy q (if p then a else b) := by
  split <;> assumption
theorem withBit_htidy {w : BitVec 64} {c : Ctx} {k : Nat → HRes} (h : ∀ i, HTidy q (k i)) : HTidy q (withBit w c k) :=
  HTidy.ite htidy_fault (h _)
theorem withIndex_htidy {w : BitVec 64} {c : Ctx} {k : Nat → HRes} (h : ∀ i, HTidy q (k i)) : HTidy q (withIndex w c k) :=
  HTidy.ite htidy_fault (h _)
theorem withCounter_htidy {w : BitVec 64} {c : Ctx} {k : Nat → HRes} (h : ∀ i, HTidy q (k i)) : HTidy q (withCounter w c k) :=
  HTidy.ite htidy_fault (h _)
theorem withS_htidy {w : BitVec 64} {c : Ctx} {s : State} {k : Word → HRes} (h : ∀ v, HTidy q (k v)) : HTidy q (withS w c s k) :=
  HTidy.ite (h _) (withIndex_htidy fun _ => h _)
theorem semBit_tidy : SemTidy q semBit := fun _ _ _ h => withBit_htidy fun _ => htidy_ok h
theorem semBitWrite_tidy (b : Bool) : SemTidy q (semBitWrite b) := fun _ _ _ h => withBit_htidy fun _ => htidy_ok (writeBit_tidy _ _ _ _ _ h)
theorem semStb_tidy : SemTidy q semStb := fun w c s h => semBitWrite_tidy _ w c s h
theorem semSetb_tidy : SemTidy q semSetb := fun w c s h => HTidy.ite (semBitWrite_tidy _ w c s h) (withBit_htidy fun _ => htidy_ok h)
theorem semClrb_tidy : SemTidy q semClrb := fun w c s h => HTidy.ite (semBitWrite_tidy _ w c s h) (withBit_htidy fun _ => htidy_ok h)
theorem semNot_tidy : SemTidy q semNot := fun _ _ _ h => htidy_ok h
theorem semLbset_tidy : SemTidy q semLbset := fun _ _ _ h => htidy_ok h
theorem semRise_tidy : SemTidy q semRise := fun _ _ _ h => withBit_htidy fun _ => htidy_ok (writeBit_tidy _ _ _ _ _ h)
theorem semFall_tidy : SemTidy q semFall := fun _ _ _ h => withBit_htidy fun _ => htidy_ok (writeBit_tidy _ _ _ _ _ h)
theorem semGrp_tidy : SemTidy q semGrp := fun _ _ _ h => htidy_ok h
theorem semGend_tidy : SemTidy q semGend := by
  intro w c s h
  unfold semGend
  split <;> exact htidy_ok h
theorem semClsat_tidy : SemTidy q semClsat := fun _ _ _ h => htidy_ok h
theorem semLda_tidy : SemTidy q semLda := fun _ _ _ h => HTidy.ite (htidy_ok h) (withIndex_htidy fun _ => htidy_ok h)
theorem semSta_tidy : SemTidy q semSta := fun _ _ _ h => withIndex_htidy fun _ => htidy_ok (writeWord_tidy _ _ _ _ _ _ h)
theorem semSwap_tidy : SemTidy q semSwap := fun _ _ _ h => htidy_ok h
theorem semLdcw_tidy : SemTidy q semLdcw := fun _ _ _ h => htidy_ok h
theorem semInt_tidy (op : Int → Int → Int) : SemTidy q (semInt op) := fun _ _ _ h => withS_htidy fun _ => htidy_ok h
theorem semAdd_tidy : SemTidy q semAdd := semInt_tidy _
theorem semSub_tidy : SemTidy q semSub := semInt_tidy _
theorem semMul_tidy : SemTidy q semMul := semInt_tidy _
theorem semDiv_tidy : SemTidy q semDiv := fun _ _ _ h => withS_htidy fun _ => HTidy.ite (htidy_ok h) (htidy_ok h)
theorem semMod_tidy : SemTidy q semMod := fun _ _ _ h => withS_htidy fun _ => HTidy.ite (htidy_ok h) (htidy_ok h)
theorem semNeg_tidy : SemTidy q semNeg := fun _ _ _ h => htidy_ok h
theorem semAbs_tidy : SemTidy q semAbs := fun _ _ _ h => htidy_ok h
theorem semAddi_tidy : SemTidy q semAddi := fun _ _ _ h => htidy_ok h
theorem semLogic_tidy (op : Word → Word → Word) : SemTidy q (semLogic op) := fun _ _ _ h => withS_htidy fun _ => htidy_ok h
theorem semAnd_tidy : SemTidy q semAnd := semLogic_tidy _
theorem semOr_tidy : SemTidy q semOr := semLogic_tidy _
theorem semXor_tidy : SemTidy q semXor := semLogic_tidy _
theorem semInv_tidy : SemTidy q semInv := fun _ _ _ h => htidy_ok h
theorem semShl_tidy : SemTidy q semShl := fun _ _ _ h => htidy_ok h
theorem semShr_tidy : SemTidy q semShr := fun _ _ _ h => htidy_ok h
theorem semSar_tidy : SemTidy q semSar := fun _ _ _ h => htidy_ok h
theorem semRol_tidy : SemTidy q semRol := fun _ _ _ h => htidy_ok h
theorem storeFp_htidy {c : Ctx} {s : State} {r : FpRes} {b : Bool} (h : Tidy q none s) : HTidy q (storeFp c s r b) := by
  unfold storeFp
  split
  · exact htidy_ok (nextFree_tidy _ h)
  · exact htidy_ok h
theorem semFp_tidy (op : FpNum → FpNum → FpRes) : SemTidy q (semFp op) := fun _ _ _ h => withS_htidy fun _ => storeFp_htidy h
theorem semFadd_tidy : SemTidy q semFadd := semFp_tidy _
theorem semFsub_tidy : SemTidy q semFsub := semFp_tidy _
theorem semFmul_tidy : SemTidy q semFmul := semFp_tidy _
theorem semFdiv_tidy : SemTidy q semFdiv := semFp_tidy _
theorem semFabs_tidy : SemTidy q semFabs := fun _ _ _ h => htidy_ok h
theorem semFneg_tidy : SemTidy q semFneg := fun _ _ _ h => htidy_ok h
theorem semItof_tidy : SemTidy q semItof := fun _ _ _ h => htidy_ok h
theorem semFtoi_tidy : SemTidy q semFtoi := by
  intro w c s h
  unfold semFtoi
  split <;> exact htidy_ok h
theorem semCmp_tidy : SemTidy q semCmp := fun _ _ _ h => withS_htidy fun _ => HTidy.ite (htidy_ok (nextFree_tidy _ h)) (HTidy.ite (HTidy.ite (htidy_ok h) (htidy_ok h)) (htidy_ok h))
theorem semTmr_tidy (f : Timer → Bool → Nat → Nat → Timer) : SemTidy q (semTmr f) :=
  fun _ _ _ h => withBit_htidy fun _ => htidy_ok (setTimer_tidy _ _ _ h)
theorem semTrst_tidy : SemTidy q semTrst := fun _ _ _ h => withBit_htidy fun _ => HTidy.ite (htidy_ok (setTimer_tidy _ _ _ h)) (htidy_ok h)
theorem semCtu_tidy : SemTidy q semCtu := fun _ _ _ h => withCounter_htidy fun _ => htidy_ok (setCounter_tidy _ _ _ _ _ _ h)
theorem semCtd_tidy : SemTidy q semCtd := fun _ _ _ h => withCounter_htidy fun _ => htidy_ok (setCounter_tidy _ _ _ _ _ _ h)
theorem semCld_tidy : SemTidy q semCld := fun _ _ _ h => withCounter_htidy fun _ => HTidy.ite (htidy_ok (setCounter_tidy _ _ _ _ _ _ h)) (htidy_ok h)
theorem semCrst_tidy : SemTidy q semCrst := fun _ _ _ h => withCounter_htidy fun _ => HTidy.ite (htidy_ok (setCounter_tidy _ _ _ _ _ _ h)) (htidy_ok h)
theorem semJmp_tidy : SemTidy q semJmp := fun _ _ _ h => htidy_ok h
theorem semJmpt_tidy : SemTidy q semJmpt := fun _ _ _ h => htidy_ok h
theorem semJmpf_tidy : SemTidy q semJmpf := fun _ _ _ h => htidy_ok h
theorem semJsat_tidy : SemTidy q semJsat := fun _ _ _ h => htidy_ok h
theorem semLoop_tidy : SemTidy q semLoop := fun _ _ _ h => htidy_ok h
theorem semCall_tidy : SemTidy q semCall := fun _ _ _ h => htidy_ok h
theorem semCallt_tidy : SemTidy q semCallt := fun _ _ _ h => htidy_ok h
theorem semRet_tidy : SemTidy q semRet := by
  intro w c s h
  unfold semRet
  split <;> exact htidy_ok h
theorem semNop_tidy : SemTidy q semNop := fun _ _ _ h => htidy_ok h
theorem semDevice_tidy {f : Nat → State → State} (hf : ∀ a s, Tidy q none s → Tidy q none (f a s)) : SemTidy q (semDevice f) :=
  fun _ _ s h => htidy_ok (Tidy.ite (hf _ s h) h)
theorem semOf_tidy : ∀ opc aux sem, semOf opc aux = some sem → SemTidy q sem := by
  intro opc aux sem h
  unfold semOf at h
  split at h <;> cases h
  · exact semBit_tidy
  · exact semStb_tidy
  · exact semSetb_tidy
  · exact semClrb_tidy
  · exact semNot_tidy
  · exact semLbset_tidy
  · exact semRise_tidy
  · exact semFall_tidy
  · exact semGrp_tidy
  · exact semGend_tidy
  · exact semClsat_tidy
  · exact semLda_tidy
  · exact semSta_tidy
  · exact semSwap_tidy
  · exact semLdcw_tidy
  · exact semAdd_tidy
  · exact semSub_tidy
  · exact semMul_tidy
  · exact semDiv_tidy
  · exact semMod_tidy
  · exact semNeg_tidy
  · exact semAbs_tidy
  · exact semAddi_tidy
  · exact semAnd_tidy
  · exact semOr_tidy
  · exact semXor_tidy
  · exact semInv_tidy
  · exact semShl_tidy
  · exact semShr_tidy
  · exact semSar_tidy
  · exact semRol_tidy
  · exact semCmp_tidy
  · exact semFadd_tidy
  · exact semFsub_tidy
  · exact semFmul_tidy
  · exact semFdiv_tidy
  · exact semFabs_tidy
  · exact semFneg_tidy
  · exact semItof_tidy
  · exact semFtoi_tidy
  · exact semJmp_tidy
  · exact semJmpt_tidy
  · exact semJmpf_tidy
  · exact semJsat_tidy
  · exact semLoop_tidy
  · exact semCall_tidy
  · exact semCallt_tidy
  · exact semRet_tidy
  · exact semTmr_tidy _
  · exact semTrst_tidy
  · exact semCtu_tidy
  · exact semCtd_tidy
  · exact semCld_tidy
  · exact semCrst_tidy
  · exact semDevice_tidy actUrgc_tidy
  · exact semDevice_tidy actTrkrst_tidy
  · exact semDevice_tidy actTrprst_tidy
  · exact semDevice_tidy actCapt_tidy
  · exact semDevice_tidy actOvly_tidy
  · exact semDevice_tidy actEvtt_tidy
  · exact semNop_tidy
theorem runIns_tidy : ∀ s h c w sem, SemTidy q sem → Tidy q none s → Tidy q none (State.runIns s h c w sem) := by
  intro s h c w sem hs h0
  unfold State.runIns
  refine Tidy.ite (progFault_tidy _ _ _ _ h0) ?_
  split
  · exact progFault_tidy _ _ _ _ h0
  · rename_i c1 s1 he
    exact breakCheck_tidy _ _ (putCtx_tidy _ _ _ (hs _ _ _ h0 _ _ he))
theorem heddleStep_tidy : ∀ s h opc form sem, SemTidy q sem → Tidy q none s → Tidy q none (State.heddleStep s h opc form sem) := by
  intro s h opc form sem hs h0
  unfold State.heddleStep
  split
  · exact h0
  · exact Tidy.ite (runIns_tidy _ _ _ _ _ hs h0) h0
theorem logicStepOne_tidy : ∀ s h, Tidy q none s → Tidy q none (State.logicStepOne s h) := by
  intro s h h0
  unfold State.logicStepOne
  split
  · exact h0
  · refine Tidy.ite (Tidy.ite (progFault_tidy _ _ _ _ h0) (execDone_tidy _ _ _ h0)) ?_
    split
    · rename_i sem he
      exact runIns_tidy _ _ _ _ _ (semOf_tidy _ _ _ he) h0
    · exact h0

end Sys2Proof.Laws
end

