-- ==== Sys2Proof/Laws/TidyNetwork.lean ====
section
/-! SUPPORT. Every function of inputs, network, Almanac, time and captures keeps the queue of waiting commands and the canonical form of memory, registers and
latched copies; one that writes no octet keeps memory. -/

namespace Sys2Proof.Laws

open Sys2Proof.Machine

variable {q : List Instr} {m : Option (List Host.Cell)}

/-! ### Inputs -/

theorem binClose_tidy : ∀ s i ts rise, Tidy q m s → Tidy q m (@State.binClose s i ts rise) := by
  intro s i ts rise h0_
  unfold State.binClose
  refine forEach_tidy _ _ _ _ ?_ ?_
  · assumption
  · intro a0 a1 a2
    refine Tidy.ite ?_ ?_
    · assumption
    · extract_lets +onlyGivenNames v3
      clear_value v3
      extract_lets +onlyGivenNames s4
      have hs4 : Tidy q m (s4) := by
        unfold s4
        refine Tidy.upd (s := a1) ?_ rfl rfl rfl rfl
        assumption
      clear_value s4
      split
      · rename_i b5 b6 b7
        refine Tidy.ite ?_ ?_
        · refine setClose_tidy _ _ _ ?_
          assumption
        · assumption
      · rename_i b8 b9
        assumption

theorem binResets_tidy : ∀ s i, Tidy q m s → Tidy q m (@State.binResets s i) := by
  intro s i h0_
  unfold State.binResets
  refine forEach_tidy _ _ _ _ ?_ ?_
  · assumption
  · intro a0 a1 a2
    refine Tidy.ite ?_ ?_
    · refine channelReset_tidy _ _ ?_
      assumption
    · assumption

theorem ovlEdge_tidy : ∀ s isSrc rise src t, Tidy q m s → Tidy q m (@State.ovlEdge s isSrc rise src t) := by
  intro s isSrc rise src t h0_
  unfold State.ovlEdge
  refine Tidy.ite ?_ ?_
  · assumption
  · refine forEach_tidy _ _ _ _ ?_ ?_
    · assumption
    · intro a0 a1 a2
      extract_lets +onlyGivenNames v3
      clear_value v3
      refine Tidy.ite ?_ ?_
      · assumption
      · refine Tidy.ite ?_ ?_
        · refine ovlRequest_tidy _ _ _ _ ?_
          assumption
        · refine Tidy.ite ?_ ?_
          · refine ovlRequest_tidy _ _ _ _ ?_
            assumption
          · assumption

theorem doBinChange_tidy : ∀ i level ts s, Tidy q m s → Tidy q m (@doBinChange i level ts s) := by
  intro i level ts s h0_
  unfold doBinChange
  extract_lets +onlyGivenNames v0
  clear_value v0
  refine Tidy.ite ?_ ?_
  · assumption
  · extract_lets +onlyGivenNames s1 s2 s3
    have hs1 : Tidy q m (s1) := by
      unfold s1
      refine setReg64_tidy _ _ _ _ ?_
      refine setBit_tidy _ _ _ _ ?_
      assumption
    clear_value s1
    have hs2 : Tidy q m (s2) := by
      unfold s2
      refine releaseBySource_tidy _ _ _ ?_
      refine binClose_tidy _ _ _ _ ?_
      assumption
    clear_value s2
    have hs3 : Tidy q m (s3) := by
      unfold s3
      refine ovlEdge_tidy _ _ _ _ _ ?_
      assumption
    clear_value s3
    refine arcEval_tidy _ ?_
    refine binCapture_tidy _ _ _ _ ?_
    refine Tidy.ite ?_ ?_
    · refine binResets_tidy _ _ ?_
      assumption
    · assumption

/-! ### Net -/

theorem netActive_tidy : ∀ s, Tidy q m s → Tidy q m (@State.netActive s) := by
  intro s h0_
  unfold State.netActive
  extract_lets +onlyGivenNames v0
  clear_value v0
  refine setFld_tidy _ _ _ _ ?_
  assumption

theorem setTxRing_tidy : ∀ s x1 l, Tidy q m s → Tidy q m (@State.setTxRing s x1 l) := by
  intro s x1 l h0_
  unfold State.setTxRing
  refine Tidy.upd (s := s) ?_ rfl rfl rfl rfl
  assumption

theorem enqueue_tidy : ∀ s f p, Tidy q m s → Tidy q m (@State.enqueue s f p) := by
  intro s f p h0_
  unfold State.enqueue
  extract_lets +onlyGivenNames v0
  clear_value v0
  refine Tidy.ite ?_ ?_
  · refine wakeFor_tidy _ _ ?_
    refine setTxRing_tidy _ _ _ ?_
    assumption
  · refine Tidy.ite ?_ ?_
    · refine raise_tidy _ _ _ ?_
      assumption
    · refine raise_tidy _ _ _ ?_
      refine incSat_tidy _ _ _ _ _ ?_
      assumption

theorem enqueuePair_tidy : ∀ s f, Tidy q m s → Tidy q m (@State.enqueuePair s f) := by
  intro s f h0_
  unfold State.enqueuePair
  split
  · rename_i b0 b1 b2
    refine Tidy.upd (s := s) ?_ rfl rfl rfl rfl
    assumption
  · rename_i b3 b4
    refine forEach_tidy _ _ _ _ ?_ ?_
    · assumption
    · intro a5 a6 a7
      refine enqueue_tidy _ _ _ ?_
      assumption

theorem transmit_tidy : ∀ s process high body, Tidy q m s → Tidy q m (@State.transmit s process high body) := by
  intro s process high body h0_
  unfold State.transmit
  refine Tidy.ite ?_ ?_
  · assumption
  · extract_lets +onlyGivenNames v0 v1 v2 v3 v4
    clear_value v0
    clear_value v1
    clear_value v2
    clear_value v3
    clear_value v4
    extract_lets +onlyGivenNames s5
    have hs5 : Tidy q m (s5) := by
      unfold s5
      refine Tidy.ite ?_ ?_
      · refine Tidy.upd (s := s) ?_ rfl rfl rfl rfl
        assumption
      · assumption
    clear_value s5
    refine Tidy.ite ?_ ?_
    · refine plySend_tidy _ _ ?_
      refine Tidy.upd (s := s5) ?_ rfl rfl rfl rfl
      assumption
    · refine enqueuePair_tidy _ _ ?_
      assumption

theorem netStop_tidy : ∀ s, Tidy q m s → Tidy q m (@State.netStop s) := by
  intro s h0_
  unfold State.netStop
  refine netActive_tidy _ ?_
  refine Tidy.upd (s := s) ?_ rfl rfl rfl rfl
  assumption

theorem rxPrp_tidy : ∀ s p tag, Tidy q m s → Tidy q m (@State.rxPrp s p tag).2 := by
  intro s p tag h0_
  unfold State.rxPrp
  split
  · rename_i b0
    dsimp only
    assumption
  · rename_i b1 b2
    split
    · rename_i b3
      dsimp only
      assumption
    · rename_i b4
      extract_lets +onlyGivenNames s5 v6
      have hs5 : Tidy q m (s5) := by
        unfold s5
        refine Tidy.ite ?_ ?_
        · refine raiseLim_tidy _ _ _ _ ?_
          refine incSat_tidy _ _ _ _ _ ?_
          assumption
        · assumption
      clear_value s5
      clear_value v6
      split
      · dsimp only
        assumption
      · split
        · dsimp only
          refine incWrap_tidy _ _ _ ?_
          assumption
        · dsimp only
          refine Tidy.upd (s := s5) ?_ rfl rfl rfl rfl
          assumption

theorem ringForward_tidy : ∀ s pre p own lenOk tag, Tidy q m s → Tidy q m (@State.ringForward s pre p own lenOk tag) := by
  intro s pre p own lenOk tag h0_
  unfold State.ringForward
  extract_lets +onlyGivenNames v0
  clear_value v0
  split
  · assumption
  · refine Tidy.ite ?_ ?_
    · assumption
    · refine Tidy.upd (s := s) ?_ rfl rfl rfl rfl
      assumption

theorem rxAccept_tidy : ∀ s p lenOk known tag, Tidy q m s → Tidy q m (@State.rxAccept s p lenOk known tag).2 := by
  intro s p lenOk known tag h0_
  unfold State.rxAccept
  split
  · rename_i b0
    dsimp only
    assumption
  · rename_i b1
    split
    · rename_i b2
      dsimp only
      refine incSat_tidy _ _ _ _ _ ?_
      assumption
    · rename_i b3
      split
      · rename_i b4
        dsimp only
        refine incSat_tidy _ _ _ _ _ ?_
        assumption
      · rename_i b5
        refine rxPrp_tidy _ _ _ ?_
        refine incWrap_tidy _ _ _ ?_
        assumption

theorem portTick_tidy : ∀ s p, Tidy q m s → Tidy q m (@State.portTick s p) := by
  intro s p h0_
  unfold State.portTick
  refine Tidy.ite ?_ ?_
  · assumption
  · extract_lets +onlyGivenNames v0
    clear_value v0
    extract_lets +onlyGivenNames v1
    have hv1 : ∀ x0 x1 x2, Tidy q m (v1 x0 x1 x2) := by
      intro a2 a3 a4
      unfold v1
      extract_lets +onlyGivenNames s5
      have hs5 : Tidy q m (s5) := by
        unfold s5
        refine setTxRing_tidy _ _ _ ?_
        assumption
      clear_value s5
      refine Tidy.upd (s := s5) ?_ rfl rfl rfl rfl
      assumption
    clear_value v1
    split
    · rename_i b6 b7 b8 b9
      refine hv1 _ _ ?_
    · rename_i b10 b11
      split
      · rename_i b12 b13 b14 b15
        refine hv1 _ _ ?_
      · rename_i b16 b17
        assumption

theorem netTick_tidy : ∀ s, Tidy q m s → Tidy q m (@State.netTick s) := by
  intro s h0_
  unfold State.netTick
  extract_lets +onlyGivenNames v0 v1 s2
  clear_value v0
  clear_value v1
  have hs2 : Tidy q m (s2) := by
    unfold s2
    refine Tidy.upd (s := s) ?_ rfl rfl rfl rfl
    assumption
  clear_value s2
  extract_lets +onlyGivenNames s3
  have hs3 : Tidy q m (s3) := by
    unfold s3
    refine forEach_tidy _ _ _ _ ?_ ?_
    · assumption
    · intro a4 a5 a6
      refine forEach_tidy _ _ _ _ ?_ ?_
      · assumption
      · intro a7 a8 a9
        refine enqueue_tidy _ _ _ ?_
        assumption
  clear_value s3
  refine forEach_tidy _ _ _ _ ?_ ?_
  · assumption
  · intro a10 a11 a12
    refine portTick_tidy _ _ ?_
    assumption

theorem doLanokTimeout_tidy : ∀ p s, Tidy q m s → Tidy q m (@doLanokTimeout p s) := by
  intro p s h0_
  unfold doLanokTimeout
  split
  · rename_i b0 b1
    assumption
  · rename_i b2 b3 b4
    refine Tidy.ite ?_ ?_
    · assumption
    · refine raise_tidy _ _ _ ?_
      refine setBit_tidy _ _ _ _ ?_
      assumption

theorem doPortLinkChange_tidy : ∀ p up s, Tidy q m s → Tidy q m (@doPortLinkChange p up s) := by
  intro p up s h0_
  unfold doPortLinkChange
  refine Tidy.ite ?_ ?_
  · assumption
  · refine raise_tidy _ _ _ ?_
    refine setBit_tidy _ _ _ _ ?_
    assumption

theorem supervisionHeard_tidy : ∀ s p tag, Tidy q m s → Tidy q m (@State.supervisionHeard s p tag) := by
  intro s p tag h0_
  unfold State.supervisionHeard
  extract_lets +onlyGivenNames s0
  have hs0 : Tidy q m (s0) := by
    unfold s0
    refine rxAccept_tidy _ _ _ _ _ ?_
    assumption
  clear_value s0
  refine Tidy.ite ?_ ?_
  · assumption
  · refine setBit_tidy _ _ _ _ ?_
    refine Tidy.upd (s := s0) ?_ rfl rfl rfl rfl
    assumption

theorem doPrpSupervisionReceive_tidy : ∀ p tag s, Tidy q m s → Tidy q m (@doPrpSupervisionReceive p tag s) := by
  intro p tag s h0_
  unfold doPrpSupervisionReceive
  refine ringForward_tidy _ _ _ _ _ _ ?_
  refine supervisionHeard_tidy _ _ _ ?_
  assumption

theorem doPrpSupervisionSend_tidy : ∀ process s, Tidy q m s → Tidy q m (@doPrpSupervisionSend process s) := by
  intro process s h0_
  unfold doPrpSupervisionSend
  extract_lets +onlyGivenNames v0 v1
  clear_value v0
  clear_value v1
  refine Tidy.ite ?_ ?_
  · assumption
  · refine transmit_tidy _ _ _ _ ?_
    refine Tidy.upd (s := s) ?_ rfl rfl rfl rfl
    assumption

/-! ### Goose -/

theorem setPub_tidy : ∀ s g p, Tidy q m s → Tidy q m (@State.setPub s g p) := by
  intro s g p h0_
  unfold State.setPub
  refine Tidy.upd (s := s) ?_ rfl rfl rfl rfl
  assumption

theorem putGooseBit_tidy : ∀ s b v, Tidy q none s → Tidy q none (@State.putGooseBit s b v) := by
  intro s b v h0_
  unfold State.putGooseBit
  extract_lets +onlyGivenNames v0
  clear_value v0
  refine setOctet_tidy _ _ _ ?_
  assumption

theorem putMapped_tidy : ∀ s x1 v, Tidy q none s → Tidy q none (@State.putMapped s x1 v) := by
  intro s x1 v h0_
  unfold State.putMapped
  extract_lets +onlyGivenNames v0
  clear_value v0
  split
  · rename_i b1 b2
    refine putGooseBit_tidy _ _ _ ?_
    assumption
  · rename_i b3 b4
    refine setOctetsLE_tidy _ _ _ _ ?_
    assumption
  · rename_i b5 b6
    refine setOctetsLE_tidy _ _ _ _ ?_
    assumption
  · rename_i b7 b8
    refine setOctetsLE_tidy _ _ _ _ ?_
    assumption
  · rename_i b9 b10 b11
    refine setOctetsLE_tidy _ _ _ _ ?_
    refine setOctetsLE_tidy _ _ _ _ ?_
    assumption
  · rename_i b12
    assumption

theorem gooseEdges_tidy : ∀ s old, Tidy q m s → Tidy q m (@State.gooseEdges s old) := by
  intro s old h0_
  unfold State.gooseEdges
  refine foldl_tidy _ _ ?_ ?_
  · intro a0 a1 a2
    extract_lets +onlyGivenNames v3 v4
    clear_value v3
    clear_value v4
    refine Tidy.ite ?_ ?_
    · assumption
    · refine Tidy.ite ?_ ?_
      · refine ovlRequest_tidy _ _ _ _ ?_
        assumption
      · refine Tidy.ite ?_ ?_
        · refine ovlRequest_tidy _ _ _ _ ?_
          assumption
        · assumption
  · assumption

theorem applyMaps_tidy : ∀ s b val, Tidy q none s → Tidy q none (@State.applyMaps s b val) := by
  intro s b val h0_
  unfold State.applyMaps
  extract_lets +onlyGivenNames s0
  have hs0 : Tidy q none (s0) := by
    unfold s0
    refine forEach_tidy _ _ _ _ ?_ ?_
    · assumption
    · intro a1 a2 a3
      split
      · rename_i b4 b5 b6
        refine putMapped_tidy _ _ _ ?_
        assumption
      · rename_i b7 b8
        assumption
  clear_value s0
  refine arcEval_tidy _ ?_
  refine holdDefaults_tidy _ ?_
  refine gooseEdges_tidy _ _ ?_
  assumption

theorem applyMsg_tidy : ∀ s n b x3, Tidy q none s → Tidy q none (@State.applyMsg s n b x3) := by
  intro s n b x3 h0_
  unfold State.applyMsg
  extract_lets +onlyGivenNames v0 v1
  have hv0 : ∀ x0, Tidy q none x0 → Tidy q none (v0 x0) := by
    intro a2 a3
    unfold v0
    refine applyMaps_tidy _ _ _ ?_
    assumption
  clear_value v0
  clear_value v1
  refine Tidy.ite ?_ ?_
  · refine hv0 _ ?_
    assumption
  · refine Tidy.ite ?_ ?_
    · refine raise_tidy _ _ _ ?_
      refine pelCount_tidy _ _ ?_
      assumption
    · refine Tidy.ite ?_ ?_
      · refine hv0 _ ?_
        refine raise_tidy _ _ _ ?_
        refine pelCount_tidy _ _ ?_
        assumption
      · refine Tidy.upd (s := s) ?_ rfl rfl rfl rfl
        assumption

theorem pubSend_tidy : ∀ s g b, Tidy q m s → Tidy q m (@State.pubSend s g b) := by
  intro s g b h0_
  unfold State.pubSend
  extract_lets +onlyGivenNames v0 v1 v2 s3
  clear_value v0
  clear_value v1
  clear_value v2
  have hs3 : Tidy q m (s3) := by
    unfold s3
    refine setPub_tidy _ _ _ ?_
    refine setFld_tidy _ _ _ _ ?_
    refine incWrap_tidy _ _ _ ?_
    assumption
  clear_value s3
  refine transmit_tidy _ _ _ _ ?_
  assumption

theorem newState_tidy : ∀ s g b launch, Tidy q m s → Tidy q m (@State.newState s g b launch) := by
  intro s g b launch h0_
  unfold State.newState
  extract_lets +onlyGivenNames v0 v1 v2 v3 v4
  clear_value v0
  clear_value v1
  clear_value v2
  clear_value v3
  clear_value v4
  refine pubSend_tidy _ _ _ ?_
  refine setReg_tidy _ _ _ ?_
  refine setReg_tidy _ _ _ ?_
  refine setPub_tidy _ _ _ ?_
  assumption

theorem setGooseValid_tidy : ∀ s n v, Tidy q none s → Tidy q none (@State.setGooseValid s n v) := by
  intro s n v h0_
  unfold State.setGooseValid
  refine Tidy.ite ?_ ?_
  · assumption
  · extract_lets +onlyGivenNames v0
    clear_value v0
    refine holdDefaults_tidy _ ?_
    refine releaseBySource_tidy _ _ _ ?_
    refine setOctet_tidy _ _ _ ?_
    assumption

theorem gooseTake_tidy : ∀ s n b x3, Tidy q none s → Tidy q none (@State.gooseTake s n b x3) := by
  intro s n b x3 h0_
  unfold State.gooseTake
  extract_lets +onlyGivenNames v0
  clear_value v0
  refine Tidy.ite ?_ ?_
  · assumption
  · refine Tidy.ite ?_ ?_
    · refine Tidy.ite ?_ ?_
      · assumption
      · refine raise_tidy _ _ _ ?_
        refine setFld_tidy _ _ _ _ ?_
        assumption
    · extract_lets +onlyGivenNames v1
      clear_value v1
      refine Tidy.ite ?_ ?_
      · refine incSat_tidy _ _ _ _ _ ?_
        assumption
      · extract_lets +onlyGivenNames v2 s3 s4 s5 s6
        clear_value v2
        have hs3 : Tidy q none (s3) := by
          unfold s3
          refine setReg_tidy _ _ _ ?_
          refine setReg_tidy _ _ _ ?_
          assumption
        clear_value s3
        have hs4 : Tidy q none (s4) := by
          unfold s4
          refine setReg_tidy _ _ _ ?_
          assumption
        clear_value s4
        have hs5 : Tidy q none (s5) := by
          unfold s5
          refine setSub_tidy _ _ _ ?_
          assumption
        clear_value s5
        have hs6 : Tidy q none (s6) := by
          unfold s6
          refine Tidy.ite ?_ ?_
          · assumption
          · refine raise_tidy _ _ _ ?_
            refine setGooseValid_tidy _ _ _ ?_
            assumption
        clear_value s6
        refine applyMsg_tidy _ _ _ _ ?_
        assumption

theorem doGooseLaunchTimeReached_tidy : ∀ g s, Tidy q m s → Tidy q m (@doGooseLaunchTimeReached g s) := by
  intro g s h0_
  unfold doGooseLaunchTimeReached
  split
  · rename_i b0 b1 b2 b3 b4 b5
    refine Tidy.ite ?_ ?_
    · assumption
    · extract_lets +onlyGivenNames v6
      clear_value v6
      extract_lets +onlyGivenNames s7
      have hs7 : Tidy q m (s7) := by
        unfold s7
        refine setPub_tidy _ _ _ ?_
        assumption
      clear_value s7
      refine Tidy.ite ?_ ?_
      · refine newState_tidy _ _ _ _ ?_
        assumption
      · assumption
  · rename_i b8 b9 b10
    assumption

theorem gooseOn_tidy : ∀ s p x1, Tidy q none s → Tidy q none (@State.gooseOn s p x1) := by
  intro s p x1 h0_
  unfold State.gooseOn
  extract_lets +onlyGivenNames v0
  clear_value v0
  have h1 : Tidy q none (s.rxAccept (↑p) x1.lenOk (s.dstKnown v0 x1.dst) x1.prp).2 := by
    refine rxAccept_tidy _ _ _ _ _ ?_
    assumption
  split
  rename_i b2 b3 b4 b5
  have e6 : Tidy q none b4 := by rw [b5] at h1; exact h1
  refine Tidy.ite ?_ ?_
  · assumption
  · refine forEach_tidy _ _ _ _ ?_ ?_
    · assumption
    · intro a7 a8 a9
      refine gooseTake_tidy _ _ _ _ ?_
      assumption

theorem doGooseReceive_tidy : ∀ p x1 s, Tidy q none s → Tidy q none (@doGooseReceive p x1 s) := by
  intro p x1 s h0_
  unfold doGooseReceive
  refine ringForward_tidy _ _ _ _ _ _ ?_
  refine gooseOn_tidy _ _ _ ?_
  assumption

theorem doGooseRetransmit_tidy : ∀ g s, Tidy q m s → Tidy q m (@doGooseRetransmit g s) := by
  intro g s h0_
  unfold doGooseRetransmit
  split
  · rename_i b0 b1 b2 b3 b4 b5
    extract_lets +onlyGivenNames v6
    clear_value v6
    refine Tidy.ite ?_ ?_
    · assumption
    · extract_lets +onlyGivenNames s7
      have hs7 : Tidy q m (s7) := by
        unfold s7
        refine setReg_tidy _ _ _ ?_
        refine setPub_tidy _ _ _ ?_
        assumption
      clear_value s7
      refine pubSend_tidy _ _ _ ?_
      assumption
  · rename_i b8 b9 b10
    assumption

theorem doGooseStateBuild_tidy : ∀ g s, Tidy q m s → Tidy q m (@doGooseStateBuild g s) := by
  intro g s h0_
  unfold doGooseStateBuild
  split
  · rename_i b0 b1
    assumption
  · rename_i b2 b3 b4
    extract_lets +onlyGivenNames v5
    clear_value v5
    refine Tidy.ite ?_ ?_
    · assumption
    · refine newState_tidy _ _ _ _ ?_
      assumption

theorem doGooseSubLost_tidy : ∀ n s, Tidy q none s → Tidy q none (@doGooseSubLost n s) := by
  intro n s h0_
  unfold doGooseSubLost
  split
  · rename_i b0 b1
    assumption
  · rename_i b2 b3 b4
    refine Tidy.ite ?_ ?_
    · assumption
    · extract_lets +onlyGivenNames s5 s6
      have hs5 : Tidy q none (s5) := by
        unfold s5
        refine incSat_tidy _ _ _ _ _ ?_
        refine setFld_tidy _ _ _ _ ?_
        assumption
      clear_value s5
      have hs6 : Tidy q none (s6) := by
        unfold s6
        refine raise_tidy _ _ _ ?_
        refine setGooseValid_tidy _ _ _ ?_
        assumption
      clear_value s6
      split
      · rename_i b7 b8 b9
        refine applyMaps_tidy _ _ _ ?_
        assumption
      · rename_i b10 b11
        assumption

theorem doLaunchApply_tidy : ∀ n s, Tidy q none s → Tidy q none (@doLaunchApply n s) := by
  intro n s h0_
  unfold doLaunchApply
  split
  · rename_i b0 b1
    assumption
  · rename_i b2 b3 b4
    refine Tidy.ite ?_ ?_
    · assumption
    · extract_lets +onlyGivenNames v5
      clear_value v5
      extract_lets +onlyGivenNames s6
      have hs6 : Tidy q none (s6) := by
        unfold s6
        refine Tidy.upd (s := s) ?_ rfl rfl rfl rfl
        assumption
      clear_value s6
      split
      · rename_i b7 b8 b9
        refine Tidy.ite ?_ ?_
        · refine applyMaps_tidy _ _ _ ?_
          assumption
        · assumption
      · rename_i b10 b11
        assumption

theorem doPealGoosePublish_tidy : ∀ e s, Tidy q m s → Tidy q m (@doPealGoosePublish e s) := by
  intro e s h0_
  unfold doPealGoosePublish
  refine pealAct_tidy _ _ _ _ ?_ ?_
  · assumption
  · intro a0 a1 a2
    extract_lets +onlyGivenNames v3
    clear_value v3
    split
    · rename_i b4 b5 b6
      refine Tidy.ite ?_ ?_
      · refine newState_tidy _ _ _ _ ?_
        assumption
      · assumption
    · rename_i b7 b8
      assumption

/-! ### Sv -/

theorem svPut_tidy : ∀ s x k y, Tidy q m s → Tidy q m (@State.svPut s x k y) := by
  intro s x k y h0_
  unfold State.svPut
  refine chainPush_tidy _ _ _ _ _ _ ?_
  refine Tidy.upd (s := s) ?_ rfl rfl rfl rfl
  assumption

theorem svBridged_tidy : ∀ s x k miss y, Tidy q m s → Tidy q m (@State.svBridged s x k miss y) := by
  intro s x k miss y h0_
  unfold State.svBridged
  extract_lets +onlyGivenNames v0
  clear_value v0
  refine forEach_tidy _ _ _ _ ?_ ?_
  · assumption
  · intro a1 a2 a3
    refine incWrap_tidy _ _ _ ?_
    refine svPut_tidy _ _ _ _ ?_
    assumption

theorem setSvGap_tidy : ∀ s x g, Tidy q m s → Tidy q m (@State.setSvGap s x g) := by
  intro s x g h0_
  unfold State.setSvGap
  refine Tidy.upd (s := s) ?_ rfl rfl rfl rfl
  assumption

theorem svRead_tidy : ∀ s x k, Tidy q m s → Tidy q m (@State.svRead s x k) := by
  intro s x k h0_
  unfold State.svRead
  extract_lets +onlyGivenNames v0 v1
  clear_value v0
  clear_value v1
  split
  · rename_i b2 b3 b4
    extract_lets +onlyGivenNames s5
    have hs5 : Tidy q m (s5) := by
      unfold s5
      refine Tidy.ite ?_ ?_
      · refine svBridged_tidy _ _ _ _ _ ?_
        assumption
      · assumption
    clear_value s5
    refine setSvGap_tidy _ _ _ ?_
    refine svPut_tidy _ _ _ _ ?_
    assumption
  · rename_i b6 b7
    extract_lets +onlyGivenNames v8 v9 v10 s11
    clear_value v8
    clear_value v9
    clear_value v10
    have hs11 : Tidy q m (s11) := by
      unfold s11
      refine setSvGap_tidy _ _ _ ?_
      refine svPut_tidy _ _ _ _ ?_
      assumption
    clear_value s11
    refine Tidy.ite ?_ ?_
    · refine raiseLim_tidy _ _ _ _ ?_
      refine incSat_tidy _ _ _ _ _ ?_
      assumption
    · assumption

theorem svTick_tidy : ∀ s, Tidy q m s → Tidy q m (@State.svTick s) := by
  intro s h0_
  unfold State.svTick
  refine forEach_tidy _ _ _ _ ?_ ?_
  · assumption
  · intro a0 a1 a2
    extract_lets +onlyGivenNames v3 v4
    clear_value v3
    clear_value v4
    refine Tidy.ite ?_ ?_
    · assumption
    · extract_lets +onlyGivenNames v5 v6 s7
      clear_value v5
      clear_value v6
      have hs7 : Tidy q m (s7) := by
        unfold s7
        refine forEach_tidy _ _ _ _ ?_ ?_
        · assumption
        · intro a8 a9 a10
          refine svRead_tidy _ _ _ ?_
          assumption
      clear_value s7
      refine setSvGap_tidy _ _ _ ?_
      assumption

theorem setSvs_tidy : ∀ s r x, Tidy q m s → Tidy q m (@State.setSvs s r x) := by
  intro s r x h0_
  unfold State.setSvs
  refine Tidy.upd (s := s) ?_ rfl rfl rfl rfl
  assumption

theorem svPlace_tidy : ∀ s r a, Tidy q m s → Tidy q m (@State.svPlace s r a) := by
  intro s r a h0_
  unfold State.svPlace
  extract_lets +onlyGivenNames v0 v1 v2 s3
  clear_value v0
  clear_value v1
  clear_value v2
  have hs3 : Tidy q m (s3) := by
    unfold s3
    refine setFld_tidy _ _ _ _ ?_
    refine setFld_tidy _ _ _ _ ?_
    assumption
  clear_value s3
  refine Tidy.ite ?_ ?_
  · refine incSat_tidy _ _ _ _ _ ?_
    assumption
  · refine setSvs_tidy _ _ _ ?_
    assumption

theorem svTake_tidy : ∀ s r b x3, Tidy q m s → Tidy q m (@State.svTake s r b x3) := by
  intro s r b x3 h0_
  unfold State.svTake
  refine Tidy.ite ?_ ?_
  · assumption
  · extract_lets +onlyGivenNames v0 s1 s2
    clear_value v0
    have hs1 : Tidy q m (s1) := by
      unfold s1
      refine setSvs_tidy _ _ _ ?_
      assumption
    clear_value s1
    have hs2 : Tidy q m (s2) := by
      unfold s2
      refine Tidy.ite ?_ ?_
      · refine raise_tidy _ _ _ ?_
        assumption
      · assumption
    clear_value s2
    extract_lets +onlyGivenNames v3
    clear_value v3
    refine Tidy.ite ?_ ?_
    · refine Tidy.ite ?_ ?_
      · assumption
      · refine raise_tidy _ _ _ ?_
        refine setFld_tidy _ _ _ _ ?_
        assumption
    · refine forEach_tidy _ _ _ _ ?_ ?_
      · refine setFld_tidy _ _ _ _ ?_
        assumption
      · intro a4 a5 a6
        refine svPlace_tidy _ _ _ ?_
        assumption

theorem doSvFramePublish_tidy : ∀ bay s, Tidy q m s → Tidy q m (@doSvFramePublish bay s) := by
  intro bay s h0_
  unfold doSvFramePublish
  extract_lets +onlyGivenNames v0 v1 v2 v3 v4
  clear_value v0
  clear_value v1
  clear_value v2
  clear_value v3
  clear_value v4
  refine Tidy.ite ?_ ?_
  · assumption
  · extract_lets +onlyGivenNames v5 v6 s7
    clear_value v5
    clear_value v6
    have hs7 : Tidy q m (s7) := by
      unfold s7
      refine Tidy.upd (s := s) ?_ rfl rfl rfl rfl
      assumption
    clear_value s7
    extract_lets +onlyGivenNames s8
    have hs8 : Tidy q m (s8) := by
      unfold s8
      refine setReg_tidy _ _ _ ?_
      assumption
    clear_value s8
    refine transmit_tidy _ _ _ _ ?_
    refine incWrap_tidy _ _ _ ?_
    assumption

theorem svOn_tidy : ∀ s p x1, Tidy q m s → Tidy q m (@State.svOn s p x1) := by
  intro s p x1 h0_
  unfold State.svOn
  extract_lets +onlyGivenNames v0
  clear_value v0
  have h1 : Tidy q m (s.rxAccept (↑p) x1.lenOk (s.dstKnown v0 x1.dst) x1.prp).2 := by
    refine rxAccept_tidy _ _ _ _ _ ?_
    assumption
  split
  rename_i b2 b3 b4 b5
  have e6 : Tidy q m b4 := by rw [b5] at h1; exact h1
  refine Tidy.ite ?_ ?_
  · assumption
  · refine forEach_tidy _ _ _ _ ?_ ?_
    · assumption
    · intro a7 a8 a9
      refine svTake_tidy _ _ _ _ ?_
      assumption

theorem doSvReceive_tidy : ∀ p x1 s, Tidy q m s → Tidy q m (@doSvReceive p x1 s) := by
  intro p x1 s h0_
  unfold doSvReceive
  refine ringForward_tidy _ _ _ _ _ _ ?_
  refine svOn_tidy _ _ _ ?_
  assumption

theorem doSvStreamLost_tidy : ∀ r s, Tidy q m s → Tidy q m (@doSvStreamLost r s) := by
  intro r s h0_
  unfold doSvStreamLost
  split
  · rename_i b0 b1
    assumption
  · rename_i b2 b3 b4
    refine Tidy.ite ?_ ?_
    · assumption
    · refine raise_tidy _ _ _ ?_
      refine incSat_tidy _ _ _ _ _ ?_
      refine setFld_tidy _ _ _ _ ?_
      assumption

/-! ### Hank -/

theorem hnkStatus_tidy : ∀ s x1 subst, Tidy q none s → Tidy q none (@State.hnkStatus s x1 subst) := by
  intro s x1 subst h0_
  unfold State.hnkStatus
  extract_lets +onlyGivenNames v0 v1 v2
  clear_value v0
  clear_value v1
  clear_value v2
  refine setOctetsLE_tidy _ _ _ _ ?_
  refine setOctet_tidy _ _ _ ?_
  refine setOctet_tidy _ _ _ ?_
  assumption

theorem hnkState_tidy : ∀ s x1 st, Tidy q none s → Tidy q none (@State.hnkState s x1 st) := by
  intro s x1 st h0_
  unfold State.hnkState
  extract_lets +onlyGivenNames s0 v1
  have hs0 : Tidy q none (s0) := by
    unfold s0
    refine setFld_tidy _ _ _ _ ?_
    assumption
  clear_value s0
  clear_value v1
  refine hnkStatus_tidy _ _ _ ?_
  refine setFld_tidy _ _ _ _ ?_
  refine setFld_tidy _ _ _ _ ?_
  assumption

theorem hankSend_tidy : ∀ s x1 typ flags time payload, Tidy q m s → Tidy q m (@State.hankSend s x1 typ flags time payload) := by
  intro s x1 typ flags time payload h0_
  unfold State.hankSend
  extract_lets +onlyGivenNames v0 v1 v2
  clear_value v0
  clear_value v1
  clear_value v2
  refine transmit_tidy _ _ _ _ ?_
  refine setFld_tidy _ _ _ _ ?_
  assumption

theorem hankConfig_tidy : ∀ s x1, Tidy q m s → Tidy q m (@State.hankConfig s x1) := by
  intro s x1 h0_
  unfold State.hankConfig
  split
  · rename_i b0 b1
    assumption
  · rename_i b2 b3 b4
    extract_lets +onlyGivenNames v5 v6
    clear_value v5
    clear_value v6
    refine hankSend_tidy _ _ _ _ _ _ ?_
    refine setMod_tidy _ _ _ ?_
    assumption

theorem hankJoin_tidy : ∀ s x1, Tidy q none s → Tidy q none (@State.hankJoin s x1) := by
  intro s x1 h0_
  unfold State.hankJoin
  extract_lets +onlyGivenNames v0
  clear_value v0
  extract_lets +onlyGivenNames s1
  have hs1 : Tidy q none (s1) := by
    unfold s1
    refine hnkState_tidy _ _ _ ?_
    refine setMod_tidy _ _ _ ?_
    assumption
  clear_value s1
  refine Tidy.ite ?_ ?_
  · assumption
  · refine hankConfig_tidy _ _ ?_
    assumption

theorem hnkSubstitute_tidy : ∀ s x1, Tidy q none s → Tidy q none (@State.hnkSubstitute s x1) := by
  intro s x1 h0_
  unfold State.hnkSubstitute
  refine Tidy.ite ?_ ?_
  · extract_lets +onlyGivenNames v0
    clear_value v0
    refine hnkStatus_tidy _ _ _ ?_
    refine putOctets_tidy _ _ _ ?_
    assumption
  · assumption

theorem hankEnable_tidy : ∀ s x1, Tidy q none s → Tidy q none (@State.hankEnable s x1) := by
  intro s x1 h0_
  unfold State.hankEnable
  split
  · rename_i b0 b1
    assumption
  · rename_i b2 b3 b4
    refine Tidy.ite ?_ ?_
    · refine hnkState_tidy _ _ _ ?_
      assumption
    · refine hankJoin_tidy _ _ ?_
      refine hnkSubstitute_tidy _ _ ?_
      refine setMod_tidy _ _ _ ?_
      assumption

theorem hankDisable_tidy : ∀ s x1, Tidy q none s → Tidy q none (@State.hankDisable s x1) := by
  intro s x1 h0_
  unfold State.hankDisable
  extract_lets +onlyGivenNames s0 v1
  have hs0 : Tidy q none (s0) := by
    unfold s0
    refine hankSend_tidy _ _ _ _ _ _ ?_
    assumption
  clear_value s0
  clear_value v1
  extract_lets +onlyGivenNames s2
  have hs2 : Tidy q none (s2) := by
    unfold s2
    refine setMod_tidy _ _ _ ?_
    assumption
  clear_value s2
  refine raise_tidy _ _ _ ?_
  refine hnkState_tidy _ _ _ ?_
  assumption

theorem hankDup_tidy : ∀ s x1, Tidy q m s → Tidy q m (@State.hankDup s x1) := by
  intro s x1 h0_
  unfold State.hankDup
  refine incSat_tidy _ _ _ _ _ ?_
  assumption

theorem hankInput_tidy : ∀ s d, Tidy q none s → Tidy q none (@State.hankInput s d) := by
  intro s d h0_
  unfold State.hankInput
  extract_lets +onlyGivenNames v0 v1 v2 s3 v4 v5 v6 v7 v8 s9 s10 s11 s12 s13 s14
  clear_value v0
  clear_value v1
  clear_value v2
  have hs3 : Tidy q none (s3) := by
    unfold s3
    refine putOctets_tidy _ _ _ ?_
    assumption
  clear_value s3
  clear_value v4
  clear_value v5
  clear_value v6
  clear_value v7
  clear_value v8
  have hs9 : Tidy q none (s9) := by
    unfold s9
    refine setMod_tidy _ _ _ ?_
    assumption
  clear_value s9
  have hs10 : Tidy q none (s10) := by
    unfold s10
    refine Tidy.ite ?_ ?_
    · refine setReg_tidy _ _ _ ?_
      assumption
    · assumption
  clear_value s10
  have hs11 : Tidy q none (s11) := by
    unfold s11
    refine setFld_tidy _ _ _ _ ?_
    refine setFld_tidy _ _ _ _ ?_
    assumption
  clear_value s11
  have hs12 : Tidy q none (s12) := by
    unfold s12
    refine setBit_tidy _ _ _ _ ?_
    refine setBit_tidy _ _ _ _ ?_
    assumption
  clear_value s12
  have hs13 : Tidy q none (s13) := by
    unfold s13
    refine hnkStatus_tidy _ _ _ ?_
    refine setFld_tidy _ _ _ _ ?_
    refine setBit_tidy _ _ _ _ ?_
    assumption
  clear_value s13
  have hs14 : Tidy q none (s14) := by
    unfold s14
    refine Tidy.ite ?_ ?_
    · refine raiseLim_tidy _ _ _ _ ?_
      assumption
    · assumption
  clear_value s14
  refine Tidy.ite ?_ ?_
  · assumption
  · refine raise_tidy _ _ _ ?_
    refine hnkState_tidy _ _ _ ?_
    assumption

theorem hankOutput_tidy : ∀ s x1 t, Tidy q none s → Tidy q none (@State.hankOutput s x1 t) := by
  intro s x1 t h0_
  unfold State.hankOutput
  extract_lets +onlyGivenNames v0 v1 v2 v3 v4 v5 v6 s7 v8
  clear_value v0
  clear_value v1
  clear_value v2
  clear_value v3
  clear_value v4
  clear_value v5
  clear_value v6
  have hs7 : Tidy q none (s7) := by
    unfold s7
    refine hankSend_tidy _ _ _ _ _ _ ?_
    assumption
  clear_value s7
  clear_value v8
  refine hnkStatus_tidy _ _ _ ?_
  refine setBit_tidy _ _ _ _ ?_
  refine setMod_tidy _ _ _ ?_
  assumption

theorem hankRearm_tidy : ∀ s, Tidy q m s → Tidy q m (@State.hankRearm s) := by
  intro s h0_
  unfold State.hankRearm
  refine forEach_tidy _ _ _ _ ?_ ?_
  · assumption
  · intro a0 a1 a2
    refine Tidy.ite ?_ ?_
    · refine setMod_tidy _ _ _ ?_
      assumption
    · assumption

theorem hankRx_tidy : ∀ s p d, Tidy q m s → Tidy q m (@State.hankRx s p d).2 := by
  intro s p d h
  exact rxAccept_tidy _ _ _ _ _ h

theorem hankAnnounced_tidy : ∀ s p d, Tidy q none s → Tidy q none (@State.hankAnnounced s p d) := by
  intro s p d h0_
  unfold State.hankAnnounced
  have h0 : Tidy q none (s.hankRx p d).2 := by
    refine hankRx_tidy _ _ _ ?_
    assumption
  split
  rename_i b1 b2 b3 b4
  have e5 : Tidy q none b3 := by rw [b4] at h0; exact h0
  extract_lets +onlyGivenNames v6
  clear_value v6
  refine Tidy.ite ?_ ?_
  · assumption
  · refine Tidy.ite ?_ ?_
    · refine hankDup_tidy _ _ ?_
      assumption
    · extract_lets +onlyGivenNames v7 v8 s9
      clear_value v7
      clear_value v8
      have hs9 : Tidy q none (s9) := by
        unfold s9
        refine setMod_tidy _ _ _ ?_
        assumption
      clear_value s9
      refine Tidy.ite ?_ ?_
      · refine raise_tidy _ _ _ ?_
        refine hnkState_tidy _ _ _ ?_
        assumption
      · extract_lets +onlyGivenNames v10 v11 v12 s13
        clear_value v10
        clear_value v11
        clear_value v12
        have hs13 : Tidy q none (s13) := by
          unfold s13
          refine setMod_tidy _ _ _ ?_
          assumption
        clear_value s13
        extract_lets +onlyGivenNames s14
        have hs14 : Tidy q none (s14) := by
          unfold s14
          refine setBit_tidy _ _ _ _ ?_
          refine setBit_tidy _ _ _ _ ?_
          refine setBit_tidy _ _ _ _ ?_
          assumption
        clear_value s14
        refine hankJoin_tidy _ _ ?_
        assumption

theorem doHankAnnounceReceive_tidy : ∀ p d s, Tidy q none s → Tidy q none (@doHankAnnounceReceive p d s) := by
  intro p d s h0_
  unfold doHankAnnounceReceive
  refine ringForward_tidy _ _ _ _ _ _ ?_
  refine hankAnnounced_tidy _ _ _ ?_
  assumption

theorem doHankConfigAckReceive_tidy : ∀ p d s, Tidy q none s → Tidy q none (@doHankConfigAckReceive p d s) := by
  intro p d s h0_
  unfold doHankConfigAckReceive
  have h0 : Tidy q none (s.hankRx p d).2 := by
    refine hankRx_tidy _ _ _ ?_
    assumption
  split
  rename_i b1 b2 b3 b4
  have e5 : Tidy q none b3 := by rw [b4] at h0; exact h0
  extract_lets +onlyGivenNames v6
  clear_value v6
  refine Tidy.ite ?_ ?_
  · assumption
  · refine Tidy.ite ?_ ?_
    · refine hankDup_tidy _ _ ?_
      assumption
    · refine Tidy.ite ?_ ?_
      · assumption
      · extract_lets +onlyGivenNames v7
        clear_value v7
        extract_lets +onlyGivenNames s8
        have hs8 : Tidy q none (s8) := by
          unfold s8
          refine setMod_tidy _ _ _ ?_
          assumption
        clear_value s8
        refine Tidy.ite ?_ ?_
        · refine raise_tidy _ _ _ ?_
          refine hnkState_tidy _ _ _ ?_
          assumption
        · refine setMod_tidy _ _ _ ?_
          assumption

theorem doHankConfigResend_tidy : ∀ x0 s, Tidy q m s → Tidy q m (@doHankConfigResend x0 s) := by
  intro x0 s h0_
  unfold doHankConfigResend
  split
  · rename_i b0 b1
    assumption
  · rename_i b2 b3 b4
    refine Tidy.ite ?_ ?_
    · assumption
    · refine hankConfig_tidy _ _ ?_
      assumption

theorem doHankInputReceive_tidy : ∀ p d s, Tidy q none s → Tidy q none (@doHankInputReceive p d s) := by
  intro p d s h0_
  unfold doHankInputReceive
  have h0 : Tidy q none (s.hankRx p d).2 := by
    refine hankRx_tidy _ _ _ ?_
    assumption
  split
  rename_i b1 b2 b3 b4
  have e5 : Tidy q none b3 := by rw [b4] at h0; exact h0
  extract_lets +onlyGivenNames v6 v7
  clear_value v6
  clear_value v7
  refine Tidy.ite ?_ ?_
  · assumption
  · refine Tidy.ite ?_ ?_
    · refine hankDup_tidy _ _ ?_
      assumption
    · refine Tidy.ite ?_ ?_
      · assumption
      · extract_lets +onlyGivenNames v8
        clear_value v8
        refine Tidy.ite ?_ ?_
        · refine hankInput_tidy _ _ ?_
          assumption
        · refine Tidy.ite ?_ ?_
          · refine hankDup_tidy _ _ ?_
            assumption
          · extract_lets +onlyGivenNames v9 s10 s11
            clear_value v9
            have hs10 : Tidy q none (s10) := by
              unfold s10
              refine setFld_tidy _ _ _ _ ?_
              assumption
            clear_value s10
            have hs11 : Tidy q none (s11) := by
              unfold s11
              refine Tidy.ite ?_ ?_
              · refine raise_tidy _ _ _ ?_
                assumption
              · assumption
            clear_value s11
            refine hankInput_tidy _ _ ?_
            assumption

theorem doHankModuleLost_tidy : ∀ x0 s, Tidy q none s → Tidy q none (@doHankModuleLost x0 s) := by
  intro x0 s h0_
  unfold doHankModuleLost
  split
  · rename_i b0 b1
    assumption
  · rename_i b2 b3 b4
    refine Tidy.ite ?_ ?_
    · assumption
    · extract_lets +onlyGivenNames s5
      have hs5 : Tidy q none (s5) := by
        unfold s5
        refine incSat_tidy _ _ _ _ _ ?_
        refine hnkState_tidy _ _ _ ?_
        assumption
      clear_value s5
      refine hnkSubstitute_tidy _ _ ?_
      refine raise_tidy _ _ _ ?_
      assumption

theorem doHankOutputSend_tidy : ∀ x0 s, Tidy q none s → Tidy q none (@doHankOutputSend x0 s) := by
  intro x0 s h0_
  unfold doHankOutputSend
  split
  · rename_i b0 b1
    assumption
  · rename_i b2 b3 b4
    refine Tidy.ite ?_ ?_
    · assumption
    · extract_lets +onlyGivenNames s5
      have hs5 : Tidy q none (s5) := by
        unfold s5
        refine hankOutput_tidy _ _ _ ?_
        assumption
      clear_value s5
      refine setMod_tidy _ _ _ ?_
      assumption

theorem doPealHankOutput_tidy : ∀ e s, Tidy q none s → Tidy q none (@doPealHankOutput e s) := by
  intro e s h0_
  unfold doPealHankOutput
  refine pealAct_tidy _ _ _ _ ?_ ?_
  · assumption
  · intro a0 a1 a2
    extract_lets +onlyGivenNames v3
    clear_value v3
    refine Tidy.ite ?_ ?_
    · assumption
    · extract_lets +onlyGivenNames v4 v5 v6 s7
      clear_value v4
      clear_value v5
      clear_value v6
      have hs7 : Tidy q none (s7) := by
        unfold s7
        refine setMod_tidy _ _ _ ?_
        assumption
      clear_value s7
      extract_lets +onlyGivenNames s8
      have hs8 : Tidy q none (s8) := by
        unfold s8
        refine hankOutput_tidy _ _ _ ?_
        assumption
      clear_value s8
      refine Tidy.ite ?_ ?_
      · assumption
      · refine raise_tidy _ _ _ ?_
        refine incSat_tidy _ _ _ _ _ ?_
        assumption

/-! ### Almanac -/

theorem setAlmPlan_tidy : ∀ s h p, Tidy q m s → Tidy q m (@State.setAlmPlan s h p) := by
  intro s h p h0_
  unfold State.setAlmPlan
  refine Tidy.upd (s := s) ?_ rfl rfl rfl rfl
  assumption

theorem almStage_tidy : ∀ s l at_, Tidy q m s → Tidy q m (@State.almStage s l at_) := by
  intro s l at_ h0_
  unfold State.almStage
  refine Tidy.upd (s := s) ?_ rfl rfl rfl rfl
  assumption

theorem clearBins_tidy : ∀ s h, Tidy q m s → Tidy q m (@State.clearBins s h) := by
  intro s h h0_
  unfold State.clearBins
  refine forEach_tidy _ _ _ _ ?_ ?_
  · assumption
  · intro a0 a1 a2
    refine setReg_tidy _ _ _ ?_
    assumption

theorem almOpenPlan_tidy : ∀ s h partial_, Tidy q m s → Tidy q m (@State.almOpenPlan s h partial_) := by
  intro s h partial_ h0_
  unfold State.almOpenPlan
  refine setAlmPlan_tidy _ _ _ ?_
  refine clearBins_tidy _ _ ?_
  assumption

theorem setAlmTrk_tidy : ∀ s t p, Tidy q m s → Tidy q m (@State.setAlmTrk s t p) := by
  intro s t p h0_
  unfold State.setAlmTrk
  refine Tidy.upd (s := s) ?_ rfl rfl rfl rfl
  assumption

theorem clearTrk_tidy : ∀ s t, Tidy q m s → Tidy q m (@State.clearTrk s t) := by
  intro s t h0_
  unfold State.clearTrk
  refine setReg_tidy _ _ _ ?_
  refine forEach_tidy _ _ _ _ ?_ ?_
  · assumption
  · intro a0 a1 a2
    refine setReg_tidy _ _ _ ?_
    assumption

theorem almOpenTrk_tidy : ∀ s t partial_, Tidy q m s → Tidy q m (@State.almOpenTrk s t partial_) := by
  intro s t partial_ h0_
  unfold State.almOpenTrk
  refine setAlmTrk_tidy _ _ _ ?_
  refine clearTrk_tidy _ _ ?_
  assumption

theorem almChange_tidy : ∀ s old, Tidy q m s → Tidy q m (@State.almChange s old) := by
  intro s old h0_
  unfold State.almChange
  extract_lets +onlyGivenNames s0
  have hs0 : Tidy q m (s0) := by
    unfold s0
    refine forEach_tidy _ _ _ _ ?_ ?_
    · assumption
    · intro a1 a2 a3
      extract_lets +onlyGivenNames v4 v5
      clear_value v4
      clear_value v5
      refine Tidy.ite ?_ ?_
      · assumption
      · extract_lets +onlyGivenNames v6
        clear_value v6
        extract_lets +onlyGivenNames v7
        clear_value v7
        extract_lets +onlyGivenNames s8
        have hs8 : Tidy q m (s8) := by
          unfold s8
          refine Tidy.ite ?_ ?_
          · refine setAlmPlan_tidy _ _ _ ?_
            refine almStage_tidy _ _ _ ?_
            assumption
          · assumption
        clear_value s8
        refine Tidy.ite ?_ ?_
        · refine almOpenPlan_tidy _ _ _ ?_
          assumption
        · assumption
  clear_value s0
  refine forEach_tidy _ _ _ _ ?_ ?_
  · assumption
  · intro a9 a10 a11
    extract_lets +onlyGivenNames v12 v13
    clear_value v12
    clear_value v13
    refine Tidy.ite ?_ ?_
    · assumption
    · extract_lets +onlyGivenNames v14
      clear_value v14
      extract_lets +onlyGivenNames s15
      have hs15 : Tidy q m (s15) := by
        unfold s15
        refine Tidy.ite ?_ ?_
        · refine setAlmTrk_tidy _ _ _ ?_
          refine almStage_tidy _ _ _ ?_
          assumption
        · assumption
      clear_value s15
      refine Tidy.ite ?_ ?_
      · refine almOpenTrk_tidy _ _ _ ?_
        assumption
      · assumption

theorem almRemove_tidy : ∀ s e, Tidy q m s → Tidy q m (@State.almRemove s e) := by
  intro s e h0_
  unfold State.almRemove
  extract_lets +onlyGivenNames v0
  clear_value v0
  extract_lets +onlyGivenNames s1
  have hs1 : Tidy q m (s1) := by
    unfold s1
    refine Tidy.upd (s := s) ?_ rfl rfl rfl rfl
    assumption
  clear_value s1
  refine Tidy.ite ?_ ?_
  · refine setBit_tidy _ _ _ _ ?_
    assumption
  · assumption

theorem almNotify_tidy : ∀ s r area, Tidy q m s → Tidy q m (@State.almNotify s r area) := by
  intro s r area h0_
  unfold State.almNotify
  refine Tidy.ite ?_ ?_
  · refine incSat_tidy _ _ _ _ _ ?_
    refine Tidy.upd (s := s) ?_ rfl rfl rfl rfl
    assumption
  · extract_lets +onlyGivenNames v0 s1
    clear_value v0
    have hs1 : Tidy q m (s1) := by
      unfold s1
      refine qPost_tidy _ _ _ ?_
      assumption
    clear_value s1
    refine raiseLim_tidy _ _ _ _ ?_
    refine Tidy.upd (s := s1) ?_ rfl rfl rfl rfl
    assumption

theorem almCommit_tidy : ∀ s r remote, Tidy q m s → Tidy q m (@State.almCommit s r remote) := by
  intro s r remote h0_
  unfold State.almCommit
  split
  · rename_i b0 b1
    refine raise_tidy _ _ _ ?_
    refine incSat_tidy _ _ _ _ _ ?_
    refine Tidy.upd (s := s) ?_ rfl rfl rfl rfl
    assumption
  · rename_i b2 b3 b4 b5
    extract_lets +onlyGivenNames s6 v7 v8 v9 v10 s11 s12
    have hs6 : Tidy q m (s6) := by
      unfold s6
      split
      · rename_i b13 b14
        refine almRemove_tidy _ _ ?_
        assumption
      · rename_i b15
        assumption
    clear_value s6
    clear_value v7
    clear_value v8
    clear_value v9
    clear_value v10
    have hs11 : Tidy q m (s11) := by
      unfold s11
      refine Tidy.upd (s := s6) ?_ rfl rfl rfl rfl
      assumption
    clear_value s11
    have hs12 : Tidy q m (s12) := by
      unfold s12
      refine almNotify_tidy _ _ _ ?_
      refine setReg_tidy _ _ _ ?_
      refine setReg_tidy _ _ _ ?_
      assumption
    clear_value s12
    extract_lets +onlyGivenNames s16
    have hs16 : Tidy q m (s16) := by
      unfold s16
      refine Tidy.ite ?_ ?_
      · refine plySend_tidy _ _ ?_
        assumption
      · assumption
    clear_value s16
    refine Tidy.ite ?_ ?_
    · refine raise_tidy _ _ _ ?_
      assumption
    · assumption

theorem almCounters_tidy : ∀ s, Tidy q m s → Tidy q m (@State.almCounters s) := by
  intro s h0_
  unfold State.almCounters
  split
  · rename_i b0 b1
    assumption
  · rename_i b2 b3 b4
    refine Tidy.ite ?_ ?_
    · assumption
    · extract_lets +onlyGivenNames v5 v6 v7
      clear_value v5
      clear_value v6
      clear_value v7
      extract_lets +onlyGivenNames s8
      have hs8 : Tidy q m (s8) := by
        unfold s8
        refine Tidy.upd (s := s) ?_ rfl rfl rfl rfl
        assumption
      clear_value s8
      refine setBit_tidy _ _ _ _ ?_
      refine setReg_tidy _ _ _ ?_
      refine setReg_tidy _ _ _ ?_
      assumption

theorem almEnd_tidy : ∀ s k at_ op extra partial_, Tidy q m s → Tidy q m (@State.almEnd s k at_ op extra partial_) := by
  intro s k at_ op extra partial_ h0_
  unfold State.almEnd
  extract_lets +onlyGivenNames v0 s1
  clear_value v0
  have hs1 : Tidy q m (s1) := by
    unfold s1
    refine almStage_tidy _ _ _ ?_
    assumption
  clear_value s1
  refine Tidy.ite ?_ ?_
  · assumption
  · refine forEach_tidy _ _ _ _ ?_ ?_
    · refine forEach_tidy _ _ _ _ ?_ ?_
      · assumption
      · intro a2 a3 a4
        refine almOpenPlan_tidy _ _ _ ?_
        assumption
    · intro a5 a6 a7
      refine almOpenTrk_tidy _ _ _ ?_
      assumption

theorem tallyNote_tidy : ∀ s cause atStart addr, Tidy q m s → Tidy q m (@State.tallyNote s cause atStart addr) := by
  intro s cause atStart addr h0_
  unfold State.tallyNote
  refine Tidy.ite ?_ ?_
  · assumption
  · have h0 : Tidy q m (s.nextFree).2 := by
      refine nextFree_tidy _ ?_
      assumption
    split
    rename_i b1 b2 b3 b4
    have e5 : Tidy q m b3 := by rw [b4] at h0; exact h0
    extract_lets +onlyGivenNames v6 v7 v8 v9
    clear_value v6
    clear_value v7
    clear_value v8
    clear_value v9
    extract_lets +onlyGivenNames s10
    have hs10 : Tidy q m (s10) := by
      unfold s10
      refine Tidy.upd (s := b3) ?_ rfl rfl rfl rfl
      assumption
    clear_value s10
    refine setBit_tidy _ _ _ _ ?_
    refine setFld_tidy _ _ _ _ ?_
    assumption

theorem almFail_tidy : ∀ s cause atStart addr, Tidy q m s → Tidy q m (@State.almFail s cause atStart addr) := by
  intro s cause atStart addr h0_
  unfold State.almFail
  refine Tidy.ite ?_ ?_
  · assumption
  · extract_lets +onlyGivenNames s0 s1
    have hs0 : Tidy q m (s0) := by
      unfold s0
      refine setFld_tidy _ _ _ _ ?_
      assumption
    clear_value s0
    have hs1 : Tidy q m (s1) := by
      unfold s1
      refine almCommit_tidy _ _ _ ?_
      assumption
    clear_value s1
    refine raise_tidy _ _ _ ?_
    refine tallyNote_tidy _ _ _ _ ?_
    assumption

theorem almWindow_tidy : ∀ s ws, Tidy q m s → Tidy q m (@State.almWindow s ws) := by
  intro s ws h0_
  unfold State.almWindow
  refine forEach_tidy _ _ _ _ ?_ ?_
  · assumption
  · intro a0 a1 a2
    refine setReg_tidy _ _ _ ?_
    assumption

theorem almLoad_tidy : ∀ s e, Tidy q m s → Tidy q m (@State.almLoad s e) := by
  intro s e h0_
  unfold State.almLoad
  split
  · rename_i b0 b1
    refine setBit_tidy _ _ _ _ ?_
    refine setBit_tidy _ _ _ _ ?_
    refine almWindow_tidy _ _ ?_
    refine Tidy.upd (s := s) ?_ rfl rfl rfl rfl
    assumption
  · rename_i b2
    refine setBit_tidy _ _ _ _ ?_
    refine setBit_tidy _ _ _ _ ?_
    refine almWindow_tidy _ _ ?_
    assumption

theorem almRearm_tidy : ∀ s, Tidy q m s → Tidy q m (@State.almRearm s) := by
  intro s h0_
  unfold State.almRearm
  refine Tidy.upd (s := s) ?_ rfl rfl rfl rfl
  assumption

theorem markStep_tidy : ∀ s k, Tidy q m s → Tidy q m (@State.markStep s k) := by
  intro s k h0_
  unfold State.markStep
  refine forEach_tidy _ _ _ _ ?_ ?_
  · refine forEach_tidy _ _ _ _ ?_ ?_
    · assumption
    · intro a0 a1 a2
      refine setAlmPlan_tidy _ _ _ ?_
      assumption
  · intro a3 a4 a5
    refine setAlmTrk_tidy _ _ _ ?_
    assumption

theorem almStep_tidy : ∀ s forward, Tidy q m s → Tidy q m (@State.almStep s forward) := by
  intro s forward h0_
  unfold State.almStep
  refine forEach_tidy _ _ _ _ ?_ ?_
  · assumption
  · intro a0 a1 a2
    split
    · rename_i b3 b4
      assumption
    · rename_i b5 b6 b7
      refine Tidy.ite ?_ ?_
      · refine markStep_tidy _ _ ?_
        assumption
      · refine Tidy.ite ?_ ?_
        · assumption
        · extract_lets +onlyGivenNames s8
          have hs8 : Tidy q m (s8) := by
            unfold s8
            refine almEnd_tidy _ _ _ _ _ _ ?_
            refine markStep_tidy _ _ ?_
            assumption
          clear_value s8
          refine Tidy.upd (s := s8) ?_ rfl rfl rfl rfl
          assumption

theorem almTrkValue_tidy : ∀ s t v invalid, Tidy q m s → Tidy q m (@State.almTrkValue s t v invalid) := by
  intro s t v invalid h0_
  unfold State.almTrkValue
  refine Tidy.ite ?_ ?_
  · assumption
  · extract_lets +onlyGivenNames v0 v1 v2 s3 s4
    clear_value v0
    clear_value v1
    clear_value v2
    have hs3 : Tidy q m (s3) := by
      unfold s3
      refine Tidy.ite ?_ ?_
      · refine setBit_tidy _ _ _ _ ?_
        refine setReg64_tidy _ _ _ _ ?_
        refine setReg_tidy _ _ _ ?_
        assumption
      · assumption
    clear_value s3
    have hs4 : Tidy q m (s4) := by
      unfold s4
      refine Tidy.ite ?_ ?_
      · refine setBit_tidy _ _ _ _ ?_
        refine setReg64_tidy _ _ _ _ ?_
        refine setReg_tidy _ _ _ ?_
        assumption
      · assumption
    clear_value s4
    refine setBit_tidy _ _ _ _ ?_
    assumption

theorem binAdd_tidy : ∀ s h i n, Tidy q m s → Tidy q m (@State.binAdd s h i n) := by
  intro s h i n h0_
  unfold State.binAdd
  extract_lets +onlyGivenNames v0 v1 v2 s3
  clear_value v0
  clear_value v1
  clear_value v2
  have hs3 : Tidy q m (s3) := by
    unfold s3
    refine setReg_tidy _ _ _ ?_
    assumption
  clear_value s3
  refine Tidy.ite ?_ ?_
  · assumption
  · extract_lets +onlyGivenNames v4
    clear_value v4
    extract_lets +onlyGivenNames s5
    have hs5 : Tidy q m (s5) := by
      unfold s5
      refine setAlmPlan_tidy _ _ _ ?_
      assumption
    clear_value s5
    refine Tidy.ite ?_ ?_
    · refine raise_tidy _ _ _ ?_
      assumption
    · assumption

theorem planValue_tidy : ∀ s h v invalid, Tidy q m s → Tidy q m (@State.planValue s h v invalid) := by
  intro s h v invalid h0_
  unfold State.planValue
  extract_lets +onlyGivenNames v0 v1 v2 v3 v4
  clear_value v0
  clear_value v1
  clear_value v2
  clear_value v3
  clear_value v4
  refine Tidy.ite ?_ ?_
  · assumption
  · extract_lets +onlyGivenNames s5
    have hs5 : Tidy q m (s5) := by
      unfold s5
      refine Tidy.ite ?_ ?_
      · refine setAlmPlan_tidy _ _ _ ?_
        assumption
      · assumption
    clear_value s5
    refine Tidy.ite ?_ ?_
    · refine binAdd_tidy _ _ _ _ ?_
      assumption
    · refine Tidy.ite ?_ ?_
      · have h6 : Tidy q m (s5.nextFree).2 := by
          refine nextFree_tidy _ ?_
          assumption
        split
        rename_i b7 b8 b9 b10
        have e11 : Tidy q m b9 := by rw [b10] at h6; exact h6
        refine Tidy.ite ?_ ?_
        · refine binAdd_tidy _ _ _ _ ?_
          assumption
        · refine binAdd_tidy _ _ _ _ ?_
          assumption
      · refine Tidy.ite ?_ ?_
        · refine binAdd_tidy _ _ _ _ ?_
          assumption
        · refine Tidy.ite ?_ ?_
          · refine binAdd_tidy _ _ _ _ ?_
            assumption
          · extract_lets +onlyGivenNames s12
            have hs12 : Tidy q m (s12) := by
              unfold s12
              split
              · rename_i b13 b14 b15
                refine binAdd_tidy _ _ _ _ ?_
                assumption
              · rename_i b16 b17
                assumption
            clear_value s12
            refine setAlmPlan_tidy _ _ _ ?_
            assumption

theorem almValue_tidy : ∀ s src v invalid, Tidy q m s → Tidy q m (@State.almValue s src v invalid) := by
  intro s src v invalid h0_
  unfold State.almValue
  extract_lets +onlyGivenNames v0 v1
  clear_value v0
  clear_value v1
  refine forEach_tidy _ _ _ _ ?_ ?_
  · refine forEach_tidy _ _ _ _ ?_ ?_
    · assumption
    · intro a2 a3 a4
      refine planValue_tidy _ _ _ _ ?_
      assumption
  · intro a5 a6 a7
    refine almTrkValue_tidy _ _ _ _ ?_
    assumption

theorem doAlmCurWrite_tidy : ∀ v s, Tidy q m s → Tidy q m (@doAlmCurWrite v s) := by
  intro v s h0_
  unfold doAlmCurWrite
  extract_lets +onlyGivenNames s0 v1
  have hs0 : Tidy q m (s0) := by
    unfold s0
    refine setReg_tidy _ _ _ ?_
    assumption
  clear_value s0
  clear_value v1
  refine Tidy.ite ?_ ?_
  · extract_lets +onlyGivenNames v2 v3
    clear_value v2
    clear_value v3
    refine almWindow_tidy _ _ ?_
    assumption
  · extract_lets +onlyGivenNames v4
    clear_value v4
    refine almLoad_tidy _ _ ?_
    refine Tidy.upd (s := s0) ?_ rfl rfl rfl rfl
    assumption

theorem norWear_tidy : ∀ s, Tidy q m s → Tidy q m (@State.norWear s) := by
  intro s h0_
  unfold State.norWear
  refine Tidy.ite ?_ ?_
  · assumption
  · have h0 : Tidy q m (s.nextFree).2 := by
      refine nextFree_tidy _ ?_
      assumption
    split
    rename_i b1 b2 b3 b4
    have e5 : Tidy q m b3 := by rw [b4] at h0; exact h0
    refine Tidy.ite ?_ ?_
    · refine incSat_tidy _ _ _ _ _ ?_
      assumption
    · assumption

theorem slotFails_tidy : ∀ s addr, Tidy q m s → Tidy q m (@State.slotFails s addr) := by
  intro s addr h0_
  unfold State.slotFails
  extract_lets +onlyGivenNames s0
  have hs0 : Tidy q m (s0) := by
    unfold s0
    refine Tidy.ite ?_ ?_
    · refine incSat_tidy _ _ _ _ _ ?_
      assumption
    · assumption
  clear_value s0
  refine Tidy.ite ?_ ?_
  · refine almFail_tidy _ _ _ _ ?_
    assumption
  · refine Tidy.upd (s := s0) ?_ rfl rfl rfl rfl
    assumption

theorem doAlmWinW63Read_tidy : ∀ s, Tidy q m s → Tidy q m (@doAlmWinW63Read s) := by
  intro s h0_
  unfold doAlmWinW63Read
  extract_lets +onlyGivenNames v0 s1 v2
  clear_value v0
  have hs1 : Tidy q m (s1) := by
    unfold s1
    refine Tidy.upd (s := s) ?_ rfl rfl rfl rfl
    assumption
  clear_value s1
  clear_value v2
  extract_lets +onlyGivenNames v3
  clear_value v3
  refine Tidy.ite ?_ ?_
  · assumption
  · refine Tidy.ite ?_ ?_
    · refine Tidy.ite ?_ ?_
      · assumption
      · refine almLoad_tidy _ _ ?_
        assumption
    · refine almLoad_tidy _ _ ?_
      assumption

theorem doAlmanacCommit_tidy : ∀ verified cause addr s, Tidy q m s → Tidy q m (@doAlmanacCommit verified cause addr s) := by
  intro verified cause addr s h0_
  unfold doAlmanacCommit
  extract_lets +onlyGivenNames v0
  clear_value v0
  split
  · rename_i b1 b2
    assumption
  · rename_i b3 b4 b5 b6
    refine Tidy.ite ?_ ?_
    · assumption
    · refine Tidy.ite ?_ ?_
      · refine Tidy.ite ?_ ?_
        · refine slotFails_tidy _ _ ?_
          assumption
        · refine almFail_tidy _ _ _ _ ?_
          assumption
      · extract_lets +onlyGivenNames v7 v8
        clear_value v7
        clear_value v8
        extract_lets +onlyGivenNames s9
        have hs9 : Tidy q m (s9) := by
          unfold s9
          refine Tidy.upd (s := s) ?_ rfl rfl rfl rfl
          assumption
        clear_value s9
        refine almCommit_tidy _ _ _ ?_
        refine Tidy.ite ?_ ?_
        · assumption
        · refine norWear_tidy _ ?_
          assumption

theorem doAlmanacValue_tidy : ∀ src s, Tidy q m s → Tidy q m (@doAlmanacValue src s) := by
  intro src s h0_
  unfold doAlmanacValue
  split
  · refine almValue_tidy _ _ _ _ ?_
    assumption
  · assumption

theorem doCommitLate_tidy : ∀ s, Tidy q m s → Tidy q m (@doCommitLate s) := by
  intro s h0_
  unfold doCommitLate
  split
  · rename_i b0 b1
    assumption
  · rename_i b2 b3 b4 b5
    refine Tidy.ite ?_ ?_
    · assumption
    · refine raise_tidy _ _ _ ?_
      refine Tidy.upd (s := s) ?_ rfl rfl rfl rfl
      assumption

theorem doInterruptionMeasureEnd_tidy : ∀ c s, Tidy q m s → Tidy q m (@doInterruptionMeasureEnd c s) := by
  intro c s h0_
  unfold doInterruptionMeasureEnd
  split
  · rename_i b0 b1
    assumption
  · rename_i b2 b3 b4
    refine Tidy.ite ?_ ?_
    · assumption
    · extract_lets +onlyGivenNames v5
      clear_value v5
      extract_lets +onlyGivenNames s6
      have hs6 : Tidy q m (s6) := by
        unfold s6
        refine Tidy.upd (s := s) ?_ rfl rfl rfl rfl
        assumption
      clear_value s6
      refine almValue_tidy _ _ _ _ ?_
      refine almValue_tidy _ _ _ _ ?_
      assumption

theorem doIntervalBoundary_tidy : ∀ k s, Tidy q m s → Tidy q m (@doIntervalBoundary k s) := by
  intro k s h0_
  unfold doIntervalBoundary
  split
  · rename_i b0 b1
    assumption
  · rename_i b2 b3 b4
    refine Tidy.ite ?_ ?_
    · assumption
    · extract_lets +onlyGivenNames s5
      have hs5 : Tidy q m (s5) := by
        unfold s5
        refine almEnd_tidy _ _ _ _ _ _ ?_
        assumption
      clear_value s5
      refine Tidy.upd (s := s5) ?_ rfl rfl rfl rfl
      assumption

theorem doKeepScanDone_tidy : ∀ s, Tidy q m s → Tidy q m (@doKeepScanDone s) := by
  intro s h0_
  unfold doKeepScanDone
  extract_lets +onlyGivenNames v0
  clear_value v0
  refine Tidy.ite ?_ ?_
  · assumption
  · extract_lets +onlyGivenNames v1
    clear_value v1
    extract_lets +onlyGivenNames s2
    have hs2 : Tidy q m (s2) := by
      unfold s2
      refine Tidy.upd (s := s) ?_ rfl rfl rfl rfl
      assumption
    clear_value s2
    refine Tidy.ite ?_ ?_
    · assumption
    · extract_lets +onlyGivenNames s3 s4 v5 s6
      have hs3 : Tidy q m (s3) := by
        unfold s3
        refine almCounters_tidy _ ?_
        assumption
      clear_value s3
      have hs4 : Tidy q m (s4) := by
        unfold s4
        split
        · rename_i b7 b8 b9
          refine setReg_tidy _ _ _ ?_
          assumption
        · rename_i b10 b11
          assumption
      clear_value s4
      clear_value v5
      have hs6 : Tidy q m (s6) := by
        unfold s6
        refine setFld_tidy _ _ _ _ ?_
        refine setReg_tidy _ _ _ ?_
        assumption
      clear_value s6
      split
      · rename_i b12 b13 b14
        refine note_tidy _ _ _ ?_
        refine Tidy.upd (s := s6) ?_ rfl rfl rfl rfl
        assumption
      · rename_i b15 b16
        assumption

theorem doRemoteRecordReceive_tidy : ∀ r s, Tidy q m s → Tidy q m (@doRemoteRecordReceive r s) := by
  intro r s h0_
  unfold doRemoteRecordReceive
  refine Tidy.ite ?_ ?_
  · assumption
  · refine Tidy.upd (s := s) ?_ rfl rfl rfl rfl
    assumption

/-! ### Capture -/

theorem capPlanChange_tidy : ∀ s p wasOn wasPre, Tidy q m s → Tidy q m (@State.capPlanChange s p wasOn wasPre) := by
  intro s p wasOn wasPre h0_
  unfold State.capPlanChange
  extract_lets +onlyGivenNames v0 v1 v2
  clear_value v0
  clear_value v1
  clear_value v2
  refine Tidy.ite ?_ ?_
  · refine capNewRing_tidy _ _ ?_
    refine setCapPlan_tidy _ _ _ ?_
    refine capUnlink_tidy _ _ ?_
    assumption
  · refine Tidy.ite ?_ ?_
    · refine Tidy.ite ?_ ?_
      · refine capSync_tidy _ ?_
        refine setFld_tidy _ _ _ _ ?_
        refine setCapPlan_tidy _ _ _ ?_
        refine capUnlink_tidy _ _ ?_
        assumption
      · refine setCapPlan_tidy _ _ _ ?_
        refine forEach_tidy _ _ _ _ ?_ ?_
        · assumption
        · intro a3 a4 a5
          split
          · rename_i b6 b7 b8
            refine setCapRec_tidy _ _ _ ?_
            assumption
          · rename_i b9 b10
            assumption
    · refine Tidy.ite ?_ ?_
      · refine capNewRing_tidy _ _ ?_
        refine capUnlink_tidy _ _ ?_
        assumption
      · assumption

theorem capRelease_tidy : ∀ s p, Tidy q m s → Tidy q m (@State.capRelease s p) := by
  intro s p h0_
  unfold State.capRelease
  extract_lets +onlyGivenNames v0 s1 s2
  clear_value v0
  have hs1 : Tidy q m (s1) := by
    unfold s1
    refine capUnlink_tidy _ _ ?_
    assumption
  clear_value s1
  have hs2 : Tidy q m (s2) := by
    unfold s2
    refine setCapPlan_tidy _ _ _ ?_
    assumption
  clear_value s2
  refine capSync_tidy _ ?_
  refine setFld_tidy _ _ _ _ ?_
  assumption

theorem capTick_tidy : ∀ s, Tidy q m s → Tidy q m (@State.capTick s) := by
  intro s h0_
  unfold State.capTick
  refine forEach_tidy _ _ _ _ ?_ ?_
  · assumption
  · intro a0 a1 a2
    refine Tidy.ite ?_ ?_
    · assumption
    · extract_lets +onlyGivenNames v3 v4 v5
      clear_value v3
      clear_value v4
      clear_value v5
      refine setCapPlan_tidy _ _ _ ?_
      assumption

theorem recPost_tidy : ∀ s p e r, Tidy q m s → Tidy q m (@State.recPost s p e r) := by
  intro s p e r h0_
  unfold State.recPost
  extract_lets +onlyGivenNames v0 v1 v2 v3 s4 s5 s6
  clear_value v0
  clear_value v1
  clear_value v2
  clear_value v3
  have hs4 : Tidy q m (s4) := by
    unfold s4
    refine setReg_tidy _ _ _ ?_
    refine capLink_tidy _ _ ?_
    refine capUnlink_tidy _ _ ?_
    assumption
  clear_value s4
  have hs5 : Tidy q m (s5) := by
    unfold s5
    refine setFld_tidy _ _ _ _ ?_
    refine setFld_tidy _ _ _ _ ?_
    assumption
  clear_value s5
  have hs6 : Tidy q m (s6) := by
    unfold s6
    refine capSync_tidy _ ?_
    refine setCapRec_tidy _ _ _ ?_
    assumption
  clear_value s6
  refine Tidy.ite ?_ ?_
  · refine ringDrop_tidy _ _ ?_
    assumption
  · extract_lets +onlyGivenNames v7
    clear_value v7
    refine raise_tidy _ _ _ ?_
    refine qPost_tidy _ _ _ ?_
    assumption

theorem recClose_tidy : ∀ s p e r, Tidy q m s → Tidy q m (@State.recClose s p e r) := by
  intro s p e r h0_
  unfold State.recClose
  extract_lets +onlyGivenNames v0 s1 v2 v3 s4
  clear_value v0
  have hs1 : Tidy q m (s1) := by
    unfold s1
    refine recPost_tidy _ _ _ _ ?_
    assumption
  clear_value s1
  clear_value v2
  clear_value v3
  have hs4 : Tidy q m (s4) := by
    unfold s4
    refine setBit_tidy _ _ _ _ ?_
    refine setCapPlan_tidy _ _ _ ?_
    assumption
  clear_value s4
  refine Tidy.ite ?_ ?_
  · refine capRelease_tidy _ _ ?_
    assumption
  · assumption

theorem recTrunc_tidy : ∀ s p e r, Tidy q m s → Tidy q m (@State.recTrunc s p e r) := by
  intro s p e r h0_
  unfold State.recTrunc
  refine raise_tidy _ _ _ ?_
  refine recClose_tidy _ _ _ _ ?_
  assumption

theorem recGrow_tidy : ∀ s p e old r, Tidy q m s → Tidy q m (@State.recGrow s p e old r) := by
  intro s p e old r h0_
  unfold State.recGrow
  extract_lets +onlyGivenNames v0
  clear_value v0
  refine Tidy.ite ?_ ?_
  · refine setCapRec_tidy _ _ _ ?_
    assumption
  · have h1 : Tidy q m (s.capMakeRoom (v0 - r.blocks.length) false 64).2 := by
      refine capMakeRoom_tidy _ _ _ _ ?_
      assumption
    split
    rename_i b2 b3 b4 b5
    have e6 : Tidy q m b4 := by rw [b5] at h1; exact h1
    refine Tidy.ite ?_ ?_
    · refine recTrunc_tidy _ _ _ _ ?_
      assumption
    · extract_lets +onlyGivenNames v7
      clear_value v7
      refine capSync_tidy _ ?_
      refine setCapRec_tidy _ _ _ ?_
      refine capLink_tidy _ _ ?_
      assumption

theorem recFill_tidy : ∀ s p e, Tidy q m s → Tidy q m (@State.recFill s p e) := by
  intro s p e h0_
  unfold State.recFill
  split
  · rename_i b0 b1
    assumption
  · rename_i b2 b3 b4
    extract_lets +onlyGivenNames v5 v6
    clear_value v5
    clear_value v6
    refine Tidy.ite ?_ ?_
    · assumption
    · refine recGrow_tidy _ _ _ _ _ ?_
      assumption

theorem recSnap_tidy : ∀ s p e a snap, Tidy q m s → Tidy q m (@State.recSnap s p e a snap) := by
  intro s p e a snap h0_
  unfold State.recSnap
  split
  · rename_i b0 b1
    assumption
  · rename_i b2 b3 b4
    extract_lets +onlyGivenNames v5
    clear_value v5
    refine Tidy.ite ?_ ?_
    · assumption
    · refine Tidy.ite ?_ ?_
      · refine setCapRec_tidy _ _ _ ?_
        assumption
      · refine recGrow_tidy _ _ _ _ _ ?_
        assumption

theorem recSnaps_tidy : ∀ s p e, Tidy q m s → Tidy q m (@State.recSnaps s p e) := by
  intro s p e h0_
  unfold State.recSnaps
  refine forEach_tidy _ _ _ _ ?_ ?_
  · assumption
  · intro a0 a1 a2
    refine recSnap_tidy _ _ _ _ _ ?_
    assumption

theorem doCaptureResultsReceive_tidy : ∀ bay s, Tidy q m s → Tidy q m (@doCaptureResultsReceive bay s) := by
  intro bay s h0_
  unfold doCaptureResultsReceive
  split
  · rename_i b0 b1
    assumption
  · rename_i b2 b3 b4 b5
    split
    · rename_i b6 b7
      assumption
    · rename_i b8 b9 b10
      extract_lets +onlyGivenNames v11
      clear_value v11
      refine Tidy.ite ?_ ?_
      · assumption
      · extract_lets +onlyGivenNames v12 v13
        clear_value v12
        clear_value v13
        extract_lets +onlyGivenNames s14
        have hs14 : Tidy q m (s14) := by
          unfold s14
          refine Tidy.upd (s := s) ?_ rfl rfl rfl rfl
          assumption
        clear_value s14
        refine forEach_tidy _ _ _ _ ?_ ?_
        · assumption
        · intro a15 a16 a17
          refine planPatch_tidy _ _ _ _ _ ?_
          assumption

theorem doCaptureSampleWrite_tidy : ∀ plan s, Tidy q m s → Tidy q m (@doCaptureSampleWrite plan s) := by
  intro plan s h0_
  unfold doCaptureSampleWrite
  extract_lets +onlyGivenNames v0 v1
  clear_value v0
  clear_value v1
  split
  · rename_i b2 b3
    assumption
  · rename_i b4 b5 b6
    extract_lets +onlyGivenNames v7
    clear_value v7
    refine Tidy.ite ?_ ?_
    · assumption
    · extract_lets +onlyGivenNames v8 v9 v10 s11
      clear_value v8
      clear_value v9
      clear_value v10
      have hs11 : Tidy q m (s11) := by
        unfold s11
        refine setCapPlan_tidy _ _ _ ?_
        assumption
      clear_value s11
      refine capEdges_tidy _ _ _ _ _ _ ?_
      refine forEach_tidy _ _ _ _ ?_ ?_
      · assumption
      · intro a12 a13 a14
        refine recSnaps_tidy _ _ _ ?_
        refine recFill_tidy _ _ _ ?_
        assumption

theorem doPeerCaptureRequest_tidy : ∀ plan m_ s, Tidy q m s → Tidy q m (@doPeerCaptureRequest plan m_ s) := by
  intro plan m_ s h0_
  unfold doPeerCaptureRequest
  refine Tidy.ite ?_ ?_
  · assumption
  · extract_lets +onlyGivenNames s0
    have hs0 : Tidy q m (s0) := by
      unfold s0
      refine Tidy.ite ?_ ?_
      · refine captureTrigger_tidy _ _ _ _ ?_
        assumption
      · assumption
    clear_value s0
    split
    · rename_i b1 b2
      assumption
    · rename_i b3 b4 b5
      split
      · rename_i b6 b7
        assumption
      · rename_i b8 b9 b10
        refine setCapRec_tidy _ _ _ ?_
        assumption

theorem doRecordClose_tidy : ∀ plan s, Tidy q m s → Tidy q m (@doRecordClose plan s) := by
  intro plan s h0_
  unfold doRecordClose
  extract_lets +onlyGivenNames v0
  clear_value v0
  split
  · rename_i b1 b2
    assumption
  · rename_i b3 b4 b5
    extract_lets +onlyGivenNames s6
    have hs6 : Tidy q m (s6) := by
      unfold s6
      refine recSnaps_tidy _ _ _ ?_
      refine recFill_tidy _ _ _ ?_
      assumption
    clear_value s6
    split
    · rename_i b7 b8
      assumption
    · rename_i b9 b10 b11
      extract_lets +onlyGivenNames v12 v13
      clear_value v12
      clear_value v13
      refine Tidy.ite ?_ ?_
      · refine recClose_tidy _ _ _ _ ?_
        assumption
      · assumption

theorem doSnapshotCopy_tidy : ∀ bay s, Tidy q m s → Tidy q m (@doSnapshotCopy bay s) := by
  intro bay s h0_
  unfold doSnapshotCopy
  extract_lets +onlyGivenNames v0
  clear_value v0
  split
  · rename_i b1 b2
    assumption
  · rename_i b3 b4 b5 b6
    extract_lets +onlyGivenNames v7
    clear_value v7
    refine Tidy.ite ?_ ?_
    · assumption
    · extract_lets +onlyGivenNames v8 v9
      clear_value v8
      clear_value v9
      extract_lets +onlyGivenNames s10
      have hs10 : Tidy q m (s10) := by
        unfold s10
        refine Tidy.upd (s := s) ?_ rfl rfl rfl rfl
        assumption
      clear_value s10
      refine forEach_tidy _ _ _ _ ?_ ?_
      · assumption
      · intro a11 a12 a13
        refine forEach_tidy _ _ _ _ ?_ ?_
        · assumption
        · intro a14 a15 a16
          refine recSnaps_tidy _ _ _ ?_
          assumption

end Sys2Proof.Laws
end

