-- ==== Sys2Proof/Laws/TidyConfig.lean ====
section
/-! SUPPORT. Every function of configuration, overlays, the twin, restart and load keeps the queue of waiting commands and the canonical form of memory, registers and
latched copies; one that writes no octet keeps memory. -/

namespace Sys2Proof.Laws

open Sys2Proof.Machine

variable {q : List Instr} {m : Option (List Host.Cell)}

/-! ### Overlay -/

theorem putBayDue_tidy : ∀ s b c, Tidy q m s → Tidy q m (@State.putBayDue s b c) := by
  intro s b c h0_
  unfold State.putBayDue
  refine Tidy.upd (s := s) ?_ rfl rfl rfl rfl
  assumption

theorem svEnable_tidy : ∀ s b, Tidy q m s → Tidy q m (@State.svEnable s b) := by
  intro s b h0_
  unfold State.svEnable
  refine Tidy.upd (s := s) ?_ rfl rfl rfl rfl
  assumption

theorem ovlFollow_tidy : ∀ s old k l, Tidy q none s → Tidy q none (@State.ovlFollow s old k l) := by
  intro s old k l h0_
  unfold State.ovlFollow
  extract_lets +onlyGivenNames v0 s1 s2 s3 s4 s5 s11
  clear_value v0
  have hs1 : Tidy q none (s1) := by
    unfold s1
    refine almChange_tidy _ _ ?_
    assumption
  clear_value s1
  have hs2 : Tidy q none (s2) := by
    unfold s2
    refine forEach_tidy _ _ _ _ ?_ ?_
    · assumption
    · intro a12 a13 a14
      refine Tidy.ite ?_ ?_
      · refine capPlanChange_tidy _ _ _ _ ?_
        assumption
      · assumption
  clear_value s2
  have hs3 : Tidy q none (s3) := by
    unfold s3
    refine forEach_tidy _ _ _ _ ?_ ?_
    · assumption
    · intro a15 a16 a17
      refine Tidy.ite ?_ ?_
      · refine pealEnable_tidy _ _ ?_
        assumption
      · assumption
  clear_value s3
  have hs4 : Tidy q none (s4) := by
    unfold s4
    refine forEach_tidy _ _ _ _ ?_ ?_
    · assumption
    · intro a18 a19 a20
      refine Tidy.ite ?_ ?_
      · assumption
      · refine Tidy.ite ?_ ?_
        · refine hankEnable_tidy _ _ ?_
          assumption
        · refine hankDisable_tidy _ _ ?_
          assumption
  clear_value s4
  have hs5 : Tidy q none (s5) := by
    unfold s5
    refine forEach_tidy _ _ _ _ ?_ ?_
    · assumption
    · intro a21 a22 a23
      refine Tidy.ite ?_ ?_
      · refine svEnable_tidy _ _ ?_
        assumption
      · assumption
  clear_value s5
  have hs11 : Tidy q none (s11) := by
    unfold s11
    refine Tidy.ite ?_ ?_
    · refine rotSync_tidy _ ?_
      assumption
    · assumption
  clear_value s11
  refine Tidy.ite ?_ ?_
  · refine raise_tidy _ _ _ ?_
    assumption
  · assumption

theorem applyNow_tidy : ∀ s e, Tidy q m s → Tidy q m (@State.applyNow s e) := by
  intro s e h0_
  unfold State.applyNow
  refine Tidy.ite ?_ ?_
  · refine applyChainReg_tidy _ _ _ ?_
    assumption
  · refine setReg_tidy _ _ _ ?_
    assumption

theorem commFollow_tidy : ∀ s, Tidy q none s → Tidy q none (@State.commFollow s) := by
  intro s h0_
  unfold State.commFollow
  extract_lets +onlyGivenNames v0 s1
  clear_value v0
  have hs1 : Tidy q none (s1) := by
    unfold s1
    refine setBit_tidy _ _ _ _ ?_
    assumption
  clear_value s1
  refine Tidy.ite ?_ ?_
  · extract_lets +onlyGivenNames s2 v3
    have hs2 : Tidy q none (s2) := by
      unfold s2
      refine forEach_tidy _ _ _ _ ?_ ?_
      · assumption
      · intro a4 a5 a6
        refine Tidy.ite ?_ ?_
        · refine forceOff_tidy _ _ ?_
          assumption
        · assumption
    clear_value s2
    clear_value v3
    extract_lets +onlyGivenNames s7
    have hs7 : Tidy q none (s7) := by
      unfold s7
      refine Tidy.upd (s := s2) ?_ rfl rfl rfl rfl
      assumption
    clear_value s7
    refine Tidy.ite ?_ ?_
    · refine stopLogic_tidy _ ?_
      assumption
    · assumption
  · assumption

theorem ovlSwitch_tidy : ∀ s k t src, Tidy q none s → Tidy q none (@State.ovlSwitch s k t src) := by
  intro s k t src h0_
  unfold State.ovlSwitch
  extract_lets +onlyGivenNames v0
  clear_value v0
  refine Tidy.ite ?_ ?_
  · assumption
  · extract_lets +onlyGivenNames v1 w1 v2 s3 s4 s5 w5 s5b s6
    clear_value v1
    clear_value w1
    clear_value v2
    have hs3 : Tidy q none (s3) := by
      unfold s3
      refine setFld_tidy _ _ _ _ ?_
      assumption
    clear_value s3
    have hs4 : Tidy q none (s4) := by
      unfold s4
      split
      · rename_i b7 b8
        refine note_tidy _ _ _ ?_
        refine incWrap_tidy _ _ _ ?_
        assumption
      · rename_i b9
        assumption
    clear_value s4
    have hs5 : Tidy q none (s5) := by
      unfold s5
      refine forEach_tidy _ _ _ _ ?_ ?_
      · assumption
      · intro a10 a11 a12
        extract_lets +onlyGivenNames v13
        clear_value v13
        refine Tidy.ite ?_ ?_
        · refine putBayDue_tidy _ _ _ ?_
          assumption
        · assumption
    clear_value s5
    clear_value w5
    have hs5b : Tidy q none (s5b) := by
      unfold s5b
      refine Tidy.upd (s := s5) ?_ rfl rfl rfl rfl
      assumption
    clear_value s5b
    have hs6 : Tidy q none (s6) := by
      unfold s6
      refine ovlFollow_tidy _ _ _ _ ?_
      refine forEach_tidy _ _ _ _ ?_ ?_
      · assumption
      · intro a14 a15 a16
        refine applyNow_tidy _ _ ?_
        assumption
    clear_value s6
    refine releaseBySource_tidy _ _ _ ?_
    refine commFollow_tidy _ ?_
    assumption

theorem doOverlayTakeEffect_tidy : ∀ s, Tidy q none s → Tidy q none (@doOverlayTakeEffect s) := by
  intro s h0_
  unfold doOverlayTakeEffect
  split
  · rename_i b0 b1
    assumption
  · rename_i b2 b3 b4 b5
    refine Tidy.ite ?_ ?_
    · assumption
    · extract_lets +onlyGivenNames v6
      clear_value v6
      extract_lets +onlyGivenNames s7
      have hs7 : Tidy q none (s7) := by
        unfold s7
        refine Tidy.upd (s := s) ?_ rfl rfl rfl rfl
        assumption
      clear_value s7
      refine ovlSwitch_tidy _ _ _ _ ?_
      refine ovlSync_tidy _ ?_
      assumption

/-! ### Time -/

theorem timEnter_tidy : ∀ s st, Tidy q m s → Tidy q m (@State.timEnter s st) := by
  intro s st h0_
  unfold State.timEnter
  extract_lets +onlyGivenNames v0 s1 v2
  clear_value v0
  have hs1 : Tidy q m (s1) := by
    unfold s1
    refine setFld_tidy _ _ _ _ ?_
    assumption
  clear_value s1
  clear_value v2
  extract_lets +onlyGivenNames s3
  have hs3 : Tidy q m (s3) := by
    unfold s3
    refine Tidy.ite ?_ ?_
    · refine Tidy.upd (s := s1) ?_ rfl rfl rfl rfl
      assumption
    · assumption
  clear_value s3
  split
  · rename_i b4
    refine Tidy.upd (s := s3) ?_ rfl rfl rfl rfl
    assumption
  · rename_i b5
    refine setReg_tidy _ _ _ ?_
    extract_lets +onlyGivenNames s6
    have hs6 : Tidy q m (s6) := by
      unfold s6
      refine setBit_tidy _ _ _ _ ?_
      assumption
    clear_value s6
    refine Tidy.upd (s := s6) ?_ rfl rfl rfl rfl
    assumption
  · rename_i b7
    extract_lets +onlyGivenNames s8
    have hs8 : Tidy q m (s8) := by
      unfold s8
      refine setBit_tidy _ _ _ _ ?_
      refine setBit_tidy _ _ _ _ ?_
      assumption
    clear_value s8
    refine raise_tidy _ _ _ ?_
    refine Tidy.upd (s := s8) ?_ rfl rfl rfl rfl
    assumption
  · rename_i b9 b10 b11 b12
    extract_lets +onlyGivenNames v13 s14
    clear_value v13
    have hs14 : Tidy q m (s14) := by
      unfold s14
      refine Tidy.upd (s := s3) ?_ rfl rfl rfl rfl
      assumption
    clear_value s14
    extract_lets +onlyGivenNames s15
    have hs15 : Tidy q m (s15) := by
      unfold s15
      refine raise_tidy _ _ _ ?_
      refine setReg_tidy _ _ _ ?_
      assumption
    clear_value s15
    refine Tidy.ite ?_ ?_
    · refine raise_tidy _ _ _ ?_
      refine setBit_tidy _ _ _ _ ?_
      assumption
    · assumption

theorem useSource_tidy : ∀ s k, Tidy q m s → Tidy q m (@State.useSource s k) := by
  intro s k h0_
  unfold State.useSource
  refine Tidy.ite ?_ ?_
  · assumption
  · refine raise_tidy _ _ _ ?_
    refine setFld_tidy _ _ _ _ ?_
    assumption

theorem acquire_tidy : ∀ s k, Tidy q m s → Tidy q m (@State.acquire s k) := by
  intro s k h0_
  unfold State.acquire
  refine timEnter_tidy _ _ ?_
  refine useSource_tidy _ _ ?_
  assumption

theorem setUtcOffset_tidy : ∀ s v, Tidy q m s → Tidy q m (@State.setUtcOffset s v) := by
  intro s v h0_
  unfold State.setUtcOffset
  refine Tidy.ite ?_ ?_
  · assumption
  · refine almRearm_tidy _ ?_
    refine raise_tidy _ _ _ ?_
    refine setFld_tidy _ _ _ _ ?_
    assumption

theorem announceUtc_tidy : ∀ s x1, Tidy q m s → Tidy q m (@State.announceUtc s x1) := by
  intro s x1 h0_
  unfold State.announceUtc
  refine Tidy.ite ?_ ?_
  · assumption
  · extract_lets +onlyGivenNames s0 v1 v2
    have hs0 : Tidy q m (s0) := by
      unfold s0
      refine setUtcOffset_tidy _ _ ?_
      refine setBit_tidy _ _ _ _ ?_
      refine setBit_tidy _ _ _ _ ?_
      refine setBit_tidy _ _ _ _ ?_
      assumption
    clear_value s0
    clear_value v1
    clear_value v2
    refine Tidy.upd (s := s0) ?_ rfl rfl rfl rfl
    assumption

theorem capShift_tidy : ∀ s d, Tidy q m s → Tidy q m (@State.capShift s d) := by
  intro s d h0_
  unfold State.capShift
  refine forEach_tidy _ _ _ _ ?_ ?_
  · assumption
  · intro a0 a1 a2
    extract_lets +onlyGivenNames v3 v4
    clear_value v3
    clear_value v4
    refine setCapPlan_tidy _ _ _ ?_
    assumption

theorem loopRearm_tidy : ∀ s, Tidy q m s → Tidy q m (@State.loopRearm s) := by
  intro s h0_
  unfold State.loopRearm
  refine forEach_tidy _ _ _ _ ?_ ?_
  · assumption
  · intro a0 a1 a2
    refine Tidy.ite ?_ ?_
    · refine setLoopB_tidy _ _ _ ?_
      assumption
    · assumption

theorem srcSeen_tidy : ∀ s k, Tidy q m s → Tidy q m (@State.srcSeen s k) := by
  intro s k h0_
  unfold State.srcSeen
  extract_lets +onlyGivenNames v0
  clear_value v0
  extract_lets +onlyGivenNames s1
  have hs1 : Tidy q m (s1) := by
    unfold s1
    refine Tidy.upd (s := s) ?_ rfl rfl rfl rfl
    assumption
  clear_value s1
  refine Tidy.ite ?_ ?_
  · refine acquire_tidy _ _ ?_
    assumption
  · assumption

theorem srcGone_tidy : ∀ s k, Tidy q m s → Tidy q m (@State.srcGone s k) := by
  intro s k h0_
  unfold State.srcGone
  extract_lets +onlyGivenNames v0
  clear_value v0
  extract_lets +onlyGivenNames s1
  have hs1 : Tidy q m (s1) := by
    unfold s1
    refine Tidy.upd (s := s) ?_ rfl rfl rfl rfl
    assumption
  clear_value s1
  refine Tidy.ite ?_ ?_
  · assumption
  · extract_lets +onlyGivenNames s2 s3 v4
    have hs2 : Tidy q m (s2) := by
      unfold s2
      refine incSat_tidy _ _ _ _ _ ?_
      assumption
    clear_value s2
    have hs3 : Tidy q m (s3) := by
      unfold s3
      refine Tidy.ite ?_ ?_
      · refine timEnter_tidy _ _ ?_
        assumption
      · refine Tidy.ite ?_ ?_
        · assumption
        · refine timEnter_tidy _ _ ?_
          assumption
    clear_value s3
    clear_value v4
    refine Tidy.ite ?_ ?_
    · refine useSource_tidy _ _ ?_
      assumption
    · refine acquire_tidy _ _ ?_
      assumption

theorem selectGm_tidy : ∀ s x1, Tidy q m s → Tidy q m (@State.selectGm s x1) := by
  intro s x1 h0_
  unfold State.selectGm
  extract_lets +onlyGivenNames v0 s1 v2 v3 s4
  clear_value v0
  have hs1 : Tidy q m (s1) := by
    unfold s1
    refine Tidy.upd (s := s) ?_ rfl rfl rfl rfl
    assumption
  clear_value s1
  clear_value v3
  have hs4 : Tidy q m (s4) := by
    unfold s4
    refine setFld_tidy _ _ _ _ ?_
    refine setReg64_tidy _ _ _ _ ?_
    assumption
  clear_value s4
  refine setReg_tidy _ _ _ ?_
  refine Tidy.ite ?_ ?_
  · refine raise_tidy _ _ _ ?_
    assumption
  · assumption

theorem changePort_tidy : ∀ s x, Tidy q m s → Tidy q m (@State.changePort s x) := by
  intro s x h0_
  unfold State.changePort
  extract_lets +onlyGivenNames s1
  have hs1 : Tidy q m (s1) := by
    unfold s1
    refine selectGm_tidy _ _ ?_
    assumption
  clear_value s1
  refine Tidy.upd (s := s1) ?_ rfl rfl rfl rfl
  assumption

theorem srcLost_tidy : ∀ s k, Tidy q m s → Tidy q m (@State.srcLost s k) := by
  intro s k h0_
  unfold State.srcLost
  refine Tidy.ite ?_ ?_
  · split
    · refine changePort_tidy _ _ ?_
      assumption
    · refine srcGone_tidy _ _ ?_
      assumption
  · refine srcGone_tidy _ _ ?_
    assumption

theorem svShift_tidy : ∀ s d, Tidy q m s → Tidy q m (@State.svShift s d) := by
  intro s d h0_
  unfold State.svShift
  refine forEach_tidy _ _ _ _ ?_ ?_
  · assumption
  · intro a0 a1 a2
    split
    · rename_i b3 b4 b5
      extract_lets +onlyGivenNames v6
      clear_value v6
      refine Tidy.upd (s := a1) ?_ rfl rfl rfl rfl
      assumption
    · rename_i b7 b8
      assumption

theorem timeStep_tidy : ∀ s n, Tidy q none s → Tidy q none (@State.timeStep s n) := by
  intro s n h0_
  unfold State.timeStep
  extract_lets +onlyGivenNames v0 s1 s2 s3 s4
  clear_value v0
  have hs1 : Tidy q none (s1) := by
    unfold s1
    refine Tidy.upd (s := s) ?_ rfl rfl rfl rfl
    assumption
  clear_value s1
  have hs2 : Tidy q none (s2) := by
    unfold s2
    refine incSat_tidy _ _ _ _ _ ?_
    refine setReg_tidy _ _ _ ?_
    assumption
  clear_value s2
  have hs3 : Tidy q none (s3) := by
    unfold s3
    refine note_tidy _ _ _ ?_
    refine raise_tidy _ _ _ ?_
    assumption
  clear_value s3
  have hs4 : Tidy q none (s4) := by
    unfold s4
    refine closeCancel_tidy _ ?_
    assumption
  clear_value s4
  extract_lets +onlyGivenNames s5
  have hs5 : Tidy q none (s5) := by
    unfold s5
    refine Tidy.ite ?_ ?_
    · refine pealStep_tidy _ ?_
      assumption
    · assumption
  clear_value s5
  extract_lets +onlyGivenNames s6
  have hs6 : Tidy q none (s6) := by
    unfold s6
    refine forEach_tidy _ _ _ _ ?_ ?_
    · refine capShift_tidy _ _ ?_
      refine svShift_tidy _ _ ?_
      assumption
    · intro a7 a8 a9
      refine doOverlayTakeEffect_tidy _ ?_
      assumption
  clear_value s6
  refine almStep_tidy _ _ ?_
  refine hankRearm_tidy _ ?_
  refine loopRearm_tidy _ ?_
  refine heddleArm_tidy _ ?_
  refine applyDue_tidy _ ?_
  assumption

theorem servo_tidy : ∀ s ofs, Tidy q none s → Tidy q none (@State.servo s ofs) := by
  intro s ofs h0_
  unfold State.servo
  extract_lets +onlyGivenNames s0 v1
  have hs0 : Tidy q none (s0) := by
    unfold s0
    refine setReg_tidy _ _ _ ?_
    assumption
  clear_value s0
  clear_value v1
  refine Tidy.ite ?_ ?_
  · extract_lets +onlyGivenNames v2
    clear_value v2
    extract_lets +onlyGivenNames s3
    have hs3 : Tidy q none (s3) := by
      unfold s3
      refine Tidy.upd (s := s0) ?_ rfl rfl rfl rfl
      assumption
    clear_value s3
    refine Tidy.ite ?_ ?_
    · refine srcLost_tidy _ _ ?_
      assumption
    · assumption
  · extract_lets +onlyGivenNames v4 v5 s6 v7
    clear_value v4
    have hs6 : Tidy q none (s6) := by
      unfold s6
      refine Tidy.ite ?_ ?_
      · refine timeStep_tidy _ _ ?_
        assumption
      · assumption
    clear_value s6
    clear_value v7
    have h8 : Tidy q none (s6.nextFree).2 := by
      refine nextFree_tidy _ ?_
      assumption
    split
    rename_i b9 b10 b11 b12
    have e13 : Tidy q none b11 := by rw [b12] at h8; exact h8
    extract_lets +onlyGivenNames v14
    clear_value v14
    extract_lets +onlyGivenNames s15
    have hs15 : Tidy q none (s15) := by
      unfold s15
      refine Tidy.upd (s := b11) ?_ rfl rfl rfl rfl
      assumption
    clear_value s15
    refine Tidy.ite ?_ ?_
    · refine timEnter_tidy _ _ ?_
      assumption
    · assumption

theorem measured_tidy : ∀ s k ofs, Tidy q none s → Tidy q none (@State.measured s k ofs) := by
  intro s k ofs h0_
  unfold State.measured
  refine Tidy.ite ?_ ?_
  · assumption
  · extract_lets +onlyGivenNames s0
    have hs0 : Tidy q none (s0) := by
      unfold s0
      refine srcSeen_tidy _ _ ?_
      assumption
    clear_value s0
    refine Tidy.ite ?_ ?_
    · refine servo_tidy _ _ ?_
      assumption
    · assumption

theorem doHoldoverExpire_tidy : ∀ s, Tidy q m s → Tidy q m (@doHoldoverExpire s) := by
  intro s h0_
  unfold doHoldoverExpire
  refine Tidy.ite ?_ ?_
  · assumption
  · refine raise_tidy _ _ _ ?_
    refine setBit_tidy _ _ _ _ ?_
    assumption

theorem doIrigbFrame_tidy : ∀ offset s, Tidy q none s → Tidy q none (@doIrigbFrame offset s) := by
  intro offset s h0_
  unfold doIrigbFrame
  refine measured_tidy _ _ _ ?_
  assumption

theorem doLeapSecond_tidy : ∀ s, Tidy q m s → Tidy q m (@doLeapSecond s) := by
  intro s h0_
  unfold doLeapSecond
  split
  · rename_i b0 b1
    assumption
  · rename_i b2 b3 b4
    refine Tidy.ite ?_ ?_
    · assumption
    · extract_lets +onlyGivenNames s5 s6
      have hs5 : Tidy q m (s5) := by
        unfold s5
        refine setUtcOffset_tidy _ _ ?_
        assumption
      clear_value s5
      have hs6 : Tidy q m (s6) := by
        unfold s6
        refine setBit_tidy _ _ _ _ ?_
        refine setBit_tidy _ _ _ _ ?_
        assumption
      clear_value s6
      refine Tidy.upd (s := s6) ?_ rfl rfl rfl rfl
      assumption

theorem doPpsEdge_tidy : ∀ s, Tidy q none s → Tidy q none (@doPpsEdge s) := by
  intro s h0_
  unfold doPpsEdge
  extract_lets +onlyGivenNames v0 v1
  clear_value v0
  clear_value v1
  refine measured_tidy _ _ _ ?_
  assumption

theorem doPtpAnnounceReceive_tidy : ∀ port x1 s, Tidy q m s → Tidy q m (@doPtpAnnounceReceive port x1 s) := by
  intro port x1 s h0_
  unfold doPtpAnnounceReceive
  refine Tidy.ite ?_ ?_
  · assumption
  · extract_lets +onlyGivenNames v0 v1 v2 w3 s3 v4
    clear_value v0 v1 v2 w3 v4
    have hs3 : Tidy q m (s3) := by
      unfold s3
      refine Tidy.ite ?_ ?_
      · refine Tidy.upd (s := s) ?_ rfl rfl rfl rfl
        assumption
      · assumption
    clear_value s3
    refine Tidy.ite ?_ ?_
    · refine Tidy.ite ?_ ?_
      · refine srcLost_tidy _ _ ?_
        refine Tidy.upd (s := s) ?_ rfl rfl rfl rfl
        assumption
      · assumption
    · extract_lets +onlyGivenNames v5
      clear_value v5
      refine Tidy.ite ?_ ?_
      · refine Tidy.ite ?_ ?_
        · assumption
        · refine Tidy.upd (s := s) ?_ rfl rfl rfl rfl
          assumption
      · extract_lets +onlyGivenNames s6
        have hs6 : Tidy q m (s6) := by
          unfold s6
          refine announceUtc_tidy _ _ ?_
          refine selectGm_tidy _ _ ?_
          assumption
        clear_value s6
        refine Tidy.upd (s := s6) ?_ rfl rfl rfl rfl
        assumption

theorem doPtpAnnounceTimeout_tidy : ∀ s, Tidy q m s → Tidy q m (@doPtpAnnounceTimeout s) := by
  intro s h0_
  unfold doPtpAnnounceTimeout
  split
  · rename_i b0 b1
    assumption
  · rename_i b2 b3 b4
    refine Tidy.ite ?_ ?_
    · assumption
    · refine srcLost_tidy _ _ ?_
      refine Tidy.upd (s := s) ?_ rfl rfl rfl rfl
      assumption

theorem doPtpFollowUpReceive_tidy : ∀ port seq offset s, Tidy q none s → Tidy q none (@doPtpFollowUpReceive port seq offset s) := by
  intro port seq offset s h0_
  unfold doPtpFollowUpReceive
  split
  · rename_i b0 b1 b2
    refine Tidy.ite ?_ ?_
    · refine measured_tidy _ _ _ ?_
      refine Tidy.upd (s := s) ?_ rfl rfl rfl rfl
      assumption
    · assumption
  · rename_i b3 b4
    assumption

theorem doPtpPdelayReqReceive_tidy : ∀ port seq s, Tidy q m s → Tidy q m (@doPtpPdelayReqReceive port seq s) := by
  intro port seq s h0_
  unfold doPtpPdelayReqReceive
  refine Tidy.ite ?_ ?_
  · assumption
  · extract_lets +onlyGivenNames v0
    clear_value v0
    refine enqueue_tidy _ _ _ ?_
    refine enqueue_tidy _ _ _ ?_
    assumption

theorem doPtpPdelayReqSend_tidy : ∀ s, Tidy q m s → Tidy q m (@doPtpPdelayReqSend s) := by
  intro s h0_
  unfold doPtpPdelayReqSend
  extract_lets +onlyGivenNames v0 v1
  clear_value v0
  clear_value v1
  refine Tidy.ite ?_ ?_
  · assumption
  · extract_lets +onlyGivenNames v2
    clear_value v2
    refine forEach_tidy _ _ _ _ ?_ ?_
    · refine Tidy.upd (s := s) ?_ rfl rfl rfl rfl
      assumption
    · intro a3 a4 a5
      refine enqueue_tidy _ _ _ ?_
      assumption

theorem doPtpPdelayRespReceive_tidy : ∀ port delay s, Tidy q m s → Tidy q m (@doPtpPdelayRespReceive port delay s) := by
  intro port delay s h0_
  unfold doPtpPdelayRespReceive
  refine Tidy.ite ?_ ?_
  · assumption
  · extract_lets +onlyGivenNames v0
    clear_value v0
    refine setReg_tidy _ _ _ ?_
    refine Tidy.upd (s := s) ?_ rfl rfl rfl rfl
    assumption

theorem doPtpSyncReceive_tidy : ∀ port x1 s, Tidy q none s → Tidy q none (@doPtpSyncReceive port x1 s) := by
  intro port x1 s h0_
  unfold doPtpSyncReceive
  refine Tidy.ite ?_ ?_
  · assumption
  · refine Tidy.ite ?_ ?_
    · refine Tidy.upd (s := s) ?_ rfl rfl rfl rfl
      assumption
    · refine measured_tidy _ _ _ ?_
      assumption

theorem doSecondBoundary_tidy : ∀ s, Tidy q m s → Tidy q m (@doSecondBoundary s) := by
  intro s h0_
  unfold doSecondBoundary
  extract_lets +onlyGivenNames v0
  clear_value v0
  refine Tidy.ite ?_ ?_
  · assumption
  · extract_lets +onlyGivenNames v1 v2
    clear_value v1
    clear_value v2
    refine Tidy.upd (s := s) ?_ rfl rfl rfl rfl
    assumption

theorem doSourceSwitch_tidy : ∀ src s, Tidy q m s → Tidy q m (@doSourceSwitch src s) := by
  intro src s h0_
  unfold doSourceSwitch
  split
  · rename_i b0 b1
    assumption
  · rename_i b2 b3 b4
    refine Tidy.ite ?_ ?_
    · assumption
    · refine acquire_tidy _ _ ?_
      assumption

theorem doTimeSourceLoss_tidy : ∀ src s, Tidy q m s → Tidy q m (@doTimeSourceLoss src s) := by
  intro src s h0_
  unfold doTimeSourceLoss
  refine Tidy.ite ?_ ?_
  · refine srcLost_tidy _ _ ?_
    assumption
  · assumption

/-! ### Twin -/

theorem sendIdentity_tidy : ∀ s, Tidy q m s → Tidy q m (@State.sendIdentity s) := by
  intro s h0_
  unfold State.sendIdentity
  refine Tidy.ite ?_ ?_
  · assumption
  · refine plySend_tidy _ _ ?_
    assumption

theorem setRole_tidy : ∀ s r, Tidy q none s → Tidy q none (@State.setRole s r) := by
  intro s r h0_
  unfold State.setRole
  refine Tidy.ite ?_ ?_
  · assumption
  · extract_lets +onlyGivenNames s0 s1 s2
    have hs0 : Tidy q none (s0) := by
      unfold s0
      refine raise_tidy _ _ _ ?_
      refine setFld_tidy _ _ _ _ ?_
      assumption
    clear_value s0
    have hs1 : Tidy q none (s1) := by
      unfold s1
      refine drivePins_tidy _ ?_
      refine spnTwin_tidy _ ?_
      refine netActive_tidy _ ?_
      refine gateGout_tidy _ ?_
      assumption
    clear_value s1
    have hs2 : Tidy q none (s2) := by
      unfold s2
      refine Tidy.ite ?_ ?_
      · refine stopLogic_tidy _ ?_
        assumption
      · assumption
    clear_value s2
    refine sendIdentity_tidy _ ?_
    assumption

theorem becomeFollower_tidy : ∀ s, Tidy q none s → Tidy q none (@State.becomeFollower s) := by
  intro s h0_
  unfold State.becomeFollower
  extract_lets +onlyGivenNames v0
  clear_value v0
  extract_lets +onlyGivenNames s1
  have hs1 : Tidy q none (s1) := by
    unfold s1
    refine Tidy.upd (s := s) ?_ rfl rfl rfl rfl
    assumption
  clear_value s1
  refine raise_tidy _ _ _ ?_
  refine setRole_tidy _ _ ?_
  refine setBit_tidy _ _ _ _ ?_
  refine setFld_tidy _ _ _ _ ?_
  assumption

theorem shadowCheck_tidy : ∀ s, Tidy q none s → Tidy q none (@State.shadowCheck s) := by
  intro s h0_
  unfold State.shadowCheck
  refine Tidy.ite ?_ ?_
  · refine becomeFollower_tidy _ ?_
    assumption
  · assumption

theorem agree_tidy : ∀ s b own peer, Tidy q none s → Tidy q none (@State.agree s b own peer) := by
  intro s b own peer h0_
  unfold State.agree
  refine Tidy.ite ?_ ?_
  · assumption
  · refine Tidy.ite ?_ ?_
    · refine shadowCheck_tidy _ ?_
      refine setFld_tidy _ _ _ _ ?_
      assumption
    · extract_lets +onlyGivenNames s0
      have hs0 : Tidy q none (s0) := by
        unfold s0
        refine incSat_tidy _ _ _ _ _ ?_
        refine setFld_tidy _ _ _ _ ?_
        assumption
      clear_value s0
      refine Tidy.ite ?_ ?_
      · refine raiseLim_tidy _ _ _ _ ?_
        assumption
      · assumption

theorem putRegs_tidy : ∀ s p l, Tidy q m s → Tidy q m (@State.putRegs s p l) := by
  intro s p l h0_
  unfold State.putRegs
  extract_lets +onlyGivenNames s0
  have hs0 : Tidy q m (s0) := by
    unfold s0
    refine forEach_tidy _ _ _ _ ?_ ?_
    · assumption
    · intro a1 a2 a3
      refine setReg_tidy _ _ _ ?_
      assumption
  clear_value s0
  refine forEach_tidy _ _ _ _ ?_ ?_
  · assumption
  · intro a4 a5 a6
    refine setReg_tidy _ _ _ ?_
    assumption

theorem putForce_tidy : ∀ s l, Tidy q none s → Tidy q none (@State.putForce s l) := by
  intro s l h0_
  unfold State.putForce
  extract_lets +onlyGivenNames s0 s1
  have hs0 : Tidy q none (s0) := by
    unfold s0
    refine putRegs_tidy _ _ _ ?_
    assumption
  clear_value s0
  have hs1 : Tidy q none (s1) := by
    unfold s1
    refine forEach_tidy _ _ _ _ ?_ ?_
    · assumption
    · intro a2 a3 a4
      refine Tidy.ite ?_ ?_
      · refine forceQ_tidy _ _ ?_
        assumption
      · assumption
  clear_value s1
  refine forceSync_tidy _ ?_
  assumption

theorem putMotor_tidy : ∀ s b c, Tidy q m s → Tidy q m (@State.putMotor s b c) := by
  intro s b c h0_
  unfold State.putMotor
  extract_lets +onlyGivenNames v0 s1
  clear_value v0
  have hs1 : Tidy q m (s1) := by
    unfold s1
    refine setMotor_tidy _ _ _ ?_
    assumption
  clear_value s1
  extract_lets +onlyGivenNames s2
  have hs2 : Tidy q m (s2) := by
    unfold s2
    refine setReg_tidy _ _ _ ?_
    assumption
  clear_value s2
  split
  · rename_i b3 b4 b5
    refine motorSync_tidy _ _ _ ?_
    assumption
  · rename_i b6 b7
    assumption

theorem putMem_tidy : ∀ s p l, Tidy q none s → Tidy q none (@State.putMem s p l) := by
  intro s p l h
  unfold State.putMem
  extract_lets s0
  have h0 : Tidy q none s0 := Tidy.filterMem (s := s) _ h rfl rfl rfl rfl
  exact forEach_tidy _ _ _ _ h0 (fun x t ht => setOctet_tidy _ _ _ ht)

theorem putPubNums_tidy : ∀ s g st sq, Tidy q m s → Tidy q m (@State.putPubNums s g st sq) := by
  intro s g st sq h0_
  unfold State.putPubNums
  refine setReg_tidy _ _ _ ?_
  refine setReg_tidy _ _ _ ?_
  refine setPub_tidy _ _ _ ?_
  assumption

theorem applyCopy_tidy : ∀ s c, Tidy q none s → Tidy q none (@State.applyCopy s c) := by
  intro s c h0_
  unfold State.applyCopy
  extract_lets +onlyGivenNames s0 v1 s2 s3 s4 s5 s6 v7 v8 s9
  have hs0 : Tidy q none (s0) := by
    unfold s0
    refine putMem_tidy _ _ _ ?_
    refine putMem_tidy _ _ _ ?_
    assumption
  clear_value s0
  clear_value v1
  have hs2 : Tidy q none (s2) := by
    unfold s2
    refine Tidy.upd (s := s0) ?_ rfl rfl rfl rfl
    assumption
  clear_value s2
  have hs3 : Tidy q none (s3) := by
    unfold s3
    refine putRegs_tidy _ _ _ ?_
    refine putForce_tidy _ _ ?_
    refine putOnline_tidy _ _ ?_
    assumption
  clear_value s3
  have hs4 : Tidy q none (s4) := by
    unfold s4
    refine Tidy.ite ?_ ?_
    · refine runLogic_tidy _ ?_
      assumption
    · refine stopLogic_tidy _ ?_
      assumption
  clear_value s4
  have hs5 : Tidy q none (s5) := by
    unfold s5
    refine setReg_tidy _ _ _ ?_
    refine ovlSwitch_tidy _ _ _ _ ?_
    assumption
  clear_value s5
  have hs6 : Tidy q none (s6) := by
    unfold s6
    refine forEach_tidy _ _ _ _ ?_ ?_
    · assumption
    · intro a10 a11 a12
      refine putMotor_tidy _ _ _ ?_
      assumption
  clear_value s6
  clear_value v7
  clear_value v8
  have hs9 : Tidy q none (s9) := by
    unfold s9
    refine Tidy.upd (s := s6) ?_ rfl rfl rfl rfl
    assumption
  clear_value s9
  extract_lets +onlyGivenNames s13 s14 s15
  have hs13 : Tidy q none (s13) := by
    unfold s13
    refine forEach_tidy _ _ _ _ ?_ ?_
    · assumption
    · intro a16 a17 a18
      refine putPubNums_tidy _ _ _ _ ?_
      assumption
  clear_value s13
  have hs14 : Tidy q none (s14) := by
    unfold s14
    refine forEach_tidy _ _ _ _ ?_ ?_
    · refine forEach_tidy _ _ _ _ ?_ ?_
      · assumption
      · intro a19 a20 a21
        refine setReg_tidy _ _ _ ?_
        assumption
    · intro a22 a23 a24
      refine setReg_tidy _ _ _ ?_
      assumption
  clear_value s14
  have hs15 : Tidy q none (s15) := by
    unfold s15
    refine forEach_tidy _ _ _ _ ?_ ?_
    · assumption
    · intro a25 a26 a27
      refine setBayChain_tidy _ _ _ ?_
      assumption
  clear_value s15
  refine forEach_tidy _ _ _ _ ?_ ?_
  · assumption
  · intro a28 a29 a30
    refine setBayChain_tidy _ _ _ ?_
    assumption

theorem gateSync_tidy : ∀ s, Tidy q m s → Tidy q m (@State.gateSync s) := by
  intro s h0_
  unfold State.gateSync
  refine gateGout_tidy _ ?_
  refine setBit_tidy _ _ _ _ ?_
  assumption

theorem startClaim_tidy : ∀ s, Tidy q m s → Tidy q m (@State.startClaim s) := by
  intro s h0_
  unfold State.startClaim
  extract_lets +onlyGivenNames v0
  clear_value v0
  extract_lets +onlyGivenNames s1
  have hs1 : Tidy q m (s1) := by
    unfold s1
    refine Tidy.upd (s := s) ?_ rfl rfl rfl rfl
    assumption
  clear_value s1
  refine gateSync_tidy _ ?_
  refine setBit_tidy _ _ _ _ ?_
  assumption

theorem hankTakeover_tidy : ∀ s fresh, Tidy q none s → Tidy q none (@State.hankTakeover s fresh) := by
  intro s fresh h0_
  unfold State.hankTakeover
  refine forEach_tidy _ _ _ _ ?_ ?_
  · assumption
  · intro a0 a1 a2
    refine Tidy.ite ?_ ?_
    · assumption
    · refine Tidy.ite ?_ ?_
      · refine setMod_tidy _ _ _ ?_
        assumption
      · refine hankJoin_tidy _ _ ?_
        assumption

theorem gooseTakeover_tidy : ∀ s fresh, Tidy q m s → Tidy q m (@State.gooseTakeover s fresh) := by
  intro s fresh h0_
  unfold State.gooseTakeover
  refine forEach_tidy _ _ _ _ ?_ ?_
  · assumption
  · intro a0 a1 a2
    split
    · rename_i b3 b4
      assumption
    · rename_i b5 b6 b7
      extract_lets +onlyGivenNames v8
      clear_value v8
      refine Tidy.ite ?_ ?_
      · assumption
      · extract_lets +onlyGivenNames v9
        clear_value v9
        refine Tidy.ite ?_ ?_
        · refine newState_tidy _ _ _ _ ?_
          assumption
        · refine setPub_tidy _ _ _ ?_
          assumption

theorem becomeActor_tidy : ∀ s, Tidy q none s → Tidy q none (@State.becomeActor s) := by
  intro s h0_
  unfold State.becomeActor
  extract_lets +onlyGivenNames v0 s1 s2 v3
  clear_value v0
  have hs1 : Tidy q none (s1) := by
    unfold s1
    refine setBit_tidy _ _ _ _ ?_
    refine setBit_tidy _ _ _ _ ?_
    refine setFld_tidy _ _ _ _ ?_
    assumption
  clear_value s1
  have hs2 : Tidy q none (s2) := by
    unfold s2
    refine setRole_tidy _ _ ?_
    refine startClaim_tidy _ ?_
    assumption
  clear_value s2
  clear_value v3
  extract_lets +onlyGivenNames s4
  have hs4 : Tidy q none (s4) := by
    unfold s4
    refine Tidy.ite ?_ ?_
    · refine Tidy.upd (s := s2) ?_ rfl rfl rfl rfl
      assumption
    · assumption
  clear_value s4
  refine hankTakeover_tidy _ _ ?_
  refine gooseTakeover_tidy _ _ ?_
  assumption

theorem stopClaim_tidy : ∀ s, Tidy q m s → Tidy q m (@State.stopClaim s) := by
  intro s h0_
  unfold State.stopClaim
  extract_lets +onlyGivenNames v0
  clear_value v0
  extract_lets +onlyGivenNames s1
  have hs1 : Tidy q m (s1) := by
    unfold s1
    refine Tidy.upd (s := s) ?_ rfl rfl rfl rfl
    assumption
  clear_value s1
  refine gateSync_tidy _ ?_
  refine setBit_tidy _ _ _ _ ?_
  assumption

theorem putMerged_tidy : ∀ s bits, Tidy q m s → Tidy q m (@State.putMerged s bits) := by
  intro s bits h0_
  unfold State.putMerged
  refine Tidy.upd (s := s) ?_ rfl rfl rfl rfl
  assumption

theorem sendResults_tidy : ∀ s b n bits, Tidy q m s → Tidy q m (@State.sendResults s b n bits) := by
  intro s b n bits h0_
  unfold State.sendResults
  refine Tidy.ite ?_ ?_
  · assumption
  · refine plySend_tidy _ _ ?_
    assumption

theorem mergeNow_tidy : ∀ s b wait own peer, Tidy q none s → Tidy q none (@State.mergeNow s b wait own peer) := by
  intro s b wait own peer h0_
  unfold State.mergeNow
  extract_lets +onlyGivenNames v0 s1
  clear_value v0
  have hs1 : Tidy q none (s1) := by
    unfold s1
    refine Tidy.upd (s := s) ?_ rfl rfl rfl rfl
    assumption
  clear_value s1
  extract_lets +onlyGivenNames s2
  have hs2 : Tidy q none (s2) := by
    unfold s2
    refine setFld_tidy _ _ _ _ ?_
    refine putMerged_tidy _ _ ?_
    assumption
  clear_value s2
  refine agree_tidy _ _ _ _ ?_
  refine setFld_tidy _ _ _ _ ?_
  assumption

theorem publish_tidy : ∀ s b n bits, Tidy q none s → Tidy q none (@State.publish s b n bits) := by
  intro s b n bits h0_
  unfold State.publish
  extract_lets +onlyGivenNames v0
  clear_value v0
  extract_lets +onlyGivenNames s1
  have hs1 : Tidy q none (s1) := by
    unfold s1
    refine Tidy.upd (s := s) ?_ rfl rfl rfl rfl
    assumption
  clear_value s1
  refine Tidy.ite ?_ ?_
  · refine putMerged_tidy _ _ ?_
    assumption
  · extract_lets +onlyGivenNames s2 v3
    have hs2 : Tidy q none (s2) := by
      unfold s2
      refine sendResults_tidy _ _ _ _ ?_
      assumption
    clear_value s2
    clear_value v3
    extract_lets +onlyGivenNames s4
    have hs4 : Tidy q none (s4) := by
      unfold s4
      refine Tidy.ite ?_ ?_
      · refine Tidy.upd (s := s2) ?_ rfl rfl rfl rfl
        assumption
      · assumption
    clear_value s4
    refine Tidy.ite ?_ ?_
    · refine putMerged_tidy _ _ ?_
      assumption
    · split
      · rename_i b5 b6 b7
        extract_lets +onlyGivenNames v8
        clear_value v8
        extract_lets +onlyGivenNames s9
        have hs9 : Tidy q none (s9) := by
          unfold s9
          refine Tidy.upd (s := s4) ?_ rfl rfl rfl rfl
          assumption
        clear_value s9
        refine Tidy.ite ?_ ?_
        · refine mergeNow_tidy _ _ _ _ _ ?_
          assumption
        · refine Tidy.upd (s := s9) ?_ rfl rfl rfl rfl
          assumption
      · rename_i b10 b11
        refine Tidy.upd (s := s4) ?_ rfl rfl rfl rfl
        assumption

theorem startJoin_tidy : ∀ s, Tidy q none s → Tidy q none (@State.startJoin s) := by
  intro s h0_
  unfold State.startJoin
  extract_lets +onlyGivenNames v0 s1 s2
  clear_value v0
  have hs1 : Tidy q none (s1) := by
    unfold s1
    refine Tidy.upd (s := s) ?_ rfl rfl rfl rfl
    assumption
  clear_value s1
  have hs2 : Tidy q none (s2) := by
    unfold s2
    refine setBit_tidy _ _ _ _ ?_
    refine setBit_tidy _ _ _ _ ?_
    refine setBit_tidy _ _ _ _ ?_
    refine setFld_tidy _ _ _ _ ?_
    assumption
  clear_value s2
  extract_lets +onlyGivenNames s3
  have hs3 : Tidy q none (s3) := by
    unfold s3
    refine forEach_tidy _ _ _ _ ?_ ?_
    · refine setBit_tidy _ _ _ _ ?_
      assumption
    · intro a4 a5 a6
      refine setFld_tidy _ _ _ _ ?_
      refine setFld_tidy _ _ _ _ ?_
      assumption
  clear_value s3
  refine Tidy.ite ?_ ?_
  · refine sendIdentity_tidy _ ?_
    assumption
  · refine setRole_tidy _ _ ?_
    assumption

theorem peerLost_tidy : ∀ s, Tidy q m s → Tidy q m (@State.peerLost s) := by
  intro s h0_
  unfold State.peerLost
  refine Tidy.ite ?_ ?_
  · assumption
  · extract_lets +onlyGivenNames v0
    clear_value v0
    extract_lets +onlyGivenNames s1
    have hs1 : Tidy q m (s1) := by
      unfold s1
      refine Tidy.upd (s := s) ?_ rfl rfl rfl rfl
      assumption
    clear_value s1
    refine raise_tidy _ _ _ ?_
    assumption

theorem plyTick_tidy : ∀ s, Tidy q m s → Tidy q m (@State.plyTick s) := by
  intro s h0_
  unfold State.plyTick
  extract_lets +onlyGivenNames v0
  clear_value v0
  extract_lets +onlyGivenNames s1
  have hs1 : Tidy q m (s1) := by
    unfold s1
    refine Tidy.upd (s := s) ?_ rfl rfl rfl rfl
    assumption
  clear_value s1
  split
  · rename_i b2 b3
    assumption
  · rename_i b4 b5 b6
    refine Tidy.ite ?_ ?_
    · refine Tidy.upd (s := s1) ?_ rfl rfl rfl rfl
      assumption
    · extract_lets +onlyGivenNames v7 v8 v9
      clear_value v7
      clear_value v8
      clear_value v9
      extract_lets +onlyGivenNames s10
      have hs10 : Tidy q m (s10) := by
        unfold s10
        refine Tidy.upd (s := s1) ?_ rfl rfl rfl rfl
        assumption
      clear_value s10
      refine forEach_tidy _ _ _ _ ?_ ?_
      · assumption
      · intro a11 a12 a13
        refine plySend_tidy _ _ ?_
        assumption

theorem quarantine_tidy : ∀ s reason, Tidy q none s → Tidy q none (@State.quarantine s reason) := by
  intro s reason h0_
  unfold State.quarantine
  extract_lets +onlyGivenNames s0 s1
  have hs0 : Tidy q none (s0) := by
    unfold s0
    refine Tidy.ite ?_ ?_
    · refine stopClaim_tidy _ ?_
      assumption
    · assumption
  clear_value s0
  have hs1 : Tidy q none (s1) := by
    unfold s1
    refine setFld_tidy _ _ _ _ ?_
    refine setBit_tidy _ _ _ _ ?_
    refine setFld_tidy _ _ _ _ ?_
    refine netStop_tidy _ ?_
    assumption
  clear_value s1
  refine raise_tidy _ _ _ ?_
  refine setRole_tidy _ _ ?_
  assumption

theorem takeover_tidy : ∀ s, Tidy q none s → Tidy q none (@State.takeover s) := by
  intro s h0_
  unfold State.takeover
  extract_lets +onlyGivenNames v0 s1
  have hs1 : Tidy q none (s1) := by
    unfold s1
    refine setBit_tidy _ _ _ _ ?_
    refine incWrap_tidy _ _ _ ?_
    refine setReg64_tidy _ _ _ _ ?_
    assumption
  clear_value s1
  refine raise_tidy _ _ _ ?_
  refine becomeActor_tidy _ ?_
  assumption

/-! ### FrameStep -/

theorem evaluate_tidy : ∀ s cx ns, Tidy q none s → Tidy q none (@State.evaluate s cx ns) := by
  intro s cx ns h0_
  unfold State.evaluate
  extract_lets +onlyGivenNames v0 v1 s2 s3 s4 s5 v6 s7 s8
  clear_value v0
  clear_value v1
  have hs2 : Tidy q none (s2) := by
    unfold s2
    refine armSync_tidy _ _ ?_
    assumption
  clear_value s2
  have hs3 : Tidy q none (s3) := by
    unfold s3
    refine motorStep_tidy _ _ ?_
    assumption
  clear_value s3
  have hs4 : Tidy q none (s4) := by
    unfold s4
    refine holdDefaults_tidy _ ?_
    refine forEach_tidy _ _ _ _ ?_ ?_
    · assumption
    · intro a9 a10 a11
      refine evalInst_tidy _ _ _ ?_
      assumption
  clear_value s4
  have hs5 : Tidy q none (s5) := by
    unfold s5
    split
    · rename_i b12 b13 b14
      refine trstSync_tidy _ _ ?_
      refine motorSync_tidy _ _ _ ?_
      assumption
    · rename_i b15 b16
      assumption
  clear_value s5
  clear_value v6
  have hs7 : Tidy q none (s7) := by
    unfold s7
    refine riseEvents_tidy _ _ _ _ ?_
    refine interruptFrame_tidy _ _ _ ?_
    assumption
  clear_value s7
  have hs8 : Tidy q none (s8) := by
    unfold s8
    refine publish_tidy _ _ _ _ ?_
    refine postResults_tidy _ _ _ ?_
    refine imageBits_tidy _ _ ?_
    assumption
  clear_value s8
  refine protUp_tidy _ ?_
  refine resultTime_tidy _ _ _ _ ?_
  assumption

theorem doFrameProcess_tidy : ∀ bay resNs s, Tidy q none s → Tidy q none (@doFrameProcess bay resNs s) := by
  intro bay resNs s h0_
  unfold doFrameProcess
  extract_lets +onlyGivenNames v0 v1
  clear_value v0
  clear_value v1
  split
  · rename_i b2 b3
    assumption
  · rename_i b4 b5 b6 b7
    refine Tidy.ite ?_ ?_
    · assumption
    · extract_lets +onlyGivenNames s8 s9
      have hs8 : Tidy q none (s8) := by
        unfold s8
        refine setFld_tidy _ _ _ _ ?_
        refine setBayChain_tidy _ _ _ ?_
        assumption
      clear_value s8
      have hs9 : Tidy q none (s9) := by
        unfold s9
        refine prtBoundary_tidy _ _ _ ?_
        refine wakeFor_tidy _ _ ?_
        assumption
      clear_value s9
      have h10 : Tidy q none (s9.measure v0 b5).2 := by
        refine measure_tidy _ _ _ ?_
        assumption
      split
      rename_i b11 b12 b13 b14
      have e15 : Tidy q none b13 := by rw [b14] at h10; exact h10
      refine evaluate_tidy _ _ _ ?_
      assumption

/-! ### Ply -/

theorem admitPeer_tidy : ∀ s p, Tidy q m s → Tidy q m (@State.admitPeer s p) := by
  intro s p h0_
  unfold State.admitPeer
  extract_lets +onlyGivenNames s0 s1
  have hs0 : Tidy q m (s0) := by
    unfold s0
    refine setFld_tidy _ _ _ _ ?_
    refine setBit_tidy _ _ _ _ ?_
    assumption
  clear_value s0
  have hs1 : Tidy q m (s1) := by
    unfold s1
    refine forEach_tidy _ _ _ _ ?_ ?_
    · assumption
    · intro a2 a3 a4
      refine setReg_tidy _ _ _ ?_
      assumption
  clear_value s1
  refine Tidy.ite ?_ ?_
  · assumption
  · extract_lets +onlyGivenNames v5 v6
    clear_value v5
    clear_value v6
    extract_lets +onlyGivenNames s7
    have hs7 : Tidy q m (s7) := by
      unfold s7
      refine Tidy.upd (s := s1) ?_ rfl rfl rfl rfl
      assumption
    clear_value s7
    refine Tidy.ite ?_ ?_
    · assumption
    · refine note_tidy _ _ _ ?_
      refine raise_tidy _ _ _ ?_
      refine setBit_tidy _ _ _ _ ?_
      assumption

theorem applyChange_tidy : ∀ s a, Tidy q none s → Tidy q none (@State.applyChange s a) := by
  intro s a h0_
  unfold State.applyChange
  split
  · rename_i b0 b1 b2
    refine Tidy.ite ?_ ?_
    · refine setOctet_tidy _ _ _ ?_
      assumption
    · assumption
  · rename_i b3 b4 b5
    refine Tidy.ite ?_ ?_
    · refine putForce_tidy _ _ ?_
      assumption
    · refine setReg_tidy _ _ _ ?_
      assumption
  · rename_i b6 b7 b8
    refine putOnline_tidy _ _ ?_
    assumption
  · rename_i b9 b10
    refine ovlSwitch_tidy _ _ _ _ ?_
    assumption
  · rename_i b11 b12 b13
    refine putMotor_tidy _ _ _ ?_
    assumption
  · rename_i b14 b15 b16
    refine Tidy.upd (s := s) ?_ rfl rfl rfl rfl
    assumption
  · rename_i b17 b18
    refine Tidy.ite ?_ ?_
    · refine runLogic_tidy _ ?_
      assumption
    · refine stopLogic_tidy _ ?_
      assumption
  · rename_i b19 b20 b21 b22 b23
    extract_lets +onlyGivenNames v24 v25
    clear_value v24
    clear_value v25
    refine Tidy.ite ?_ ?_
    · refine setBayChain_tidy _ _ _ ?_
      assumption
    · refine Tidy.ite ?_ ?_
      · assumption
      · refine setBayChain_tidy _ _ _ ?_
        assumption

theorem copyCounters_tidy : ∀ s f, Tidy q m s → Tidy q m (@State.copyCounters s f) := by
  intro s f h0_
  unfold State.copyCounters
  extract_lets +onlyGivenNames v0
  clear_value v0
  extract_lets +onlyGivenNames s1
  have hs1 : Tidy q m (s1) := by
    unfold s1
    split
    · rename_i b2 b3 b4
      refine Tidy.upd (s := s) ?_ rfl rfl rfl rfl
      assumption
    · rename_i b5 b6
      assumption
  clear_value s1
  split
  · rename_i b7 b8 b9
    extract_lets +onlyGivenNames v10 v11 v12
    clear_value v10
    clear_value v11
    clear_value v12
    refine putPubNums_tidy _ _ _ _ ?_
    refine setPub_tidy _ _ _ ?_
    assumption
  · rename_i b13 b14 b15
    extract_lets +onlyGivenNames v16 v17
    clear_value v16
    clear_value v17
    refine setFld_tidy _ _ _ _ ?_
    refine setMod_tidy _ _ _ ?_
    assumption
  · rename_i b18 b19 b20
    assumption

theorem meet_tidy : ∀ s p, Tidy q none s → Tidy q none (@State.meet s p) := by
  intro s p h0_
  unfold State.meet
  refine Tidy.ite ?_ ?_
  · refine Tidy.ite ?_ ?_
    · refine Tidy.ite ?_ ?_
      · refine plySend_tidy _ _ ?_
        refine setFld_tidy _ _ _ _ ?_
        assumption
      · refine Tidy.ite ?_ ?_
        · refine becomeActor_tidy _ ?_
          assumption
        · assumption
    · assumption
  · refine Tidy.ite ?_ ?_
    · refine Tidy.ite ?_ ?_
      · refine Tidy.upd (s := s) ?_ rfl rfl rfl rfl
        assumption
      · refine Tidy.ite ?_ ?_
        · refine Tidy.ite ?_ ?_
          · refine raise_tidy _ _ _ ?_
            refine Tidy.upd (s := s) ?_ rfl rfl rfl rfl
            assumption
          · assumption
        · refine Tidy.ite ?_ ?_
          · refine startJoin_tidy _ ?_
            refine netStop_tidy _ ?_
            refine stopClaim_tidy _ ?_
            assumption
          · assumption
    · refine Tidy.ite ?_ ?_
      · refine raise_tidy _ _ _ ?_
        refine Tidy.upd (s := s) ?_ rfl rfl rfl rfl
        assumption
      · assumption

theorem relay_tidy : ∀ s f, Tidy q m s → Tidy q m (@State.relay s f) := by
  intro s f h0_
  unfold State.relay
  refine forEach_tidy _ _ _ _ ?_ ?_
  · assumption
  · intro a0 a1 a2
    refine Tidy.ite ?_ ?_
    · refine enqueue_tidy _ _ _ ?_
      assumption
    · assumption

theorem refusePairing_tidy : ∀ s r t digest sideB, Tidy q m s →
    Tidy q m (@State.refusePairing s r t digest sideB) := by
  intro s r t digest sideB h0_
  unfold State.refusePairing
  split
  · assumption
  · dsimp only
    refine Tidy.ite ?_ ?_
    · assumption
    · refine refuseObject_tidy _ _ _ ?_
      assumption

theorem turnAway_tidy : ∀ s reason, Tidy q m s → Tidy q m (@State.turnAway s reason) := by
  intro s reason h0_
  unfold State.turnAway
  refine raise_tidy _ _ _ ?_
  refine setFld_tidy _ _ _ _ ?_
  refine setBit_tidy _ _ _ _ ?_
  assumption

theorem doPeerIdentityReceive_tidy : ∀ p s, Tidy q none s → Tidy q none (@doPeerIdentityReceive p s) := by
  intro p s h0_
  unfold doPeerIdentityReceive
  refine Tidy.ite ?_ ?_
  · assumption
  · extract_lets +onlyGivenNames v0 s1
    clear_value v0
    have hs1 : Tidy q none (s1) := by
      unfold s1
      refine Tidy.upd (s := s) ?_ rfl rfl rfl rfl
      assumption
    clear_value s1
    extract_lets +onlyGivenNames s2
    have hs2 : Tidy q none (s2) := by
      unfold s2
      refine setBit_tidy _ _ _ _ ?_
      refine setFld_tidy _ _ _ _ ?_
      assumption
    clear_value s2
    split
    · rename_i b3 b4 b5 b6 b7 b8
      refine Tidy.ite ?_ ?_
      · assumption
      · refine Tidy.ite ?_ ?_
        · refine Tidy.ite ?_ ?_
          · refine quarantine_tidy _ _ ?_
            assumption
          · refine Tidy.ite ?_ ?_
            · refine quarantine_tidy _ _ ?_
              assumption
            · refine turnAway_tidy _ _ ?_
              assumption
        · refine Tidy.ite ?_ ?_
          · refine quarantine_tidy _ _ ?_
            refine refusePairing_tidy _ _ _ _ _ ?_
            assumption
          · refine Tidy.ite ?_ ?_
            · refine plySend_tidy _ _ ?_
              refine turnAway_tidy _ _ ?_
              refine refusePairing_tidy _ _ _ _ _ ?_
              assumption
            · refine Tidy.ite ?_ ?_
              · refine Tidy.ite ?_ ?_
                · refine quarantine_tidy _ _ ?_
                  assumption
                · refine turnAway_tidy _ _ ?_
                  assumption
              · refine meet_tidy _ _ ?_
                refine admitPeer_tidy _ _ ?_
                assumption
    · rename_i b9 b10 b11
      assumption

theorem doAloneTimeout_tidy : ∀ s, Tidy q none s → Tidy q none (@doAloneTimeout s) := by
  intro s h0_
  unfold doAloneTimeout
  split
  · rename_i b0 b1
    assumption
  · rename_i b2 b3 b4
    refine Tidy.ite ?_ ?_
    · assumption
    · refine becomeActor_tidy _ ?_
      assumption

theorem doClaimBackoffEnd_tidy : ∀ s, Tidy q m s → Tidy q m (@doClaimBackoffEnd s) := by
  intro s h0_
  unfold doClaimBackoffEnd
  split
  · rename_i b0 b1
    assumption
  · rename_i b2 b3 b4
    refine Tidy.ite ?_ ?_
    · assumption
    · refine startClaim_tidy _ ?_
      assumption

theorem doClaimDisagreeTimeout_tidy : ∀ s, Tidy q m s → Tidy q m (@doClaimDisagreeTimeout s) := by
  intro s h0_
  unfold doClaimDisagreeTimeout
  refine Tidy.ite ?_ ?_
  · assumption
  · extract_lets +onlyGivenNames s1
    have hs1 : Tidy q m (s1) := by
      unfold s1
      refine raise_tidy _ _ _ ?_
      refine setBit_tidy _ _ _ _ ?_
      assumption
    clear_value s1
    refine Tidy.ite ?_ ?_
    · assumption
    · refine plySend_tidy _ _ ?_
      assumption

theorem doCopySnapshotReceive_tidy : ∀ c s, Tidy q none s → Tidy q none (@doCopySnapshotReceive c s) := by
  intro c s h0_
  unfold doCopySnapshotReceive
  refine Tidy.ite ?_ ?_
  · assumption
  · refine Tidy.ite ?_ ?_
    · refine startJoin_tidy _ ?_
      assumption
    · extract_lets +onlyGivenNames s0 v1
      have hs0 : Tidy q none (s0) := by
        unfold s0
        refine applyCopy_tidy _ _ ?_
        assumption
      clear_value s0
      clear_value v1
      extract_lets +onlyGivenNames s2
      have hs2 : Tidy q none (s2) := by
        unfold s2
        refine Tidy.upd (s := s0) ?_ rfl rfl rfl rfl
        assumption
      clear_value s2
      refine shadowCheck_tidy _ ?_
      refine setFld_tidy _ _ _ _ ?_
      assumption

theorem doCopySnapshotTake_tidy : ∀ s, Tidy q m s → Tidy q m (@doCopySnapshotTake s) := by
  intro s h0_
  unfold doCopySnapshotTake
  split
  · rename_i b0 b1
    assumption
  · rename_i b2 b3 b4
    refine Tidy.ite ?_ ?_
    · assumption
    · extract_lets +onlyGivenNames v5
      clear_value v5
      refine plySend_tidy _ _ ?_
      refine Tidy.upd (s := s) ?_ rfl rfl rfl rfl
      assumption

theorem doIsolationTimeout_tidy : ∀ s, Tidy q m s → Tidy q m (@doIsolationTimeout s) := by
  intro s h0_
  unfold doIsolationTimeout
  split
  · rename_i b0 b1
    assumption
  · rename_i b2 b3 b4
    refine Tidy.ite ?_ ?_
    · assumption
    · refine spnTwin_tidy _ ?_
      refine netStop_tidy _ ?_
      refine setBit_tidy _ _ _ _ ?_
      assumption

theorem doMergeWindowEnd_tidy : ∀ bay s, Tidy q none s → Tidy q none (@doMergeWindowEnd bay s) := by
  intro bay s h0_
  unfold doMergeWindowEnd
  extract_lets +onlyGivenNames v0
  clear_value v0
  split
  · rename_i b1 b2
    assumption
  · rename_i b3 b4 b5
    refine Tidy.ite ?_ ?_
    · assumption
    · extract_lets +onlyGivenNames v6 s7 v8 s9
      clear_value v6
      have hs7 : Tidy q none (s7) := by
        unfold s7
        refine Tidy.upd (s := s) ?_ rfl rfl rfl rfl
        assumption
      clear_value s7
      clear_value v8
      have hs9 : Tidy q none (s9) := by
        unfold s9
        refine setFld_tidy _ _ _ _ ?_
        refine setFld_tidy _ _ _ _ ?_
        refine putMerged_tidy _ _ ?_
        assumption
      clear_value s9
      extract_lets +onlyGivenNames s10
      have hs10 : Tidy q none (s10) := by
        unfold s10
        refine incSat_tidy _ _ _ _ _ ?_
        assumption
      clear_value s10
      refine Tidy.ite ?_ ?_
      · assumption
      · extract_lets +onlyGivenNames s11
        have hs11 : Tidy q none (s11) := by
          unfold s11
          refine peerLost_tidy _ ?_
          assumption
        clear_value s11
        refine Tidy.ite ?_ ?_
        · refine startJoin_tidy _ ?_
          refine netStop_tidy _ ?_
          assumption
        · assumption

theorem doPeerClaimSilent_tidy : ∀ linkStopped s, Tidy q none s → Tidy q none (@doPeerClaimSilent linkStopped s) := by
  intro linkStopped s h0_
  unfold doPeerClaimSilent
  refine Tidy.ite ?_ ?_
  · assumption
  · extract_lets +onlyGivenNames s0
    have hs0 : Tidy q none (s0) := by
      unfold s0
      refine gateSync_tidy _ ?_
      refine setBit_tidy _ _ _ _ ?_
      assumption
    clear_value s0
    refine Tidy.ite ?_ ?_
    · refine takeover_tidy _ ?_
      assumption
    · assumption

theorem doPeerClaimStart_tidy : ∀ s, Tidy q none s → Tidy q none (@doPeerClaimStart s) := by
  intro s h0_
  unfold doPeerClaimStart
  refine Tidy.ite ?_ ?_
  · assumption
  · extract_lets +onlyGivenNames s0 v1
    have hs0 : Tidy q none (s0) := by
      unfold s0
      refine gateSync_tidy _ ?_
      refine setBit_tidy _ _ _ _ ?_
      assumption
    clear_value s0
    clear_value v1
    refine Tidy.ite ?_ ?_
    · extract_lets +onlyGivenNames s2
      have hs2 : Tidy q none (s2) := by
        unfold s2
        refine stopClaim_tidy _ ?_
        assumption
      clear_value s2
      refine Tidy.ite ?_ ?_
      · refine startJoin_tidy _ ?_
        refine netStop_tidy _ ?_
        assumption
      · refine Tidy.upd (s := s2) ?_ rfl rfl rfl rfl
        assumption
    · refine Tidy.ite ?_ ?_
      · refine becomeFollower_tidy _ ?_
        refine netStop_tidy _ ?_
        assumption
      · assumption

theorem doPeerRefusalReceive_tidy : ∀ s, Tidy q none s → Tidy q none (@doPeerRefusalReceive s) := by
  intro s h0_
  unfold doPeerRefusalReceive
  refine Tidy.ite ?_ ?_
  · assumption
  · refine quarantine_tidy _ _ ?_
    assumption

theorem doPeerResultsReceive_tidy : ∀ bay n bits s, Tidy q none s → Tidy q none (@doPeerResultsReceive bay n bits s) := by
  intro bay n bits s h0_
  unfold doPeerResultsReceive
  extract_lets +onlyGivenNames v0
  clear_value v0
  refine Tidy.ite ?_ ?_
  · assumption
  · split
    · rename_i b1 b2 b3
      refine Tidy.ite ?_ ?_
      · refine mergeNow_tidy _ _ _ _ _ ?_
        assumption
      · refine Tidy.ite ?_ ?_
        · refine Tidy.upd (s := s) ?_ rfl rfl rfl rfl
          assumption
        · refine incSat_tidy _ _ _ _ _ ?_
          assumption
    · rename_i b4 b5
      refine Tidy.ite ?_ ?_
      · refine incSat_tidy _ _ _ _ _ ?_
        assumption
      · refine Tidy.upd (s := s) ?_ rfl rfl rfl rfl
        assumption

theorem doPeerTripStateReceive_tidy : ∀ w s, Tidy q m s → Tidy q m (@doPeerTripStateReceive w s) := by
  intro w s h0_
  unfold doPeerTripStateReceive
  refine Tidy.upd (s := s) ?_ rfl rfl rfl rfl
  assumption

theorem doPlyLinkDown_tidy : ∀ s, Tidy q none s → Tidy q none (@doPlyLinkDown s) := by
  intro s h0_
  unfold doPlyLinkDown
  refine Tidy.ite ?_ ?_
  · assumption
  · extract_lets +onlyGivenNames s0 v1 s2 s3 s4
    have hs0 : Tidy q none (s0) := by
      unfold s0
      refine setBit_tidy _ _ _ _ ?_
      refine setBit_tidy _ _ _ _ ?_
      refine setBit_tidy _ _ _ _ ?_
      assumption
    clear_value s0
    clear_value v1
    have hs2 : Tidy q none (s2) := by
      unfold s2
      refine Tidy.upd (s := s0) ?_ rfl rfl rfl rfl
      assumption
    clear_value s2
    have hs3 : Tidy q none (s3) := by
      unfold s3
      refine raise_tidy _ _ _ ?_
      refine incSat_tidy _ _ _ _ _ ?_
      assumption
    clear_value s3
    have hs4 : Tidy q none (s4) := by
      unfold s4
      refine spnTwin_tidy _ ?_
      refine peerLost_tidy _ ?_
      refine setBit_tidy _ _ _ _ ?_
      refine setFld_tidy _ _ _ _ ?_
      assumption
    clear_value s4
    extract_lets +onlyGivenNames s5
    have hs5 : Tidy q none (s5) := by
      unfold s5
      refine forEach_tidy _ _ _ _ ?_ ?_
      · assumption
      · intro a6 a7 a8
        split
        · rename_i b9 b10 b11
          refine putMerged_tidy _ _ ?_
          assumption
        · rename_i b12 b13
          assumption
    clear_value s5
    refine Tidy.ite ?_ ?_
    · refine takeover_tidy _ ?_
      assumption
    · assumption

theorem doPlyLinkUp_tidy : ∀ s, Tidy q none s → Tidy q none (@doPlyLinkUp s) := by
  intro s h0_
  unfold doPlyLinkUp
  refine Tidy.ite ?_ ?_
  · assumption
  · extract_lets +onlyGivenNames s0 v1 s2
    have hs0 : Tidy q none (s0) := by
      unfold s0
      refine setBit_tidy _ _ _ _ ?_
      refine setBit_tidy _ _ _ _ ?_
      refine setBit_tidy _ _ _ _ ?_
      assumption
    clear_value s0
    clear_value v1
    have hs2 : Tidy q none (s2) := by
      unfold s2
      refine Tidy.upd (s := s0) ?_ rfl rfl rfl rfl
      assumption
    clear_value s2
    extract_lets +onlyGivenNames s3
    have hs3 : Tidy q none (s3) := by
      unfold s3
      refine spnTwin_tidy _ ?_
      refine raise_tidy _ _ _ ?_
      assumption
    clear_value s3
    refine Tidy.ite ?_ ?_
    · refine startJoin_tidy _ ?_
      assumption
    · refine sendIdentity_tidy _ ?_
      assumption

theorem doShadowPassTimeout_tidy : ∀ s, Tidy q none s → Tidy q none (@doShadowPassTimeout s) := by
  intro s h0_
  unfold doShadowPassTimeout
  refine Tidy.ite ?_ ?_
  · refine raiseLim_tidy _ _ _ _ ?_
    refine becomeFollower_tidy _ ?_
    refine setBit_tidy _ _ _ _ ?_
    assumption
  · assumption

theorem doShipAckReceive_tidy : ∀ s, Tidy q m s → Tidy q m (@doShipAckReceive s) := by
  intro s h0_
  unfold doShipAckReceive
  split
  · rename_i b0 b1
    assumption
  · rename_i b2 b3 b4 b5
    refine enqueuePair_tidy _ _ ?_
    refine Tidy.upd (s := s) ?_ rfl rfl rfl rfl
    assumption

theorem doShipAckTimeout_tidy : ∀ s, Tidy q m s → Tidy q m (@doShipAckTimeout s) := by
  intro s h0_
  unfold doShipAckTimeout
  split
  · rename_i b0 b1
    assumption
  · rename_i b2 b3 b4 b5
    refine Tidy.ite ?_ ?_
    · assumption
    · extract_lets +onlyGivenNames v6
      clear_value v6
      extract_lets +onlyGivenNames s7
      have hs7 : Tidy q m (s7) := by
        unfold s7
        refine Tidy.upd (s := s) ?_ rfl rfl rfl rfl
        assumption
      clear_value s7
      refine enqueuePair_tidy _ _ ?_
      refine incSat_tidy _ _ _ _ _ ?_
      assumption

theorem doShippedFrameReceive_tidy : ∀ f s, Tidy q m s → Tidy q m (@doShippedFrameReceive f s) := by
  intro f s h0_
  unfold doShippedFrameReceive
  refine Tidy.ite ?_ ?_
  · assumption
  · refine relay_tidy _ _ ?_
    refine plySend_tidy _ _ ?_
    refine copyCounters_tidy _ _ ?_
    assumption

theorem doStreamedChangeReceive_tidy : ∀ c s, Tidy q none s → Tidy q none (@doStreamedChangeReceive c s) := by
  intro c s h0_
  unfold doStreamedChangeReceive
  split
  · rename_i b0 b1 b2 b3 b4
    refine Tidy.ite ?_ ?_
    · refine applyChange_tidy _ _ ?_
      assumption
    · assumption
  · rename_i b5 b6
    refine Tidy.ite ?_ ?_
    · refine applyChange_tidy _ _ ?_
      assumption
    · assumption

/-! ### Restart -/

theorem loadOtpWatchman_tidy : ∀ s, Tidy q m s → Tidy q m (@State.loadOtpWatchman s) := by
  intro s h0_
  unfold State.loadOtpWatchman
  extract_lets +onlyGivenNames s0 s1
  have hs0 : Tidy q m (s0) := by
    unfold s0
    refine forEach_tidy _ _ _ _ ?_ ?_
    · assumption
    · intro a2 a3 a4
      refine setFld_tidy _ _ _ _ ?_
      assumption
  clear_value s0
  have hs1 : Tidy q m (s1) := by
    unfold s1
    refine forEach_tidy _ _ _ _ ?_ ?_
    · assumption
    · intro a5 a6 a7
      refine setFld_tidy _ _ _ _ ?_
      assumption
  clear_value s1
  refine forEach_tidy _ _ _ _ ?_ ?_
  · assumption
  · intro a8 a9 a10
    refine setReg_tidy _ _ _ ?_
    assumption

theorem newChallenge_tidy : ∀ s, Tidy q m s → Tidy q m (@State.newChallenge s) := by
  intro s h0_
  unfold State.newChallenge
  refine forEach_tidy _ _ _ _ ?_ ?_
  · assumption
  · intro a0 a1 a2
    have h3 : Tidy q m (a1.nextFree).2 := by
      refine nextFree_tidy _ ?_
      assumption
    split
    rename_i b4 b5 b6 b7
    have e8 : Tidy q m b6 := by rw [b7] at h3; exact h3
    refine setReg_tidy _ _ _ ?_
    assumption

theorem secSync_tidy : ∀ s, Tidy q m s → Tidy q m (@State.secSync s) := by
  intro s h0_
  unfold State.secSync
  extract_lets +onlyGivenNames s0 v1
  have hs0 : Tidy q m (s0) := by
    unfold s0
    refine setFld_tidy _ _ _ _ ?_
    refine setFld_tidy _ _ _ _ ?_
    refine setFld_tidy _ _ _ _ ?_
    assumption
  clear_value s0
  clear_value v1
  refine setBit_tidy _ _ _ _ ?_
  refine setBit_tidy _ _ _ _ ?_
  assumption

theorem beginStart_tidy : ∀ s cause, Tidy q m s → Tidy q m (@State.beginStart s cause) := by
  intro s cause h0_
  unfold State.beginStart
  extract_lets +onlyGivenNames s0 s1 s2 s3 s4 v5
  have hs0 : Tidy q m (s0) := by
    unfold s0
    refine setFld_tidy _ _ _ _ ?_
    refine setFld_tidy _ _ _ _ ?_
    assumption
  clear_value s0
  have hs1 : Tidy q m (s1) := by
    unfold s1
    refine setBit_tidy _ _ _ _ ?_
    refine setFld_tidy _ _ _ _ ?_
    assumption
  clear_value s1
  have hs2 : Tidy q m (s2) := by
    unfold s2
    refine setBit_tidy _ _ _ _ ?_
    refine setBit_tidy _ _ _ _ ?_
    assumption
  clear_value s2
  have hs3 : Tidy q m (s3) := by
    unfold s3
    refine setReg_tidy _ _ _ ?_
    assumption
  clear_value s3
  have hs4 : Tidy q m (s4) := by
    unfold s4
    refine loadOtpWatchman_tidy _ ?_
    refine newChallenge_tidy _ ?_
    refine secSync_tidy _ ?_
    assumption
  clear_value s4
  clear_value v5
  extract_lets +onlyGivenNames s6
  have hs6 : Tidy q m (s6) := by
    unfold s6
    refine Tidy.upd (s := s4) ?_ rfl rfl rfl rfl
    assumption
  clear_value s6
  refine gateGout_tidy _ ?_
  refine drivePins_tidy _ ?_
  refine setReg64_tidy _ _ _ _ ?_
  assumption

theorem carryTrips_tidy : ∀ s old, Tidy q m s → Tidy q m (@State.carryTrips s old) := by
  intro s old h0_
  unfold State.carryTrips
  extract_lets +onlyGivenNames v0 v1 v2
  clear_value v0
  clear_value v1
  clear_value v2
  extract_lets +onlyGivenNames s3
  have hs3 : Tidy q m (s3) := by
    unfold s3
    refine Tidy.upd (s := s) ?_ rfl rfl rfl rfl
    assumption
  clear_value s3
  refine setFld_tidy _ _ _ _ ?_
  refine setReg_tidy _ _ _ ?_
  refine setReg_tidy _ _ _ ?_
  refine setReg_tidy _ _ _ ?_
  assumption

theorem cutSave_tidy : ∀ s, Tidy q m s → Tidy q m (@State.cutSave s) := by
  intro s h0_
  unfold State.cutSave
  split
  · rename_i b0 b1
    assumption
  · rename_i b2 b3 b4
    extract_lets +onlyGivenNames v5
    clear_value v5
    extract_lets +onlyGivenNames s6
    have hs6 : Tidy q m (s6) := by
      unfold s6
      refine Tidy.upd (s := s) ?_ rfl rfl rfl rfl
      assumption
    clear_value s6
    refine Tidy.ite ?_ ?_
    · assumption
    · have h7 : Tidy q m (s6.nextFree).2 := by
        refine nextFree_tidy _ ?_
        assumption
      split
      rename_i b8 b9 b10 b11
      have e12 : Tidy q m b10 := by rw [b11] at h7; exact h7
      refine Tidy.upd (s := b10) ?_ rfl rfl rfl rfl
      assumption

theorem keepAliveLost_tidy : ∀ s, Tidy q m s → Tidy q m (@State.keepAliveLost s) := by
  intro s h0_
  unfold State.keepAliveLost
  extract_lets +onlyGivenNames v0
  clear_value v0
  extract_lets +onlyGivenNames v1
  clear_value v1
  extract_lets +onlyGivenNames s2
  have hs2 : Tidy q m (s2) := by
    unfold s2
    refine Tidy.upd (s := s) ?_ rfl rfl rfl rfl
    assumption
  clear_value s2
  refine setBit_tidy _ _ _ _ ?_
  refine setReg_tidy _ _ _ ?_
  refine setReg_tidy _ _ _ ?_
  refine setReg_tidy _ _ _ ?_
  assumption

theorem rtcDrift_tidy : ∀ s, Tidy q m s → Tidy q m (@State.rtcDrift s) := by
  intro s h0_
  unfold State.rtcDrift
  refine Tidy.ite ?_ ?_
  · assumption
  · have h0 : Tidy q m (s.nextFree).2 := by
      refine nextFree_tidy _ ?_
      assumption
    split
    rename_i b1 b2 b3 b4
    have e5 : Tidy q m b3 := by rw [b4] at h0; exact h0
    refine Tidy.upd (s := b3) ?_ rfl rfl rfl rfl
    assumption

theorem doCrystalStop_tidy : ∀ s, Tidy q m s → Tidy q m (@doCrystalStop s) := by
  intro s h0_
  unfold doCrystalStop
  refine Tidy.upd (s := s) ?_ rfl rfl rfl rfl
  assumption

theorem doKeepAliveToVbat_tidy : ∀ s, Tidy q m s → Tidy q m (@doKeepAliveToVbat s) := by
  intro s h0_
  unfold doKeepAliveToVbat
  refine setBit_tidy _ _ _ _ ?_
  refine Tidy.upd (s := s) ?_ rfl rfl rfl rfl
  assumption

theorem doKeepAliveToVddKa_tidy : ∀ s, Tidy q m s → Tidy q m (@doKeepAliveToVddKa s) := by
  intro s h0_
  unfold doKeepAliveToVddKa
  refine Tidy.upd (s := s) ?_ rfl rfl rfl rfl
  assumption

theorem kept_tidy : ∀ s, Tidy q none s → Tidy q none (@State.kept s) := by
  intro s0 h
  have hs := cutSave_tidy _ h
  unfold State.kept
  refine setFld_tidy _ _ _ _ (setBit_tidy _ _ _ _ (setBit_tidy _ _ _ _ (forEach_tidy _ _ _ _ ?_ (fun n t ht => setConvState_tidy _ _ _ ht))))
  refine ⟨hs.1, ⟨sparseWfFrom_filter _ _ _ _ hs.2.1.1, sparseWfFrom_filter _ _ _ _ hs.2.1.2.1, rfl⟩, fun _ e => by cases e⟩

theorem restart_tidy : ∀ s cause, Tidy q none s → Tidy q none (@State.restart s cause) := by
  intro s cause h0_
  unfold State.restart
  refine beginStart_tidy _ _ ?_
  refine carryTrips_tidy _ _ ?_
  refine kept_tidy _ ?_
  assumption

theorem fatal_tidy : ∀ s, Tidy q none s → Tidy q none (@State.fatal s) := by
  intro s h0_
  unfold State.fatal
  refine restart_tidy _ _ ?_
  assumption

theorem doClaimWatchdogExpire_tidy : ∀ s, Tidy q none s → Tidy q none (@doClaimWatchdogExpire s) := by
  intro s h0_
  unfold doClaimWatchdogExpire
  refine Tidy.ite ?_ ?_
  · assumption
  · refine restart_tidy _ _ ?_
    assumption

theorem doPowerGood_tidy : ∀ p s, Tidy q none s → Tidy q none (@doPowerGood p s) := by
  intro p s h0_
  unfold doPowerGood
  extract_lets +onlyGivenNames s0 s1 v2 v3 v4
  have hs0 : Tidy q none (s0) := by
    unfold s0
    refine kept_tidy _ ?_
    assumption
  clear_value s0
  have hs1 : Tidy q none (s1) := by
    unfold s1
    refine rtcDrift_tidy _ ?_
    refine Tidy.ite ?_ ?_
    · refine keepAliveLost_tidy _ ?_
      assumption
    · assumption
  clear_value s1
  clear_value v2
  clear_value v3
  clear_value v4
  extract_lets +onlyGivenNames v5 s6 v7
  clear_value v5
  have hs6 : Tidy q none (s6) := by
    unfold s6
    refine Tidy.upd (s := s1) ?_ rfl rfl rfl rfl
    assumption
  clear_value s6
  clear_value v7
  extract_lets +onlyGivenNames s8
  have hs8 : Tidy q none (s8) := by
    unfold s8
    refine putList_tidy _ _ _ _ ?_ ?_
    · refine setReg_tidy _ _ _ ?_
      assumption
    · intro a9 a10 a11 a12
      refine setReg_tidy _ _ _ ?_
      assumption
  clear_value s8
  refine beginStart_tidy _ _ ?_
  refine incSat_tidy _ _ _ _ _ ?_
  assumption

theorem doRailOutOfRange_tidy : ∀ s, Tidy q none s → Tidy q none (@doRailOutOfRange s) := by
  intro s h0_
  unfold doRailOutOfRange
  refine Tidy.ite ?_ ?_
  · assumption
  · extract_lets +onlyGivenNames s0
    have hs0 : Tidy q none (s0) := by
      unfold s0
      refine kept_tidy _ ?_
      assumption
    clear_value s0
    refine Tidy.upd (s := s0) ?_ rfl rfl rfl rfl
    assumption

theorem doResetNAssert_tidy : ∀ boot s, Tidy q none s → Tidy q none (@doResetNAssert boot s) := by
  intro boot s h0_
  unfold doResetNAssert
  refine Tidy.ite ?_ ?_
  · assumption
  · extract_lets +onlyGivenNames v0
    clear_value v0
    extract_lets +onlyGivenNames s1
    have hs1 : Tidy q none (s1) := by
      unfold s1
      split
      · rename_i b2 b3
        refine Tidy.upd (s := s) ?_ rfl rfl rfl rfl
        assumption
      · rename_i b4
        assumption
    clear_value s1
    refine restart_tidy _ _ ?_
    assumption

theorem doRestartReset_tidy : ∀ s, Tidy q none s → Tidy q none (@doRestartReset s) := by
  intro s h0_
  unfold doRestartReset
  split
  · rename_i b0 b1
    assumption
  · rename_i b2 b3 b4 b5
    refine Tidy.ite ?_ ?_
    · assumption
    · extract_lets +onlyGivenNames v6
      clear_value v6
      extract_lets +onlyGivenNames s7
      have hs7 : Tidy q none (s7) := by
        unfold s7
        refine Tidy.ite ?_ ?_
        · refine Tidy.upd (s := s) ?_ rfl rfl rfl rfl
          assumption
        · assumption
      clear_value s7
      refine restart_tidy _ _ ?_
      refine Tidy.ite ?_ ?_
      · refine setReg_tidy _ _ _ ?_
        assumption
      · assumption

theorem doSupervisorWatchdogExpiry_tidy : ∀ s, Tidy q none s → Tidy q none (@doSupervisorWatchdogExpiry s) := by
  intro s h0_
  unfold doSupervisorWatchdogExpiry
  refine Tidy.ite ?_ ?_
  · refine fatal_tidy _ ?_
    assumption
  · assumption

/-! ### Load -/

theorem almResume_tidy : ∀ s k, Tidy q m s → Tidy q m (@State.almResume s k) := by
  intro s k h0_
  unfold State.almResume
  extract_lets +onlyGivenNames v0 s1
  clear_value v0
  have hs1 : Tidy q m (s1) := by
    unfold s1
    refine Tidy.upd (s := s) ?_ rfl rfl rfl rfl
    assumption
  clear_value s1
  extract_lets +onlyGivenNames s2
  have hs2 : Tidy q m (s2) := by
    unfold s2
    refine forEach_tidy _ _ _ _ ?_ ?_
    · refine putRegs_tidy _ _ _ ?_
      assumption
    · intro a3 a4 a5
      split
      · rename_i b6 b7 b8
        refine Tidy.ite ?_ ?_
        · refine almEnd_tidy _ _ _ _ _ _ ?_
          assumption
        · assumption
      · rename_i b9 b10
        assumption
  clear_value s2
  refine almRearm_tidy _ ?_
  assumption

theorem cfgFail_tidy : ∀ s code sect item, Tidy q m s → Tidy q m (@State.cfgFail s code sect item) := by
  intro s code sect item h0_
  unfold State.cfgFail
  refine Tidy.ite ?_ ?_
  · assumption
  · refine setReg_tidy _ _ _ ?_
    refine setReg_tidy _ _ _ ?_
    assumption

theorem putCluster_tidy : ∀ s c point st, Tidy q m s → Tidy q m (@State.putCluster s c point st) := by
  intro s c point st h0_
  unfold State.putCluster
  refine setReg_tidy _ _ _ ?_
  assumption

theorem clpCold_tidy : ∀ s, Tidy q m s → Tidy q m (@State.clpCold s) := by
  intro s h0_
  unfold State.clpCold
  refine forEach_tidy _ _ _ _ ?_ ?_
  · assumption
  · intro a0 a1 a2
    refine setInst_tidy _ _ _ ?_
    assumption

theorem coldStart_tidy : ∀ s, Tidy q m s → Tidy q m (@State.coldStart s) := by
  intro s h0_
  unfold State.coldStart
  refine forEach_tidy _ _ _ _ ?_ ?_
  · assumption
  · intro a0 a1 a2
    split
    · rename_i b3 b4
      assumption
    · rename_i b5 b6 b7
      extract_lets +onlyGivenNames v8 v9
      clear_value v8
      clear_value v9
      split
      rename_i b10 b11 b12 b13
      refine motorSync_tidy _ _ _ ?_
      refine setMotor_tidy _ _ _ ?_
      assumption

theorem imageFails_tidy : ∀ s f, Tidy q m s → Tidy q m (@State.imageFails s f) := by
  intro s f h0_
  unfold State.imageFails
  extract_lets +onlyGivenNames s0
  have hs0 : Tidy q m (s0) := by
    unfold s0
    refine Tidy.ite ?_ ?_
    · assumption
    · refine lastErr_tidy _ _ _ ?_
      assumption
  clear_value s0
  split
  · rename_i b1 b2 b3
    refine cfgFail_tidy _ _ _ _ ?_
    assumption
  · rename_i b4 b5
    have h6 : Tidy q m (s0.nextFree).2 := by
      refine nextFree_tidy _ ?_
      assumption
    split
    rename_i b7 b8 b9 b10
    have e11 : Tidy q m b9 := by rw [b10] at h6; exact h6
    refine cfgFail_tidy _ _ _ _ ?_
    assumption

theorem loadAlmanac_tidy : ∀ s, Tidy q m s → Tidy q m (@State.loadAlmanac s) := by
  intro s h0_
  unfold State.loadAlmanac
  extract_lets +onlyGivenNames v0 v1 v2 s3
  clear_value v0
  clear_value v1
  clear_value v2
  have hs3 : Tidy q m (s3) := by
    unfold s3
    refine setReg_tidy _ _ _ ?_
    refine setFld_tidy _ _ _ _ ?_
    assumption
  clear_value s3
  refine Tidy.ite ?_ ?_
  · refine almFail_tidy _ _ _ _ ?_
    assumption
  · refine Tidy.ite ?_ ?_
    · refine almFail_tidy _ _ _ _ ?_
      assumption
    · assumption

theorem loadData_tidy : ∀ s l, Tidy q none s → Tidy q none (@State.loadData s l) := by
  intro s l h0_
  unfold State.loadData
  extract_lets +onlyGivenNames s0 s1
  have hs0 : Tidy q none (s0) := by
    unfold s0
    refine putList_tidy _ _ _ _ ?_ ?_
    · assumption
    · intro a2 a3 a4 a5
      refine setOctetsLE_tidy _ _ _ _ ?_
      assumption
  clear_value s0
  have hs1 : Tidy q none (s1) := by
    unfold s1
    refine putList_tidy _ _ _ _ ?_ ?_
    · assumption
    · intro a6 a7 a8 a9
      refine setOctetsLE_tidy _ _ _ _ ?_
      assumption
  clear_value s1
  refine putList_tidy _ _ _ _ ?_ ?_
  · assumption
  · intro a10 a11 a12 a13
    refine setOctetsLE_tidy _ _ _ _ ?_
    assumption

theorem loadDeclared_tidy : ∀ s d, Tidy q m s → Tidy q m (@State.loadDeclared s d) := by
  intro s d h0_
  unfold State.loadDeclared
  extract_lets +onlyGivenNames s0
  have hs0 : Tidy q m (s0) := by
    unfold s0
    refine setFld_tidy _ _ _ _ ?_
    refine setFld_tidy _ _ _ _ ?_
    assumption
  clear_value s0
  refine forEach_tidy _ _ _ _ ?_ ?_
  · assumption
  · intro a1 a2 a3
    extract_lets +onlyGivenNames v4
    clear_value v4
    refine setFld_tidy _ _ _ _ ?_
    refine setFld_tidy _ _ _ _ ?_
    assumption

theorem loadIdentity_tidy : ∀ s im fw fwSlot slot fallback, Tidy q m s → Tidy q m (@State.loadIdentity s im fw fwSlot slot fallback) := by
  intro s im fw fwSlot slot fallback h0_
  unfold State.loadIdentity
  extract_lets +onlyGivenNames s0 s1
  have hs0 : Tidy q m (s0) := by
    unfold s0
    refine setFld_tidy _ _ _ _ ?_
    refine setFld_tidy _ _ _ _ ?_
    refine setFld_tidy _ _ _ _ ?_
    assumption
  clear_value s0
  have hs1 : Tidy q m (s1) := by
    unfold s1
    refine setReg_tidy _ _ _ ?_
    refine setReg_tidy _ _ _ ?_
    refine setBit_tidy _ _ _ _ ?_
    assumption
  clear_value s1
  refine forEach_tidy _ _ _ _ ?_ ?_
  · refine Tidy.upd (s := s1) ?_ rfl rfl rfl rfl
    assumption
  · intro a2 a3 a4
    refine setReg_tidy _ _ _ ?_
    assumption

theorem loadPairing_tidy : ∀ s im, Tidy q m s → Tidy q m (@State.loadPairing s im) := by
  intro s im h0_
  unfold State.loadPairing
  split
  · rename_i b0 b1
    assumption
  · rename_i b2 b3 b4
    extract_lets +onlyGivenNames v5
    clear_value v5
    refine setReg_tidy _ _ _ ?_
    refine setReg_tidy _ _ _ ?_
    assumption

theorem loadParam_tidy : ∀ s im, Tidy q m s → Tidy q m (@State.loadParam s im) := by
  intro s im h0_
  unfold State.loadParam
  extract_lets +onlyGivenNames v0 s1
  clear_value v0
  have hs1 : Tidy q m (s1) := by
    unfold s1
    refine forEach_tidy _ _ _ _ ?_ ?_
    · assumption
    · intro a2 a3 a4
      refine setReg_tidy _ _ _ ?_
      assumption
  clear_value s1
  refine forEach_tidy _ _ _ _ ?_ ?_
  · assumption
  · intro a5 a6 a7
    refine Tidy.ite ?_ ?_
    · refine setBit_tidy _ _ _ _ ?_
      assumption
    · assumption

theorem loadLogic_tidy : ∀ s im freeRun tasks, Tidy q none s → Tidy q none (@State.loadLogic s im freeRun tasks) := by
  intro s im freeRun tasks h0_
  unfold State.loadLogic
  split
  · rename_i b0 b1
    assumption
  · rename_i b2 b3 b4
    extract_lets +onlyGivenNames v5 v6 v7 s8 s9
    clear_value v5
    clear_value v6
    clear_value v7
    have hs8 : Tidy q none (s8) := by
      unfold s8
      refine Tidy.upd (s := s) ?_ rfl rfl rfl rfl
      assumption
    clear_value s8
    have hs9 : Tidy q none (s9) := by
      unfold s9
      split
      · rename_i b10 b11 b12
        refine loadData_tidy _ _ ?_
        assumption
      · rename_i b13 b14
        assumption
    clear_value s9
    extract_lets +onlyGivenNames s15
    have hs15 : Tidy q none (s15) := by
      unfold s15
      refine forEach_tidy _ _ _ _ ?_ ?_
      · assumption
      · intro a16 a17 a18
        refine setReg_tidy _ _ _ ?_
        refine setReg_tidy _ _ _ ?_
        assumption
    clear_value s15
    refine qStop_tidy _ ?_
    refine setFld_tidy _ _ _ _ ?_
    assumption

theorem placeXck_tidy : ∀ s reels, Tidy q m s → Tidy q m (@State.placeXck s reels) := by
  intro s reels h0_
  unfold State.placeXck
  extract_lets +onlyGivenNames v0
  clear_value v0
  refine forEach_tidy _ _ _ _ ?_ ?_
  · refine setFld_tidy _ _ _ _ ?_
    assumption
  · intro a1 a2 a3
    refine raise_tidy _ _ _ ?_
    assumption

theorem loadPlaces_tidy : ∀ s d p explicit, Tidy q m s → Tidy q m (@State.loadPlaces s d p explicit) := by
  intro s d p explicit h0_
  unfold State.loadPlaces
  extract_lets +onlyGivenNames s0 s1 s2 s3 v4 v5 s6 s7 s8
  have hs0 : Tidy q m (s0) := by
    unfold s0
    refine forEach_tidy _ _ _ _ ?_ ?_
    · assumption
    · intro a9 a10 a11
      refine setFld_tidy _ _ _ _ ?_
      assumption
  clear_value s0
  have hs1 : Tidy q m (s1) := by
    unfold s1
    refine forEach_tidy _ _ _ _ ?_ ?_
    · assumption
    · intro a12 a13 a14
      extract_lets +onlyGivenNames v15
      clear_value v15
      refine setFld_tidy _ _ _ _ ?_
      refine setFld_tidy _ _ _ _ ?_
      assumption
  clear_value s1
  have hs2 : Tidy q m (s2) := by
    unfold s2
    refine forEach_tidy _ _ _ _ ?_ ?_
    · assumption
    · intro a16 a17 a18
      refine setFld_tidy _ _ _ _ ?_
      assumption
  clear_value s2
  have hs3 : Tidy q m (s3) := by
    unfold s3
    refine forEach_tidy _ _ _ _ ?_ ?_
    · assumption
    · intro a19 a20 a21
      refine setFld_tidy _ _ _ _ ?_
      assumption
  clear_value s3
  clear_value v4
  clear_value v5
  have hs6 : Tidy q m (s6) := by
    unfold s6
    refine putCluster_tidy _ _ _ _ ?_
    refine setReg_tidy _ _ _ ?_
    assumption
  clear_value s6
  have hs7 : Tidy q m (s7) := by
    unfold s7
    refine putCluster_tidy _ _ _ _ ?_
    assumption
  clear_value s7
  have hs8 : Tidy q m (s8) := by
    unfold s8
    refine putCluster_tidy _ _ _ _ ?_
    assumption
  clear_value s8
  extract_lets +onlyGivenNames v22
  clear_value v22
  extract_lets +onlyGivenNames s23
  have hs23 : Tidy q m (s23) := by
    unfold s23
    refine Tidy.upd (s := s8) ?_ rfl rfl rfl rfl
    assumption
  clear_value s23
  refine gateGout_tidy _ ?_
  refine placeXck_tidy _ _ ?_
  refine Tidy.upd (s := s23) ?_ rfl rfl rfl rfl
  assumption

theorem loadOverlays_tidy : ∀ s d im, Tidy q m s → Tidy q m (@State.loadOverlays s d im) := by
  intro s d im h0_
  unfold State.loadOverlays
  split
  rename_i b0 b1 b2 b3
  extract_lets +onlyGivenNames v4 v5 v6 v7 s8
  clear_value v4
  clear_value v5
  clear_value v6
  clear_value v7
  have hs8 : Tidy q m (s8) := by
    unfold s8
    refine Tidy.upd (s := s) ?_ rfl rfl rfl rfl
    assumption
  clear_value s8
  extract_lets +onlyGivenNames s9
  have hs9 : Tidy q m (s9) := by
    unfold s9
    refine setFld_tidy _ _ _ _ ?_
    assumption
  clear_value s9
  split
  · rename_i b10 b11 b12
    refine cfgFail_tidy _ _ _ _ ?_
    assumption
  · rename_i b13
    assumption

theorem netPower_tidy : ∀ s, Tidy q m s → Tidy q m (@State.netPower s) := by
  intro s h0_
  unfold State.netPower
  refine setBit_tidy _ _ _ _ ?_
  assumption

theorem restoreClose_tidy : ∀ s im, Tidy q m s → Tidy q m (@State.restoreClose s im) := by
  intro s im h0_
  unfold State.restoreClose
  extract_lets +onlyGivenNames v0 s1
  clear_value v0
  have hs1 : Tidy q m (s1) := by
    unfold s1
    refine forEach_tidy _ _ _ _ ?_ ?_
    · assumption
    · intro a2 a3 a4
      extract_lets +onlyGivenNames v5
      clear_value v5
      refine setReg_tidy _ _ _ ?_
      assumption
  clear_value s1
  refine Tidy.ite ?_ ?_
  · refine Tidy.upd (s := s1) ?_ rfl rfl rfl rfl
    assumption
  · refine Tidy.upd (s := s1) ?_ rfl rfl rfl rfl
    assumption

theorem warmStart_tidy : ∀ s k, Tidy q none s → Tidy q none (@State.warmStart s k) := by
  intro s k h0_
  unfold State.warmStart
  extract_lets +onlyGivenNames s0 s1 v2 v3 s4 s5
  have hs0 : Tidy q none (s0) := by
    unfold s0
    refine putMem_tidy _ _ _ ?_
    refine putMem_tidy _ _ _ ?_
    assumption
  clear_value s0
  have hs1 : Tidy q none (s1) := by
    unfold s1
    refine putForce_tidy _ _ ?_
    refine putOnline_tidy _ _ ?_
    assumption
  clear_value s1
  clear_value v2
  clear_value v3
  have hs4 : Tidy q none (s4) := by
    unfold s4
    refine forEach_tidy _ _ _ _ ?_ ?_
    · assumption
    · intro a6 a7 a8
      refine putMotor_tidy _ _ _ ?_
      assumption
  clear_value s4
  have hs5 : Tidy q none (s5) := by
    unfold s5
    refine setBit_tidy _ _ _ _ ?_
    refine setBit_tidy _ _ _ _ ?_
    refine setReg_tidy _ _ _ ?_
    assumption
  clear_value s5
  refine almResume_tidy _ _ ?_
  assumption

theorem restoreSave_tidy : ∀ s im, Tidy q none s → Tidy q none (@State.restoreSave s im) := by
  intro s im h
  have hn : Tidy q none s.nextFree.2 := nextFree_tidy _ h
  unfold State.restoreSave
  split
  rename_i n s0 he
  have h0 : Tidy q none s0 := by rw [he] at hn; exact hn
  extract_lets done
  have hd : ∀ t r, Tidy q none t → Tidy q none (done t r) := fun t r ht =>
    note_tidy _ _ _ (raise_tidy _ _ _ (setFld_tidy _ _ _ _ (setFld_tidy _ _ _ _ ht)))
  clear_value done
  split
  · exact hd _ _ (coldStart_tidy _ h0)
  · split
    · split
      · exact Tidy.ite (hd _ _ (warmStart_tidy _ _ (Tidy.upd (s := s0) h0 rfl rfl rfl rfl))) (hd _ _ (coldStart_tidy _ h0))
      · exact hd _ _ (coldStart_tidy _ h0)
    · exact Tidy.ite (hd _ _ (warmStart_tidy _ _ h0)) (hd _ _ (coldStart_tidy _ h0))

theorem loadImage_tidy : ∀ s c fw fwSlot fallback, Tidy q none s → Tidy q none (@State.loadImage s c fw fwSlot fallback) := by
  intro s c fw fwSlot fallback h0_
  unfold State.loadImage
  extract_lets +onlyGivenNames s0 s1 s2
  have hs0 : Tidy q none (s0) := by
    unfold s0
    refine clpCold_tidy _ ?_
    refine loadPairing_tidy _ _ ?_
    refine loadParam_tidy _ _ ?_
    refine loadIdentity_tidy _ _ _ _ _ _ ?_
    assumption
  clear_value s0
  have hs1 : Tidy q none (s1) := by
    unfold s1
    refine loadLogic_tidy _ _ _ _ ?_
    refine loadPlaces_tidy _ _ _ _ ?_
    refine loadOverlays_tidy _ _ _ ?_
    refine loadDeclared_tidy _ _ ?_
    assumption
  clear_value s1
  have hs2 : Tidy q none (s2) := by
    unfold s2
    refine forEach_tidy _ _ _ _ ?_ ?_
    · assumption
    · intro a3 a4 a5
      refine Tidy.ite ?_ ?_
      · refine applyMaps_tidy _ _ _ ?_
        assumption
      · assumption
  clear_value s2
  refine netPower_tidy _ ?_
  refine restoreClose_tidy _ _ ?_
  refine restoreSave_tidy _ _ ?_
  refine loadAlmanac_tidy _ ?_
  assumption

theorem startFails_tidy : ∀ s st, Tidy q m s → Tidy q m (@State.startFails s st) := by
  intro s st h0_
  unfold State.startFails
  refine setFld_tidy _ _ _ _ ?_
  refine setFld_tidy _ _ _ _ ?_
  assumption

theorem firstSlot_tidy : ∀ (α : Type) (try_ : Nat → State → Option α × State) (s : State) (l : List Nat),
    (∀ k t, Tidy q m t → Tidy q m (try_ k t).2) → Tidy q m s → Tidy q m (@firstSlot α try_ s l).2 := by
  intro α try_ s l hf
  induction l generalizing s with
  | nil => intro h; exact h
  | cons k l ih =>
    intro h
    have hk := hf k s h
    unfold firstSlot
    split
    · rename_i a s1 he
      rw [he] at hk
      exact hk
    · rename_i s1 he
      rw [he] at hk
      exact ih _ hk

theorem tryFw_tidy : ∀ x0 d k s, Tidy q m s → Tidy q m (@tryFw x0 d k s).2 := by
  intro x0 d k s h0_
  unfold tryFw
  extract_lets +onlyGivenNames v0
  clear_value v0
  split
  · rename_i b1 b2
    dsimp only
    assumption
  · rename_i b3 b4 b5 b6
    dsimp only
    refine cfgFail_tidy _ _ _ _ ?_
    refine Tidy.ite ?_ ?_
    · assumption
    · refine lastErr_tidy _ _ _ ?_
      assumption

theorem tryImage_tidy : ∀ x0 d fw k s, Tidy q m s → Tidy q m (@tryImage x0 d fw k s).2 := by
  intro x0 d fw k s h0_
  unfold tryImage
  split
  · rename_i b0 b1 b2
    dsimp only
    assumption
  · rename_i b3 b4 b5
    dsimp only
    refine imageFails_tidy _ _ ?_
    assumption

end Sys2Proof.Laws
end

