-- ==== Sys2Proof/Laws/TidyHost.lean ====
section
/-! SUPPORT. Every function of start, watch, host commands, security and the tick keeps the queue of waiting commands and the canonical form of memory, registers and
latched copies; one that writes no octet keeps memory. -/

namespace Sys2Proof.Laws

open Sys2Proof.Machine

variable {q : List Instr} {m : Option (List Host.Cell)}

/-! ### Start -/

theorem lanesBegin_tidy : ∀ s, Tidy q m s → Tidy q m (@State.lanesBegin s) := by
  intro s h0_
  unfold State.lanesBegin
  extract_lets +onlyGivenNames s0 v1
  have hs0 : Tidy q m (s0) := by
    unfold s0
    refine forEach_tidy _ _ _ _ ?_ ?_
    · assumption
    · intro a2 a3 a4
      refine setLane_tidy _ _ _ ?_
      assumption
  clear_value s0
  clear_value v1
  refine Tidy.upd (s := s0) ?_ rfl rfl rfl rfl
  assumption

theorem startStep_tidy : ∀ s, Tidy q none s → Tidy q none (@State.startStep s) := by
  intro s h0_
  unfold State.startStep
  extract_lets +onlyGivenNames v0
  clear_value v0
  refine Tidy.ite ?_ ?_
  · assumption
  · refine timeStep_tidy _ _ ?_
    assumption

theorem switchAlmanac_tidy : ∀ s, Tidy q m s → Tidy q m (@State.switchAlmanac s) := by
  intro s h0_
  unfold State.switchAlmanac
  extract_lets +onlyGivenNames s0 s1
  have hs0 : Tidy q m (s0) := by
    unfold s0
    refine forEach_tidy _ _ _ _ ?_ ?_
    · assumption
    · intro a2 a3 a4
      refine almOpenPlan_tidy _ _ _ ?_
      assumption
  clear_value s0
  have hs1 : Tidy q m (s1) := by
    unfold s1
    refine forEach_tidy _ _ _ _ ?_ ?_
    · assumption
    · intro a5 a6 a7
      refine almOpenTrk_tidy _ _ _ ?_
      assumption
  clear_value s1
  refine Tidy.ite ?_ ?_
  · assumption
  · refine almRearm_tidy _ ?_
    assumption

theorem switchChains_tidy : ∀ s, Tidy q m s → Tidy q m (@State.switchChains s) := by
  intro s h0_
  unfold State.switchChains
  refine forEach_tidy _ _ _ _ ?_ ?_
  · assumption
  · intro a0 a1 a2
    extract_lets +onlyGivenNames v3 v4 v5 s6
    clear_value v3
    clear_value v4
    clear_value v5
    have hs6 : Tidy q m (s6) := by
      unfold s6
      refine setBit_tidy _ _ _ _ ?_
      refine setBayChain_tidy _ _ _ ?_
      assumption
    clear_value s6
    extract_lets +onlyGivenNames s7
    have hs7 : Tidy q m (s7) := by
      unfold s7
      refine setFld_tidy _ _ _ _ ?_
      refine setFld_tidy _ _ _ _ ?_
      assumption
    clear_value s7
    refine setLatency_tidy _ _ ?_
    refine settleSigs_tidy _ _ _ _ ?_
    assumption

theorem switchEngines_tidy : ∀ s, Tidy q none s → Tidy q none (@State.switchEngines s) := by
  intro s h0_
  unfold State.switchEngines
  extract_lets +onlyGivenNames s0 s1 s2
  have hs0 : Tidy q none (s0) := by
    unfold s0
    refine forEach_tidy _ _ _ _ ?_ ?_
    · assumption
    · intro a3 a4 a5
      refine setLoopB_tidy _ _ _ ?_
      assumption
  clear_value s0
  have hs1 : Tidy q none (s1) := by
    unfold s1
    refine forEach_tidy _ _ _ _ ?_ ?_
    · refine forEach_tidy _ _ _ _ ?_ ?_
      · assumption
      · intro a6 a7 a8
        refine pealEnable_tidy _ _ ?_
        assumption
    · intro a9 a10 a11
      refine hankEnable_tidy _ _ ?_
      assumption
  clear_value s1
  have hs2 : Tidy q none (s2) := by
    unfold s2
    refine forEach_tidy _ _ _ _ ?_ ?_
    · assumption
    · intro a12 a13 a14
      refine capPlanChange_tidy _ _ _ _ ?_
      assumption
  clear_value s2
  refine forEach_tidy _ _ _ _ ?_ ?_
  · assumption
  · intro a15 a16 a17
    refine Tidy.ite ?_ ?_
    · refine svEnable_tidy _ _ ?_
      assumption
    · assumption

theorem switchLogic_tidy : ∀ s, Tidy q m s → Tidy q m (@State.switchLogic s) := by
  intro s h0_
  unfold State.switchLogic
  extract_lets +onlyGivenNames v0 v1
  clear_value v0
  clear_value v1
  refine heddleArm_tidy _ ?_
  refine setMode_tidy _ _ ?_
  assumption

theorem switchOverlay_tidy : ∀ s, Tidy q none s → Tidy q none (@State.switchOverlay s) := by
  intro s h0_
  unfold State.switchOverlay
  extract_lets +onlyGivenNames v0
  clear_value v0
  refine Tidy.ite ?_ ?_
  · assumption
  · refine commFollow_tidy _ ?_
    refine setFld_tidy _ _ _ _ ?_
    refine forEach_tidy _ _ _ _ ?_ ?_
    · assumption
    · intro a1 a2 a3
      refine setReg_tidy _ _ _ ?_
      assumption

theorem switchReels_tidy : ∀ s, Tidy q m s → Tidy q m (@State.switchReels s) := by
  intro s h0_
  unfold State.switchReels
  extract_lets +onlyGivenNames v0 v1 s2 s3
  clear_value v0
  clear_value v1
  have hs2 : Tidy q m (s2) := by
    unfold s2
    refine putList_tidy _ _ _ _ ?_ ?_
    · assumption
    · intro a4 a5 a6 a7
      refine putReel_tidy _ _ _ ?_
      assumption
  clear_value s2
  have hs3 : Tidy q m (s3) := by
    unfold s3
    refine setFld_tidy _ _ _ _ ?_
    refine setFld_tidy _ _ _ _ ?_
    assumption
  clear_value s3
  refine raise_tidy _ _ _ ?_
  assumption

theorem switchRole_tidy : ∀ s im, Tidy q none s → Tidy q none (@State.switchRole s im) := by
  intro s im h0_
  unfold State.switchRole
  extract_lets +onlyGivenNames s0 s1
  have hs0 : Tidy q none (s0) := by
    unfold s0
    split
    · rename_i b2 b3
      refine setRole_tidy _ _ ?_
      assumption
    · rename_i b4 b5 b6
      refine startJoin_tidy _ ?_
      assumption
  clear_value s0
  have hs1 : Tidy q none (s1) := by
    unfold s1
    split
    · rename_i b7 b8 b9
      refine Tidy.ite ?_ ?_
      · refine doPeerIdentityReceive_tidy _ _ ?_
        assumption
      · assumption
    · rename_i b10 b11
      assumption
  clear_value s1
  refine gateGout_tidy _ ?_
  refine spnTwin_tidy _ ?_
  refine netActive_tidy _ ?_
  assumption

theorem switchWatchman_tidy : ∀ s im, Tidy q m s → Tidy q m (@State.switchWatchman s im) := by
  intro s im h0_
  unfold State.switchWatchman
  extract_lets +onlyGivenNames v0 s1 v2 s3
  clear_value v0
  have hs1 : Tidy q m (s1) := by
    unfold s1
    refine forEach_tidy _ _ _ _ ?_ ?_
    · assumption
    · intro a4 a5 a6
      refine setReg_tidy _ _ _ ?_
      assumption
  clear_value s1
  clear_value v2
  have hs3 : Tidy q m (s3) := by
    unfold s3
    refine Tidy.upd (s := s1) ?_ rfl rfl rfl rfl
    assumption
  clear_value s3
  extract_lets +onlyGivenNames s7
  have hs7 : Tidy q m (s7) := by
    unfold s7
    refine forEach_tidy _ _ _ _ ?_ ?_
    · assumption
    · intro a8 a9 a10
      refine setBit_tidy _ _ _ _ ?_
      assumption
  clear_value s7
  refine tripEval_tidy _ ?_
  refine wmOutputs_tidy _ ?_
  refine raise_tidy _ _ _ ?_
  refine setFld_tidy _ _ _ _ ?_
  assumption

theorem doAcqReelSwitch_tidy : ∀ s, Tidy q none s → Tidy q none (@doAcqReelSwitch s) := by
  intro s h0_
  unfold doAcqReelSwitch
  refine Tidy.ite ?_ ?_
  · assumption
  · split
    · rename_i b0 b1
      assumption
    · rename_i b2 b3 b4
      extract_lets +onlyGivenNames s5 v6 s7 s8
      have hs5 : Tidy q none (s5) := by
        unfold s5
        refine setFld_tidy _ _ _ _ ?_
        refine setFld_tidy _ _ _ _ ?_
        assumption
      clear_value s5
      clear_value v6
      have hs7 : Tidy q none (s7) := by
        unfold s7
        refine Tidy.upd (s := s5) ?_ rfl rfl rfl rfl
        assumption
      clear_value s7
      have hs8 : Tidy q none (s8) := by
        unfold s8
        refine lanesBegin_tidy _ ?_
        refine switchReels_tidy _ ?_
        refine switchOverlay_tidy _ ?_
        assumption
      clear_value s8
      extract_lets +onlyGivenNames s9
      have hs9 : Tidy q none (s9) := by
        unfold s9
        refine switchAlmanac_tidy _ ?_
        refine switchLogic_tidy _ ?_
        refine switchWatchman_tidy _ _ ?_
        refine switchChains_tidy _ ?_
        assumption
      clear_value s9
      refine protUp_tidy _ ?_
      refine rotSync_tidy _ ?_
      refine switchEngines_tidy _ ?_
      refine switchRole_tidy _ _ ?_
      assumption

theorem doEnginesLoaded_tidy : ∀ s, Tidy q none s → Tidy q none (@doEnginesLoaded s) := by
  intro s h0_
  unfold doEnginesLoaded
  refine Tidy.ite ?_ ?_
  · assumption
  · split
    · rename_i b0 b1
      assumption
    · rename_i b2 b3 b4
      split
      · rename_i b5 b6
        refine startFails_tidy _ _ ?_
        refine cfgFail_tidy _ _ _ _ ?_
        assumption
      · rename_i b7 b8 b9
        have h10 : Tidy q none (firstSlot (tryFw b3 b8) s (slotOrder b8.prefFw)).2 := by
          refine firstSlot_tidy _ _ _ _ ?_ ?_
          · intro a11 a12 a13
            refine tryFw_tidy _ _ _ _ ?_
            assumption
          · assumption
        split
        · rename_i b14 b15 b16
          have e17 : Tidy q none b15 := by rw [b16] at h10; exact h10
          refine startFails_tidy _ _ ?_
          assumption
        · rename_i b18 b19 b20 b21 b22
          have e23 : Tidy q none b21 := by rw [b22] at h10; exact h10
          have h24 : Tidy q none (firstSlot (tryImage b3 b8 b20) b21 (slotOrder b8.prefImage)).2 := by
            refine firstSlot_tidy _ _ _ _ ?_ ?_
            · intro a25 a26 a27
              refine tryImage_tidy _ _ _ _ _ ?_
              assumption
            · assumption
          split
          · rename_i b28 b29 b30
            have e31 : Tidy q none b29 := by rw [b30] at h24; exact h24
            refine startFails_tidy _ _ ?_
            assumption
          · rename_i b32 b33 b34 b35 b36
            have e37 : Tidy q none b35 := by rw [b36] at h24; exact h24
            extract_lets +onlyGivenNames v38
            clear_value v38
            refine startStep_tidy _ ?_
            refine setFld_tidy _ _ _ _ ?_
            refine loadImage_tidy _ _ _ _ _ ?_
            assumption

/-! ### Watch -/

theorem makeSave_tidy : ∀ s, Tidy q m s → Tidy q m (@State.makeSave s) := by
  intro s h0_
  unfold State.makeSave
  split
  · rename_i b0 b1 b2 b3 b4 b5
    refine Tidy.ite ?_ ?_
    · assumption
    · extract_lets +onlyGivenNames v6
      clear_value v6
      refine Tidy.upd (s := s) ?_ rfl rfl rfl rfl
      assumption
  · rename_i b7 b8 b9
    assumption

theorem enterWatchman_tidy : ∀ s, Tidy q m s → Tidy q m (@State.enterWatchman s) := by
  intro s h0_
  unfold State.enterWatchman
  extract_lets +onlyGivenNames s0 s1 s2 s3 v4
  have hs0 : Tidy q m (s0) := by
    unfold s0
    refine makeSave_tidy _ ?_
    refine netStop_tidy _ ?_
    refine Tidy.ite ?_ ?_
    · refine stopClaim_tidy _ ?_
      assumption
    · assumption
  clear_value s0
  have hs1 : Tidy q m (s1) := by
    unfold s1
    refine forEach_tidy _ _ _ _ ?_ ?_
    · assumption
    · intro a5 a6 a7
      refine setReg_tidy _ _ _ ?_
      assumption
  clear_value s1
  have hs2 : Tidy q m (s2) := by
    unfold s2
    refine setBit_tidy _ _ _ _ ?_
    refine setBit_tidy _ _ _ _ ?_
    refine setBit_tidy _ _ _ _ ?_
    assumption
  clear_value s2
  have hs3 : Tidy q m (s3) := by
    unfold s3
    refine setFld_tidy _ _ _ _ ?_
    refine setBit_tidy _ _ _ _ ?_
    refine setFld_tidy _ _ _ _ ?_
    assumption
  clear_value s3
  clear_value v4
  extract_lets +onlyGivenNames v8
  clear_value v8
  extract_lets +onlyGivenNames s9
  have hs9 : Tidy q m (s9) := by
    unfold s9
    refine Tidy.upd (s := s3) ?_ rfl rfl rfl rfl
    assumption
  clear_value s9
  refine raise_tidy _ _ _ ?_
  refine tripEval_tidy _ ?_
  assumption

theorem doPfwAssert_tidy : ∀ s, Tidy q m s → Tidy q m (@doPfwAssert s) := by
  intro s h0_
  unfold doPfwAssert
  refine Tidy.ite ?_ ?_
  · assumption
  · extract_lets +onlyGivenNames v0 v1
    clear_value v0
    clear_value v1
    extract_lets +onlyGivenNames v2 s3
    clear_value v2
    have hs3 : Tidy q m (s3) := by
      unfold s3
      refine Tidy.upd (s := s) ?_ rfl rfl rfl rfl
      assumption
    clear_value s3
    extract_lets +onlyGivenNames s4
    have hs4 : Tidy q m (s4) := by
      unfold s4
      refine ovlSync_tidy _ ?_
      assumption
    clear_value s4
    refine Tidy.ite ?_ ?_
    · refine netStop_tidy _ ?_
      refine stopClaim_tidy _ ?_
      assumption
    · assumption

theorem doWatchmanEntry_tidy : ∀ s, Tidy q m s → Tidy q m (@doWatchmanEntry s) := by
  intro s h0_
  unfold doWatchmanEntry
  refine Tidy.ite ?_ ?_
  · assumption
  · refine Tidy.ite ?_ ?_
    · refine enterWatchman_tidy _ ?_
      assumption
    · assumption

theorem doWatchmanExit_tidy : ∀ s, Tidy q none s → Tidy q none (@doWatchmanExit s) := by
  intro s h0_
  unfold doWatchmanExit
  refine Tidy.ite ?_ ?_
  · assumption
  · extract_lets +onlyGivenNames v0
    clear_value v0
    extract_lets +onlyGivenNames s1
    have hs1 : Tidy q none (s1) := by
      unfold s1
      refine Tidy.upd (s := s) ?_ rfl rfl rfl rfl
      assumption
    clear_value s1
    refine raise_tidy _ _ _ ?_
    refine restart_tidy _ _ ?_
    assumption

/-! ### Reeve -/

theorem setPoint_tidy : ∀ s c p, Tidy q m s → Tidy q m (@State.setPoint s c p) := by
  intro s c p h0_
  unfold State.setPoint
  refine Tidy.ite ?_ ?_
  · assumption
  · refine putCluster_tidy _ _ _ _ ?_
    assumption

theorem setRaised_tidy : ∀ s k t, Tidy q m s → Tidy q m (@State.setRaised s k t) := by
  intro s k t h0_
  unfold State.setRaised
  refine Tidy.upd (s := s) ?_ rfl rfl rfl rfl
  assumption

theorem clockReturn_tidy : ∀ s c, Tidy q m s → Tidy q m (@State.clockReturn s c) := by
  intro s c h0_
  unfold State.clockReturn
  refine setPoint_tidy _ _ _ ?_
  refine setRaised_tidy _ _ _ ?_
  assumption

theorem correctable_tidy : ∀ s e, Tidy q m s → Tidy q m (@State.correctable s e) := by
  intro s e h0_
  unfold State.correctable
  extract_lets +onlyGivenNames v0 v1
  clear_value v0
  clear_value v1
  extract_lets +onlyGivenNames s2
  have hs2 : Tidy q m (s2) := by
    unfold s2
    refine Tidy.upd (s := s) ?_ rfl rfl rfl rfl
    assumption
  clear_value s2
  refine Tidy.ite ?_ ?_
  · assumption
  · refine supFault_tidy _ _ _ ?_
    refine Tidy.upd (s := s2) ?_ rfl rfl rfl rfl
    assumption

theorem setThrottle_tidy : ∀ s k t, Tidy q m s → Tidy q m (@State.setThrottle s k t) := by
  intro s k t h0_
  unfold State.setThrottle
  refine Tidy.upd (s := s) ?_ rfl rfl rfl rfl
  assumption

theorem throttleDomain_tidy : ∀ s d, Tidy q m s → Tidy q m (@State.throttleDomain s d) := by
  intro s d h0_
  unfold State.throttleDomain
  extract_lets +onlyGivenNames v0
  clear_value v0
  refine Tidy.ite ?_ ?_
  · extract_lets +onlyGivenNames s1
    have hs1 : Tidy q m (s1) := by
      unfold s1
      refine supFault_tidy _ _ _ ?_
      assumption
    clear_value s1
    refine Tidy.ite ?_ ?_
    · assumption
    · refine setThrottle_tidy _ _ _ ?_
      assumption
  · refine Tidy.ite ?_ ?_
    · refine setThrottle_tidy _ _ _ ?_
      assumption
    · assumption

theorem throttleSync_tidy : ∀ s, Tidy q m s → Tidy q m (@State.throttleSync s) := by
  intro s h0_
  unfold State.throttleSync
  refine forEach_tidy _ _ _ _ ?_ ?_
  · assumption
  · intro a0 a1 a2
    extract_lets +onlyGivenNames v3
    clear_value v3
    split
    · rename_i b4 b5 b6
      refine setThrottle_tidy _ _ _ ?_
      assumption
    · rename_i b7 b8 b9 b10
      refine setPoint_tidy _ _ _ ?_
      refine setThrottle_tidy _ _ _ ?_
      assumption
    · rename_i b11 b12 b13 b14 b15
      assumption

theorem heat_tidy : ∀ s, Tidy q m s → Tidy q m (@State.heat s) := by
  intro s h0_
  unfold State.heat
  extract_lets +onlyGivenNames s0 s1 s2
  have hs0 : Tidy q m (s0) := by
    unfold s0
    refine forEach_tidy _ _ _ _ ?_ ?_
    · assumption
    · intro a3 a4 a5
      refine throttleDomain_tidy _ _ ?_
      assumption
  clear_value s0
  have hs1 : Tidy q m (s1) := by
    unfold s1
    refine forEach_tidy _ _ _ _ ?_ ?_
    · assumption
    · intro a6 a7 a8
      refine Tidy.ite ?_ ?_
      · refine supFault_tidy _ _ _ ?_
        assumption
      · assumption
  clear_value s1
  have hs2 : Tidy q m (s2) := by
    unfold s2
    refine setRaised_tidy _ _ _ ?_
    refine supFault_tidy _ _ _ ?_
    assumption
  clear_value s2
  extract_lets +onlyGivenNames s9
  have hs9 : Tidy q m (s9) := by
    unfold s9
    refine Tidy.ite ?_ ?_
    · refine forEach_tidy _ _ _ _ ?_ ?_
      · assumption
      · intro a10 a11 a12
        refine Tidy.ite ?_ ?_
        · refine clockReturn_tidy _ _ ?_
          assumption
        · assumption
    · refine Tidy.ite ?_ ?_
      · refine setRaised_tidy _ _ _ ?_
        assumption
      · assumption
  clear_value s9
  refine throttleSync_tidy _ ?_
  refine Tidy.ite ?_ ?_
  · refine supFault_tidy _ _ _ ?_
    assumption
  · assumption

theorem lateness_tidy : ∀ s b, Tidy q m s → Tidy q m (@State.lateness s b) := by
  intro s b h0_
  unfold State.lateness
  extract_lets +onlyGivenNames v0 v1 v2 v3 v4 s5
  clear_value v0
  clear_value v1
  have hv2 : ∀ x0 x1, Tidy q m x0 → Tidy q m (v2 x0 x1) := by
    intro a6 a7 a8
    unfold v2
    refine Tidy.upd (s := a6) ?_ rfl rfl rfl rfl
    assumption
  clear_value v2
  clear_value v3
  clear_value v4
  have hs5 : Tidy q m (s5) := by
    unfold s5
    split
    · rename_i b9 b10 b11 b12 b13 b14
      refine Tidy.ite ?_ ?_
      · refine setRaised_tidy _ _ _ ?_
        assumption
      · assumption
    · rename_i b15 b16 b17 b18
      assumption
  clear_value s5
  refine Tidy.ite ?_ ?_
  · refine migTrigger_tidy _ _ ?_
    refine supFault_tidy _ _ _ ?_
    refine hv2 _ _ ?_
    assumption
  · refine Tidy.ite ?_ ?_
    · refine setPoint_tidy _ _ _ ?_
      refine setRaised_tidy _ _ _ ?_
      refine setRaised_tidy _ _ _ ?_
      refine supFault_tidy _ _ _ ?_
      refine hv2 _ _ ?_
      assumption
    · refine hv2 _ _ ?_
      assumption

theorem noTarget_tidy : ∀ s cause engine, Tidy q m s → Tidy q m (@State.noTarget s cause engine) := by
  intro s cause engine h0_
  unfold State.noTarget
  refine setFld_tidy _ _ _ _ ?_
  refine setFld_tidy _ _ _ _ ?_
  refine setBit_tidy _ _ _ _ ?_
  assumption

theorem migrated_tidy : ∀ s cause engine, Tidy q m s → Tidy q m (@State.migrated s cause engine) := by
  intro s cause engine h0_
  unfold State.migrated
  extract_lets +onlyGivenNames v0 s1
  clear_value v0
  have hs1 : Tidy q m (s1) := by
    unfold s1
    refine Tidy.upd (s := s) ?_ rfl rfl rfl rfl
    assumption
  clear_value s1
  extract_lets +onlyGivenNames s2
  have hs2 : Tidy q m (s2) := by
    unfold s2
    refine setFld_tidy _ _ _ _ ?_
    refine setFld_tidy _ _ _ _ ?_
    refine incWrap_tidy _ _ _ ?_
    assumption
  clear_value s2
  refine raise_tidy _ _ _ ?_
  refine setBit_tidy _ _ _ _ ?_
  assumption

theorem replaced_tidy : ∀ s im, Tidy q m s → Tidy q m (@State.replaced s im) := by
  intro s im h0_
  unfold State.replaced
  extract_lets +onlyGivenNames v0 v1 v2 v3 s4 s5
  clear_value v0
  clear_value v1
  clear_value v2
  clear_value v3
  have hs4 : Tidy q m (s4) := by
    unfold s4
    refine setReg_tidy _ _ _ ?_
    assumption
  clear_value s4
  have hs5 : Tidy q m (s5) := by
    unfold s5
    refine forEach_tidy _ _ _ _ ?_ ?_
    · assumption
    · intro a6 a7 a8
      extract_lets +onlyGivenNames v9
      clear_value v9
      refine setFld_tidy _ _ _ _ ?_
      refine setFld_tidy _ _ _ _ ?_
      assumption
  clear_value s5
  refine forEach_tidy _ _ _ _ ?_ ?_
  · assumption
  · intro a10 a11 a12
    extract_lets +onlyGivenNames v13 v14
    clear_value v13
    clear_value v14
    refine Tidy.ite ?_ ?_
    · refine setReg_tidy _ _ _ ?_
      assumption
    · refine Tidy.ite ?_ ?_
      · refine putCluster_tidy _ _ _ _ ?_
        assumption
      · refine Tidy.ite ?_ ?_
        · refine setPoint_tidy _ _ _ ?_
          assumption
        · assumption

theorem migrateBay_tidy : ∀ s im cause b engines, Tidy q m s → Tidy q m (@State.migrateBay s im cause b engines) := by
  intro s im cause b engines h0_
  unfold State.migrateBay
  extract_lets +onlyGivenNames v0 v1
  clear_value v0
  clear_value v1
  split
  · rename_i b2 b3
    refine noTarget_tidy _ _ _ ?_
    assumption
  · rename_i b4 b5 b6
    extract_lets +onlyGivenNames s7 v8
    have hs7 : Tidy q m (s7) := by
      unfold s7
      refine setFld_tidy _ _ _ _ ?_
      assumption
    clear_value s7
    clear_value v8
    extract_lets +onlyGivenNames s9
    have hs9 : Tidy q m (s9) := by
      unfold s9
      refine Tidy.upd (s := s7) ?_ rfl rfl rfl rfl
      assumption
    clear_value s9
    refine migrated_tidy _ _ _ ?_
    refine replaced_tidy _ _ ?_
    assumption

theorem migrateTask_tidy : ∀ s im cause h, Tidy q m s → Tidy q m (@State.migrateTask s im cause h) := by
  intro s im cause h h0_
  unfold State.migrateTask
  split
  · rename_i b0 b1
    assumption
  · rename_i b2 b3 b4
    extract_lets +onlyGivenNames v5 v6
    clear_value v5
    clear_value v6
    split
    · rename_i b7 b8
      refine Tidy.ite ?_ ?_
      · refine noTarget_tidy _ _ _ ?_
        assumption
      · assumption
    · rename_i b9 b10 b11
      refine Tidy.ite ?_ ?_
      · assumption
      · extract_lets +onlyGivenNames v12 v13 v14
        clear_value v12
        clear_value v13
        clear_value v14
        split
        · rename_i b15 b16
          refine noTarget_tidy _ _ _ ?_
          assumption
        · rename_i b17 b18 b19
          extract_lets +onlyGivenNames v20 v21 v22 s23 s24 s25 v26
          clear_value v20
          clear_value v21
          clear_value v22
          have hs23 : Tidy q m (s23) := by
            unfold s23
            refine Tidy.upd (s := s) ?_ rfl rfl rfl rfl
            assumption
          clear_value s23
          have hs24 : Tidy q m (s24) := by
            unfold s24
            refine setReg_tidy _ _ _ ?_
            refine setReg_tidy _ _ _ ?_
            assumption
          clear_value s24
          have hs25 : Tidy q m (s25) := by
            unfold s25
            refine setReg_tidy _ _ _ ?_
            refine setReg_tidy _ _ _ ?_
            assumption
          clear_value s25
          clear_value v26
          extract_lets +onlyGivenNames v27
          clear_value v27
          extract_lets +onlyGivenNames s28
          have hs28 : Tidy q m (s28) := by
            unfold s28
            refine setHeddle_tidy _ _ _ ?_
            assumption
          clear_value s28
          refine migrated_tidy _ _ _ ?_
          refine setHeddle_tidy _ _ _ ?_
          assumption

theorem migrateGroup_tidy : ∀ s im cause p, Tidy q m s → Tidy q m (@State.migrateGroup s im cause p) := by
  intro s im cause p h0_
  unfold State.migrateGroup
  extract_lets +onlyGivenNames v0 v1
  clear_value v0
  clear_value v1
  split
  · rename_i b2 b3
    assumption
  · rename_i b4 b5 b6
    extract_lets +onlyGivenNames v7 v8
    clear_value v7
    clear_value v8
    split
    · rename_i b9 b10
      refine noTarget_tidy _ _ _ ?_
      assumption
    · rename_i b11 b12 b13
      refine migrated_tidy _ _ _ ?_
      refine forEach_tidy _ _ _ _ ?_ ?_
      · assumption
      · intro a14 a15 a16
        refine setFld_tidy _ _ _ _ ?_
        assumption

theorem migrateEngine_tidy : ∀ s im cause e engines, Tidy q m s → Tidy q m (@State.migrateEngine s im cause e engines) := by
  intro s im cause e engines h0_
  unfold State.migrateEngine
  refine Tidy.ite ?_ ?_
  · split
    · rename_i b0 b1 b2 b3
      refine migrateBay_tidy _ _ _ _ _ ?_
      assumption
    · rename_i b4 b5
      assumption
  · refine Tidy.ite ?_ ?_
    · refine migrateTask_tidy _ _ _ _ ?_
      assumption
    · refine Tidy.ite ?_ ?_
      · refine migrateGroup_tidy _ _ _ _ ?_
        assumption
      · refine noTarget_tidy _ _ _ ?_
        assumption

theorem serve_tidy : ∀ s im x2, Tidy q m s → Tidy q m (@State.serve s im x2) := by
  intro s im x2 h0_
  unfold State.serve
  extract_lets +onlyGivenNames v0 v1
  clear_value v0
  clear_value v1
  split
  · rename_i b2 b3 b4
    refine Tidy.ite ?_ ?_
    · refine migrateBay_tidy _ _ _ _ _ ?_
      assumption
    · assumption
  · rename_i b5 b6
    refine Tidy.ite ?_ ?_
    · refine noTarget_tidy _ _ _ ?_
      assumption
    · refine migrateEngine_tidy _ _ _ _ _ ?_
      assumption

theorem migrate_tidy : ∀ s im, Tidy q m s → Tidy q m (@State.migrate s im) := by
  intro s im h0_
  unfold State.migrate
  extract_lets +onlyGivenNames v0
  clear_value v0
  refine Tidy.ite ?_ ?_
  · assumption
  · split
    · rename_i b1 b2
      assumption
    · rename_i b3 b4 b5
      extract_lets +onlyGivenNames v6
      clear_value v6
      extract_lets +onlyGivenNames s7
      have hs7 : Tidy q m (s7) := by
        unfold s7
        refine Tidy.upd (s := s) ?_ rfl rfl rfl rfl
        assumption
      clear_value s7
      refine serve_tidy _ _ _ ?_
      assumption

theorem withdraw_tidy : ∀ s blk, Tidy q m s → Tidy q m (@State.withdraw s blk) := by
  intro s blk h0_
  unfold State.withdraw
  extract_lets +onlyGivenNames v0
  clear_value v0
  extract_lets +onlyGivenNames s1
  have hs1 : Tidy q m (s1) := by
    unfold s1
    refine Tidy.upd (s := s) ?_ rfl rfl rfl rfl
    assumption
  clear_value s1
  refine forEach_tidy _ _ _ _ ?_ ?_
  · assumption
  · intro a2 a3 a4
    refine forEach_tidy _ _ _ _ ?_ ?_
    · assumption
    · intro a5 a6 a7
      split
      · rename_i b8 b9 b10
        refine Tidy.ite ?_ ?_
        · refine recTrunc_tidy _ _ _ _ ?_
          assumption
        · assumption
      · rename_i b11 b12
        assumption

theorem doClusterClockReturn_tidy : ∀ c s, Tidy q m s → Tidy q m (@doClusterClockReturn c s) := by
  intro c s h0_
  unfold doClusterClockReturn
  split
  · rename_i b0 b1
    assumption
  · rename_i b2 b3 b4
    refine Tidy.ite ?_ ?_
    · assumption
    · refine clockReturn_tidy _ _ ?_
      assumption

theorem doClusterGateEnter_tidy : ∀ c s, Tidy q m s → Tidy q m (@doClusterGateEnter c s) := by
  intro c s h0_
  unfold doClusterGateEnter
  refine Tidy.ite ?_ ?_
  · assumption
  · refine Tidy.upd (s := s) ?_ rfl rfl rfl rfl
    assumption

theorem doClusterGateEntryDone_tidy : ∀ c s, Tidy q m s → Tidy q m (@doClusterGateEntryDone c s) := by
  intro c s h0_
  unfold doClusterGateEntryDone
  split
  · rename_i b0 b1
    assumption
  · rename_i b2 b3 b4
    refine Tidy.ite ?_ ?_
    · assumption
    · extract_lets +onlyGivenNames v5 s6
      clear_value v5
      have hs6 : Tidy q m (s6) := by
        unfold s6
        refine Tidy.upd (s := s) ?_ rfl rfl rfl rfl
        assumption
      clear_value s6
      extract_lets +onlyGivenNames s7
      have hs7 : Tidy q m (s7) := by
        unfold s7
        refine setFld_tidy _ _ _ _ ?_
        assumption
      clear_value s7
      refine Tidy.ite ?_ ?_
      · refine wakeNow_tidy _ _ ?_
        assumption
      · assumption

theorem doClusterWake_tidy : ∀ c s, Tidy q m s → Tidy q m (@doClusterWake c s) := by
  intro c s h0_
  unfold doClusterWake
  refine wakeFor_tidy _ _ ?_
  assumption

theorem doReeveCycle_tidy : ∀ x s, Tidy q m s → Tidy q m (@doReeveCycle x s) := by
  intro x s h0_
  unfold doReeveCycle
  refine Tidy.ite ?_ ?_
  · assumption
  · extract_lets +onlyGivenNames v0 v1
    clear_value v0
    clear_value v1
    extract_lets +onlyGivenNames s2 s3
    have hs2 : Tidy q m (s2) := by
      unfold s2
      refine Tidy.upd (s := s) ?_ rfl rfl rfl rfl
      assumption
    clear_value s2
    have hs3 : Tidy q m (s3) := by
      unfold s3
      refine forEach_tidy _ _ _ _ ?_ ?_
      · refine heat_tidy _ ?_
        refine putList_tidy _ _ _ _ ?_ ?_
        · assumption
        · intro a4 a5 a6 a7
          refine setFld_tidy _ _ _ _ ?_
          assumption
      · intro a8 a9 a10
        refine engineWrite_tidy _ _ _ ?_
        assumption
    clear_value s3
    split
    · rename_i b11 b12 b13 b14 b15 b16
      extract_lets +onlyGivenNames s17 s18
      have hs17 : Tidy q m (s17) := by
        unfold s17
        refine forEach_tidy _ _ _ _ ?_ ?_
        · assumption
        · intro a19 a20 a21
          refine supFault_tidy _ _ _ ?_
          assumption
      clear_value s17
      have hs18 : Tidy q m (s18) := by
        unfold s18
        refine forEach_tidy _ _ _ _ ?_ ?_
        · refine forEach_tidy _ _ _ _ ?_ ?_
          · assumption
          · intro a22 a23 a24
            refine lateness_tidy _ _ ?_
            assumption
        · intro a25 a26 a27
          refine correctable_tidy _ _ ?_
          assumption
      clear_value s18
      refine migrate_tidy _ _ ?_
      assumption
    · rename_i b28 b29 b30
      assumption

theorem doThermalThrottleStep_tidy : ∀ c s, Tidy q m s → Tidy q m (@doThermalThrottleStep c s) := by
  intro c s h0_
  unfold doThermalThrottleStep
  split
  · rename_i b0 b1
    assumption
  · rename_i b2 b3 b4
    refine Tidy.ite ?_ ?_
    · assumption
    · refine setPoint_tidy _ _ _ ?_
      refine setThrottle_tidy _ _ _ ?_
      assumption

theorem doEccErrorDetect_tidy : ∀ region engine uncorrectable s, Tidy q none s → Tidy q none (@doEccErrorDetect region engine uncorrectable s) := by
  intro region engine uncorrectable s h0_
  unfold doEccErrorDetect
  extract_lets +onlyGivenNames s0 v1 s2
  have hs0 : Tidy q none (s0) := by
    unfold s0
    refine supCount_tidy _ _ _ ?_
    assumption
  clear_value s0
  clear_value v1
  have hs2 : Tidy q none (s2) := by
    unfold s2
    refine Tidy.ite ?_ ?_
    · assumption
    · refine Tidy.upd (s := s0) ?_ rfl rfl rfl rfl
      assumption
  clear_value s2
  extract_lets +onlyGivenNames v3
  have hv3 : ∀ x0 x1 x2, Tidy q none x2 → Tidy q none (v3 x0 x1 x2) := by
    intro a4 a5 a6 a7
    unfold v3
    refine fatal_tidy _ ?_
    refine supFault_tidy _ _ _ ?_
    assumption
  clear_value v3
  split
  · rename_i b8 b9
    refine Tidy.upd (s := s2) ?_ rfl rfl rfl rfl
    assumption
  · rename_i b10 b11
    refine hv3 _ _ _ ?_
    refine setBit_tidy _ _ _ _ ?_
    assumption
  · rename_i b12 b13
    refine hv3 _ _ _ ?_
    refine setBit_tidy _ _ _ _ ?_
    assumption
  · rename_i b14 b15 b16
    refine supFault_tidy _ _ _ ?_
    refine withdraw_tidy _ _ ?_
    assumption
  · rename_i b17 b18
    refine hv3 _ _ _ ?_
    assumption
  · rename_i b19 b20
    refine hv3 _ _ _ ?_
    assumption
  · rename_i b21 b22
    refine hv3 _ _ _ ?_
    assumption
  · rename_i b23 b24 b25 b26 b27 b28 b29 b30 b31
    assumption

/-! ### HostOps -/

theorem acceptAct_tidy : ∀ s opc e a, Tidy q m s → Tidy q m (@State.acceptAct s opc e a).2 := by
  intro s opc e a h0_
  unfold State.acceptAct
  extract_lets +onlyGivenNames v0 s1
  clear_value v0
  have hs1 : Tidy q m (s1) := by
    unfold s1
    refine atApply_tidy _ _ ?_
    assumption
  clear_value s1
  dsimp only
  refine Tidy.ite ?_ ?_
  · refine plySend_tidy _ _ ?_
    assumption
  · assumption

theorem actorReply_tidy : ∀ s, Tidy q m s → Tidy q m (@State.actorReply s).2 := by
  intro s h0_
  unfold State.actorReply
  have h0 : Tidy q m (s.nextFree).2 := by
    refine nextFree_tidy _ ?_
    assumption
  split
  rename_i b1 b2 b3 b4
  have e5 : Tidy q m b3 := by rw [b4] at h0; exact h0
  have h6 : Tidy q m (b3.nextFree).2 := by
    refine nextFree_tidy _ ?_
    assumption
  split
  rename_i b7 b8 b9 b10
  have e11 : Tidy q m b9 := by rw [b10] at h6; exact h6
  have h12 : Tidy q m (b9.nextFree).2 := by
    refine nextFree_tidy _ ?_
    assumption
  split
  rename_i b13 b14 b15 b16
  have e17 : Tidy q m b15 := by rw [b16] at h12; exact h12
  have h18 : Tidy q m (b15.nextFree).2 := by
    refine nextFree_tidy _ ?_
    assumption
  split
  rename_i b19 b20 b21 b22
  have e23 : Tidy q m b21 := by rw [b22] at h18; exact h18
  extract_lets +onlyGivenNames v24
  clear_value v24
  split
  · rename_i b25
    dsimp only
    assumption
  · rename_i b26
    dsimp only
    assumption

theorem command_tidy : ∀ s ring opc free listed e f, Tidy q m s → (∀ y0, Tidy q m y0 → Tidy q m (f y0).2) →
    Tidy q m (@State.command s ring opc free listed e f) := by
  intro s ring opc free listed e f h hf
  unfold State.command
  refine Tidy.ite h ?_
  extract_lets s1
  have h1 : Tidy q m s1 := wakeFor_tidy _ _ (qTake_tidy _ _ h)
  have h2 := hf s1 h1
  refine Tidy.ite (respond_tidy _ _ h1) (Tidy.ite (respond_tidy _ _ h1) ?_)
  split
  · rename_i r s2 he
    rw [he] at h2
    exact respond_tidy _ _ h2
  · rename_i s2 he
    rw [he] at h2
    exact h2

theorem answer_tidy : ∀ s ring opc free listed e f, Tidy q m s → (∀ y0, Tidy q m y0 → Tidy q m (f y0).2) →
    Tidy q m (@State.answer s ring opc free listed e f) := by
  intro s ring opc free listed e f h hf
  exact command_tidy _ _ _ _ _ _ _ h (fun y hy => hf y hy)

theorem badAccess_tidy : ∀ s bar2 write off, Tidy q m s → Tidy q m (@State.badAccess s bar2 write off) := by
  intro s bar2 write off h0_
  unfold State.badAccess
  extract_lets +onlyGivenNames v0
  clear_value v0
  refine raise_tidy _ _ _ ?_
  refine supCount_tidy _ _ _ ?_
  refine setReg_tidy _ _ _ ?_
  assumption

theorem shared_tidy : ∀ s opc listed e f, Tidy q m s → (∀ y0, Tidy q m y0 → Tidy q m (f y0).2) → Tidy q m (@State.shared s opc listed e f) := by
  intro s opc listed e f h0_ h1_
  unfold State.shared
  refine answer_tidy _ _ _ _ _ _ _ ?_ ?_
  · assumption
  · intro a0 a1
    split
    · rename_i b2 b3
      refine h1_ _ ?_
      assumption
    · rename_i b4 b5
      refine actorReply_tidy _ ?_
      refine plySend_tidy _ _ ?_
      assumption
    · rename_i b6 b7
      dsimp only
      assumption

/-! ### Security -/

theorem q07Put_tidy : ∀ s e, Tidy q m s → Tidy q m (@State.q07Put s e) := by
  intro s e h0_
  unfold State.q07Put
  extract_lets +onlyGivenNames s0
  have hs0 : Tidy q m (s0) := by
    unfold s0
    refine qPost_tidy _ _ _ ?_
    assumption
  clear_value s0
  refine Tidy.ite ?_ ?_
  · refine raise_tidy _ _ _ ?_
    refine incWrap_tidy _ _ _ ?_
    assumption
  · assumption

theorem q07Drain_tidy : ∀ s a, Tidy q m s → Tidy q m (@State.q07Drain s a) := by
  intro s a
  induction a generalizing s with
  | zero => intro h; exact h
  | succ n ih =>
    intro h
    unfold State.q07Drain
    split
    · exact Tidy.ite h (ih _ (q07Put_tidy _ _ (Tidy.upd (s := s) h rfl rfl rfl rfl)))
    · exact h

theorem otpSet_tidy : ∀ s o n f, Tidy q none s → Tidy q none (@State.otpSet s o n f) := by
  intro s o n f h0_
  unfold State.otpSet
  refine forEach_tidy _ _ _ _ ?_ ?_
  · assumption
  · intro a0 a1 a2
    refine setOctet_tidy _ _ _ ?_
    assumption

theorem q07Post_tidy : ∀ s e, Tidy q m s → Tidy q m (@State.q07Post s e) := by
  intro s e h0_
  unfold State.q07Post
  refine Tidy.ite ?_ ?_
  · refine Tidy.upd (s := s) ?_ rfl rfl rfl rfl
    assumption
  · refine q07Put_tidy _ _ ?_
    assumption

theorem refuseToken_tidy : ∀ s ty cause tk, Tidy q m s → Tidy q m (@State.refuseToken s ty cause tk).2 := by
  intro s ty cause tk h0_
  unfold State.refuseToken
  dsimp only
  refine refuseObject_tidy _ _ _ ?_
  assumption

theorem startReport_tidy : ∀ s nonce host, Tidy q m s → Tidy q m (@State.startReport s nonce host) := by
  intro s nonce host h0_
  unfold State.startReport
  extract_lets +onlyGivenNames v0
  clear_value v0
  extract_lets +onlyGivenNames s1
  have hs1 : Tidy q m (s1) := by
    unfold s1
    refine Tidy.upd (s := s) ?_ rfl rfl rfl rfl
    assumption
  clear_value s1
  refine setBit_tidy _ _ _ _ ?_
  assumption

theorem tokenCommand_tidy :
    ∀ s opc ty own e tk check act, Tidy q m s → (∀ y0, Tidy q m y0 → Tidy q m (act y0)) → Tidy q m (@State.tokenCommand s opc ty own e tk check act) := by
  intro s opc ty own e tk check act h0_ h1_
  unfold State.tokenCommand
  refine answer_tidy _ _ _ _ _ _ _ ?_ ?_
  · assumption
  · intro a0 a1
    extract_lets +onlyGivenNames v2 v3
    clear_value v2
    clear_value v3
    split
    · rename_i b4
      dsimp only
      refine h1_ _ ?_
      assumption
    · rename_i b5
      refine refuseToken_tidy _ _ _ _ ?_
      assumption

theorem doAttest_tidy : ∀ e nonce s, Tidy q m s → Tidy q m (@doAttest e nonce s) := by
  intro e nonce s h0_
  unfold doAttest
  refine answer_tidy _ _ _ _ _ _ _ ?_ ?_
  · assumption
  · intro a0 a1
    split
    · rename_i b2
      dsimp only
      refine raise_tidy _ _ _ ?_
      refine incSatQuiet_tidy _ _ _ ?_
      assumption
    · rename_i b3
      split
      · rename_i b4
        dsimp only
        assumption
      · rename_i b5
        dsimp only
        refine startReport_tidy _ _ _ ?_
        assumption

theorem doAttestRefresh_tidy : ∀ s, Tidy q m s → Tidy q m (@doAttestRefresh s) := by
  intro s h0_
  unfold doAttestRefresh
  extract_lets +onlyGivenNames v0
  clear_value v0
  refine Tidy.ite ?_ ?_
  · assumption
  · extract_lets +onlyGivenNames v1
    clear_value v1
    extract_lets +onlyGivenNames s2
    have hs2 : Tidy q m (s2) := by
      unfold s2
      refine Tidy.upd (s := s) ?_ rfl rfl rfl rfl
      assumption
    clear_value s2
    refine Tidy.ite ?_ ?_
    · refine Tidy.upd (s := s2) ?_ rfl rfl rfl rfl
      assumption
    · refine startReport_tidy _ _ _ ?_
      assumption

theorem doAttestReportDone_tidy : ∀ s, Tidy q m s → Tidy q m (@doAttestReportDone s) := by
  intro s h0_
  unfold doAttestReportDone
  split
  · rename_i b0 b1
    assumption
  · rename_i b2 b3 b4 b5
    extract_lets +onlyGivenNames v6 s7 s8 s9 v10
    clear_value v6
    have hs7 : Tidy q m (s7) := by
      unfold s7
      refine Tidy.upd (s := s) ?_ rfl rfl rfl rfl
      assumption
    clear_value s7
    have hs8 : Tidy q m (s8) := by
      unfold s8
      refine Tidy.ite ?_ ?_
      · assumption
      · refine q07Post_tidy _ _ ?_
        assumption
    clear_value s8
    have hs9 : Tidy q m (s9) := by
      unfold s9
      refine q07Post_tidy _ _ ?_
      assumption
    clear_value s9
    clear_value v10
    extract_lets +onlyGivenNames v11 s12
    clear_value v11
    have hs12 : Tidy q m (s12) := by
      unfold s12
      refine Tidy.upd (s := s9) ?_ rfl rfl rfl rfl
      assumption
    clear_value s12
    extract_lets +onlyGivenNames s13
    have hs13 : Tidy q m (s13) := by
      unfold s13
      refine setBit_tidy _ _ _ _ ?_
      assumption
    clear_value s13
    refine Tidy.ite ?_ ?_
    · refine startReport_tidy _ _ _ ?_
      assumption
    · assumption

theorem doDebugBan_tidy : ∀ e tk s, Tidy q none s → Tidy q none (@doDebugBan e tk s) := by
  intro e tk s h0_
  unfold doDebugBan
  refine tokenCommand_tidy _ _ _ _ _ _ _ _ ?_ ?_
  · assumption
  · intro a0 a1
    refine raise_tidy _ _ _ ?_
    refine secSync_tidy _ ?_
    refine otpSet_tidy _ _ _ _ ?_
    assumption

theorem doDebugUnlock_tidy : ∀ e tk s, Tidy q m s → Tidy q m (@doDebugUnlock e tk s) := by
  intro e tk s h
  refine answer_tidy _ _ _ _ _ _ _ h (fun t ht => ?_)
  extract_lets c c1
  clear_value c1 c
  refine newChallenge_tidy _ ?_
  split
  · exact raise_tidy _ _ _ (setBit_tidy _ _ _ _ ht)
  · exact refuseToken_tidy _ _ _ _ ht

theorem doOwnerRevoke_tidy : ∀ e tk s, Tidy q none s → Tidy q none (@doOwnerRevoke e tk s) := by
  intro e tk s h0_
  unfold doOwnerRevoke
  refine tokenCommand_tidy _ _ _ _ _ _ _ _ ?_ ?_
  · assumption
  · intro a0 a1
    refine raise_tidy _ _ _ ?_
    refine secSync_tidy _ ?_
    refine otpSet_tidy _ _ _ _ ?_
    assumption

theorem doOwnerWrite_tidy : ∀ e tk s, Tidy q none s → Tidy q none (@doOwnerWrite e tk s) := by
  intro e tk s h0_
  unfold doOwnerWrite
  refine tokenCommand_tidy _ _ _ _ _ _ _ _ ?_ ?_
  · assumption
  · intro a0 a1
    extract_lets +onlyGivenNames v2 s3
    clear_value v2
    have hs3 : Tidy q none (s3) := by
      unfold s3
      refine otpSet_tidy _ _ _ _ ?_
      refine otpSet_tidy _ _ _ _ ?_
      assumption
    clear_value s3
    refine raise_tidy _ _ _ ?_
    refine secSync_tidy _ ?_
    refine otpSet_tidy _ _ _ _ ?_
    assumption

theorem doTelemetryPost_tidy : ∀ s, Tidy q m s → Tidy q m (@doTelemetryPost s) := by
  intro s h0_
  unfold doTelemetryPost
  extract_lets +onlyGivenNames v0
  clear_value v0
  refine Tidy.ite ?_ ?_
  · assumption
  · extract_lets +onlyGivenNames v1 v2 v3 v4 v5
    clear_value v1
    clear_value v2
    clear_value v3
    clear_value v4
    clear_value v5
    extract_lets +onlyGivenNames s6
    have hs6 : Tidy q m (s6) := by
      unfold s6
      refine Tidy.upd (s := s) ?_ rfl rfl rfl rfl
      assumption
    clear_value s6
    refine postOrDrop_tidy _ _ _ ?_
    assumption

/-! ### HostCmds -/

theorem hostTripReset_tidy : ∀ s c, Tidy q m s → Tidy q m (@State.hostTripReset s c).2 := by
  intro s c h0_
  unfold State.hostTripReset
  split
  · rename_i b0
    dsimp only
    assumption
  · rename_i b1
    have h2 : Tidy q m (s.channelReset c).2 := by
      refine channelReset_tidy _ _ ?_
      assumption
    split
    rename_i b3 b4 b5 b6
    have e7 : Tidy q m b5 := by rw [b6] at h2; exact h2
    split
    · rename_i b8
      have h9 : Tidy q m ((b5.plySend (PlyMsg.tripReset c)).nextFree).2 := by
        refine nextFree_tidy _ ?_
        refine plySend_tidy _ _ ?_
        assumption
      split
      rename_i b10 b11 b12 b13
      have e14 : Tidy q m b12 := by rw [b13] at h9; exact h9
      dsimp only
      assumption
    · rename_i b15
      dsimp only
      assumption

theorem hostForce_tidy : ∀ s e, Tidy q m s → Tidy q m (@State.hostForce s e).2 := by
  intro s e h
  unfold State.hostForce
  extract_lets area size addr
  split
  · exact h
  · split
    · exact h
    · split
      · exact h
      · exact acceptAct_tidy _ _ _ _ h

theorem hostOnline_tidy : ∀ s e, Tidy q m s → Tidy q m (@State.hostOnline s e).2 := by
  intro s e h0_
  unfold State.hostOnline
  extract_lets +onlyGivenNames v0 v1
  clear_value v0
  clear_value v1
  split
  · rename_i b2
    refine acceptAct_tidy _ _ _ _ ?_
    assumption
  · rename_i b3
    dsimp only
    refine raise_tidy _ _ _ ?_
    refine incSat_tidy _ _ _ _ _ ?_
    assumption

theorem hostOverlay_tidy : ∀ s k, Tidy q m s → Tidy q m (@State.hostOverlay s k).2 := by
  intro s k h
  have ho := ovlRequest_tidy s k 2 0 h
  unfold State.hostOverlay
  extract_lets t
  split
  · rename_i s1 he
    rw [he] at ho
    exact ho
  · rename_i s1 he
    rw [he] at ho
    exact ho

theorem forwarded_tidy : ∀ s opc e, Tidy q m s → ∀ t, @State.forwarded s opc e = some t → Tidy q m t.2 := by
  intro s opc e h r hr
  unfold State.forwarded at hr
  split at hr
  · obtain rfl := Option.some.inj hr
    split
    · exact h
    · exact hostTripReset_tidy _ _ h
  · obtain rfl := Option.some.inj hr
    exact hostForce_tidy _ _ h
  · obtain rfl := Option.some.inj hr
    split
    · exact h
    · exact acceptAct_tidy _ _ _ _ h
  · obtain rfl := Option.some.inj hr
    exact acceptAct_tidy _ _ _ _ h
  · obtain rfl := Option.some.inj hr
    exact hostOnline_tidy _ _ h
  · obtain rfl := Option.some.inj hr
    exact acceptAct_tidy _ _ _ _ h
  · obtain rfl := Option.some.inj hr
    exact acceptAct_tidy _ _ _ _ h
  · obtain rfl := Option.some.inj hr
    split
    · exact h
    · exact hostOverlay_tidy _ _ h
  · cases hr

theorem recordCommand_tidy :
    ∀ s opc e ok f, Tidy q m s → (∀ y0 y1, Tidy q m y1 → Tidy q m (f y0 y1)) → Tidy q m (@State.recordCommand s opc e ok f) := by
  intro s opc e ok f h0_ h1_
  unfold State.recordCommand
  refine answer_tidy _ _ _ _ _ _ _ ?_ ?_
  · assumption
  · intro a0 a1
    split
    · rename_i b2 b3 b4
      split
      · rename_i b5
        dsimp only
        refine h1_ _ _ ?_
        assumption
      · rename_i b6
        dsimp only
        assumption
    · rename_i b7 b8
      dsimp only
      assumption

theorem doCaptureAck_tidy : ∀ e s, Tidy q m s → Tidy q m (@doCaptureAck e s) := by
  intro e s h0_
  unfold doCaptureAck
  refine recordCommand_tidy _ _ _ _ _ ?_ ?_
  · assumption
  · intro a0 a1 a2
    refine setFld_tidy _ _ _ _ ?_
    assumption

theorem doCaptureLock_tidy : ∀ e s, Tidy q m s → Tidy q m (@doCaptureLock e s) := by
  intro e s h0_
  unfold doCaptureLock
  refine recordCommand_tidy _ _ _ _ _ ?_ ?_
  · assumption
  · intro a0 a1 a2
    refine setBit_tidy _ _ _ _ ?_
    assumption

theorem doCaptureTrigger_tidy : ∀ e s, Tidy q m s → Tidy q m (@doCaptureTrigger e s) := by
  intro e s h0_
  unfold doCaptureTrigger
  refine answer_tidy _ _ _ _ _ _ _ ?_ ?_
  · assumption
  · intro a0 a1
    split
    · rename_i b2
      dsimp only
      assumption
    · rename_i b3
      split
      · rename_i b4
        dsimp only
        assumption
      · rename_i b5
        dsimp only
        refine captureTrigger_tidy _ _ _ _ ?_
        assumption

theorem doCaptureUnlock_tidy : ∀ e s, Tidy q m s → Tidy q m (@doCaptureUnlock e s) := by
  intro e s h0_
  unfold doCaptureUnlock
  refine recordCommand_tidy _ _ _ _ _ ?_ ?_
  · assumption
  · intro a0 a1 a2
    refine setBit_tidy _ _ _ _ ?_
    assumption

theorem doEcho_tidy : ∀ e s, Tidy q m s → Tidy q m (@doEcho e s) := by
  intro e s h0_
  unfold doEcho
  refine answer_tidy _ _ _ _ _ _ _ ?_ ?_
  · assumption
  · intro a0 a1
    dsimp only
    assumption

theorem doForceClear_tidy : ∀ e s, Tidy q m s → Tidy q m (@doForceClear e s) := by
  intro e s h0_
  unfold doForceClear
  refine shared_tidy _ _ _ _ _ ?_ ?_
  · assumption
  · intro a0 a1
    split
    · rename_i b2
      dsimp only
      assumption
    · rename_i b3
      refine acceptAct_tidy _ _ _ _ ?_
      assumption

theorem doForceClearAll_tidy : ∀ e s, Tidy q m s → Tidy q m (@doForceClearAll e s) := by
  intro e s h0_
  unfold doForceClearAll
  refine shared_tidy _ _ _ _ _ ?_ ?_
  · assumption
  · intro a0 a1
    refine acceptAct_tidy _ _ _ _ ?_
    assumption

theorem doForceSet_tidy : ∀ e s, Tidy q m s → Tidy q m (@doForceSet e s) := by
  intro e s h0_
  unfold doForceSet
  refine shared_tidy _ _ _ _ _ ?_ ?_
  · assumption
  · intro a0 a1
    refine hostForce_tidy _ _ ?_
    assumption

theorem doForwardedCommandReceive_tidy : ∀ opc e t s, Tidy q m s → Tidy q m (@doForwardedCommandReceive opc e t s) := by
  intro opc e t s h0_
  unfold doForwardedCommandReceive
  refine Tidy.ite ?_ ?_
  · assumption
  · refine Tidy.ite ?_ ?_
    · have h0 : ∀ t, s.forwarded (BitVec.toNat opc) e = some t → Tidy q m t.2 := by
        refine forwarded_tidy _ _ _ ?_
        assumption
      split
      · rename_i b1 b2 b3 b4
        have e5 : Tidy q m b3 := h0 _ b4
        refine plySend_tidy _ _ ?_
        assumption
      · rename_i b6 b7
        assumption
    · refine Tidy.ite ?_ ?_
      · split
        · rename_i b8 b9 b10
          refine Tidy.upd (s := s) ?_ rfl rfl rfl rfl
          assumption
        · rename_i b11 b12
          assumption
      · assumption

theorem doLogicHold_tidy : ∀ e s, Tidy q m s → Tidy q m (@doLogicHold e s) := by
  intro e s h0_
  unfold doLogicHold
  refine answer_tidy _ _ _ _ _ _ _ ?_ ?_
  · assumption
  · intro a0 a1
    split
    · rename_i b2
      dsimp only
      assumption
    · rename_i b3
      split
      · rename_i b4
        dsimp only
        assumption
      · rename_i b5
        split
        · rename_i b6
          dsimp only
          refine raise_tidy _ _ _ ?_
          assumption
        · rename_i b7
          extract_lets +onlyGivenNames v8
          clear_value v8
          extract_lets +onlyGivenNames s9
          have hs9 : Tidy q m (s9) := by
            unfold s9
            refine Tidy.upd (s := a0) ?_ rfl rfl rfl rfl
            assumption
          clear_value s9
          dsimp only
          refine forEach_tidy _ _ _ _ ?_ ?_
          · assumption
          · intro a10 a11 a12
            refine breakCheck_tidy _ _ ?_
            assumption

theorem doLogicRun_tidy : ∀ e s, Tidy q m s → Tidy q m (@doLogicRun e s) := by
  intro e s h0_
  unfold doLogicRun
  refine shared_tidy _ _ _ _ _ ?_ ?_
  · assumption
  · intro a0 a1
    refine acceptAct_tidy _ _ _ _ ?_
    assumption

theorem doLogicStop_tidy : ∀ e s, Tidy q m s → Tidy q m (@doLogicStop e s) := by
  intro e s h0_
  unfold doLogicStop
  refine shared_tidy _ _ _ _ _ ?_ ?_
  · assumption
  · intro a0 a1
    refine acceptAct_tidy _ _ _ _ ?_
    assumption

theorem doOnlineSet_tidy : ∀ e s, Tidy q m s → Tidy q m (@doOnlineSet e s) := by
  intro e s h0_
  unfold doOnlineSet
  refine shared_tidy _ _ _ _ _ ?_ ?_
  · assumption
  · intro a0 a1
    refine hostOnline_tidy _ _ ?_
    assumption

theorem doOverlaySet_tidy : ∀ e s, Tidy q m s → Tidy q m (@doOverlaySet e s) := by
  intro e s h0_
  unfold doOverlaySet
  refine shared_tidy _ _ _ _ _ ?_ ?_
  · assumption
  · intro a0 a1
    split
    · rename_i b2
      dsimp only
      assumption
    · rename_i b3
      refine hostOverlay_tidy _ _ ?_
      assumption

theorem doPeerOverlayReceive_tidy : ∀ k src t s, Tidy q m s → Tidy q m (@doPeerOverlayReceive k src t s) := by
  intro k src t s h0_
  unfold doPeerOverlayReceive
  refine Tidy.ite ?_ ?_
  · extract_lets +onlyGivenNames v0
    clear_value v0
    refine ovlSync_tidy _ ?_
    refine Tidy.upd (s := s) ?_ rfl rfl rfl rfl
    assumption
  · assumption

theorem doPeerTripResetReceive_tidy : ∀ c s, Tidy q m s → Tidy q m (@doPeerTripResetReceive c s) := by
  intro c s h0_
  unfold doPeerTripResetReceive
  refine Tidy.ite ?_ ?_
  · have h0 : Tidy q m (s.channelReset c).2 := by
      refine channelReset_tidy _ _ ?_
      assumption
    split
    rename_i b1 b2 b3 b4
    have e5 : Tidy q m b3 := by rw [b4] at h0; exact h0
    refine Tidy.ite ?_ ?_
    · refine plySend_tidy _ _ ?_
      assumption
    · assumption
  · assumption

theorem doPlyYield_tidy : ∀ e s, Tidy q m s → Tidy q m (@doPlyYield e s) := by
  intro e s h0_
  unfold doPlyYield
  refine answer_tidy _ _ _ _ _ _ _ ?_ ?_
  · assumption
  · intro a0 a1
    split
    · rename_i b2
      dsimp only
      refine stopClaim_tidy _ ?_
      assumption
    · rename_i b3
      dsimp only
      assumption

theorem doRestart_tidy : ∀ e s, Tidy q m s → Tidy q m (@doRestart e s) := by
  intro e s h0_
  unfold doRestart
  refine answer_tidy _ _ _ _ _ _ _ ?_ ?_
  · assumption
  · intro a0 a1
    dsimp only
    refine Tidy.upd (s := a0) ?_ rfl rfl rfl rfl
    assumption

theorem doTrackerReset_tidy : ∀ e s, Tidy q m s → Tidy q m (@doTrackerReset e s) := by
  intro e s h0_
  unfold doTrackerReset
  refine answer_tidy _ _ _ _ _ _ _ ?_ ?_
  · assumption
  · intro a0 a1
    split
    · rename_i b2
      dsimp only
      assumption
    · rename_i b3
      dsimp only
      refine trackerReset_tidy _ _ ?_
      assumption

theorem doTripReset_tidy : ∀ e s, Tidy q m s → Tidy q m (@doTripReset e s) := by
  intro e s h0_
  unfold doTripReset
  extract_lets +onlyGivenNames v0
  clear_value v0
  refine Tidy.ite ?_ ?_
  · refine answer_tidy _ _ _ _ _ _ _ ?_ ?_
    · assumption
    · intro a1 a2
      split
      · rename_i b3
        dsimp only
        assumption
      · rename_i b4
        dsimp only
        assumption
  · refine shared_tidy _ _ _ _ _ ?_ ?_
    · assumption
    · intro a5 a6
      split
      · rename_i b7
        dsimp only
        assumption
      · rename_i b8
        refine hostTripReset_tidy _ _ ?_
        assumption

theorem doUrgentConvert_tidy : ∀ e s, Tidy q m s → Tidy q m (@doUrgentConvert e s) := by
  intro e s h0_
  unfold doUrgentConvert
  refine command_tidy _ _ _ _ _ _ _ ?_ ?_
  · assumption
  · intro a0 a1
    extract_lets +onlyGivenNames v2
    clear_value v2
    have h3 : Tidy q m (a0.urgentRequest v2 (par e.p0 20 16)).2 := by
      refine urgentRequest_tidy _ _ _ ?_
      assumption
    split
    · rename_i b4 b5 b6
      have e7 : Tidy q m b5 := by rw [b6] at h3; exact h3
      dsimp only
      assumption
    · rename_i b8 b9 b10
      have e11 : Tidy q m b9 := by rw [b10] at h3; exact h3
      dsimp only
      assumption
    · rename_i b12 b13 b14
      have e15 : Tidy q m b13 := by rw [b14] at h3; exact h3
      dsimp only
      assumption

theorem doLogicStep_tidy : ∀ e s, Tidy q none s → Tidy q none (doLogicStep e s) := by
  intro e s h
  refine answer_tidy _ _ _ _ _ _ _ h (fun t ht => ?_)
  extract_lets k
  split
  · exact ht
  · exact logicStepOne_tidy _ _ ht

/-! ### HostRegs -/

theorem badPointer_tidy : ∀ s a, Tidy q m s → Tidy q m (@State.badPointer s a) := by
  intro s a h0_
  unfold State.badPointer
  refine badAccess_tidy _ _ _ _ ?_
  assumption

theorem doKaOnVbatClear_tidy : ∀ v s, Tidy q m s → Tidy q m (@doKaOnVbatClear v s) := by
  intro v s h0_
  unfold doKaOnVbatClear
  refine Tidy.ite ?_ ?_
  · refine setBit_tidy _ _ _ _ ?_
    assumption
  · assumption

theorem doHstEvtPendWrite_tidy : ∀ k v s, Tidy q m s → Tidy q m (@doHstEvtPendWrite k v s) := by
  intro k v s h0_
  unfold doHstEvtPendWrite
  refine setReg_tidy _ _ _ ?_
  assumption

theorem doHstEvtMaskWrite_tidy : ∀ k v s, Tidy q m s → Tidy q m (@doHstEvtMaskWrite k v s) := by
  intro k v s h0_
  unfold doHstEvtMaskWrite
  extract_lets +onlyGivenNames v0
  clear_value v0
  refine forEach_tidy _ _ _ _ ?_ ?_
  · refine setReg_tidy _ _ _ ?_
    assumption
  · intro a1 a2 a3
    refine msix_tidy _ _ ?_
    assumption

theorem respDrain_tidy : ∀ s a, Tidy q m s → Tidy q m (@State.respDrain s a) := by
  intro s a
  induction a generalizing s with
  | zero => intro h; exact h
  | succ n ih =>
    intro h
    unfold State.respDrain
    split
    · exact Tidy.ite h (ih _ (qPost_tidy _ _ _ (Tidy.upd (s := s) h rfl rfl rfl rfl)))
    · exact h

theorem doHstQHeadWrite_tidy : ∀ r v s, Tidy q m s → Tidy q m (@doHstQHeadWrite r v s) := by
  intro r v s h0_
  unfold doHstQHeadWrite
  extract_lets +onlyGivenNames v0 v1 v2
  clear_value v0
  clear_value v1
  clear_value v2
  refine Tidy.ite ?_ ?_
  · extract_lets +onlyGivenNames s3
    have hs3 : Tidy q m (s3) := by
      unfold s3
      refine setFld_tidy _ _ _ _ ?_
      assumption
    clear_value s3
    refine Tidy.ite ?_ ?_
    · refine respDrain_tidy _ _ ?_
      assumption
    · refine Tidy.ite ?_ ?_
      · refine q07Drain_tidy _ _ ?_
        assumption
      · assumption
  · refine badPointer_tidy _ _ ?_
    assumption

theorem doHstQTailWrite_tidy : ∀ r v s, Tidy q m s → Tidy q m (@doHstQTailWrite r v s) := by
  intro r v s h0_
  unfold doHstQTailWrite
  extract_lets +onlyGivenNames v0 v1 v2 v3
  clear_value v0
  clear_value v1
  clear_value v2
  clear_value v3
  refine Tidy.ite ?_ ?_
  · refine wakeFor_tidy _ _ ?_
    refine setFld_tidy _ _ _ _ ?_
    assumption
  · refine badPointer_tidy _ _ ?_
    assumption

theorem msixWrite_tidy : ∀ s off v, Tidy q m s → Tidy q m (@State.msixWrite s off v) := by
  intro s off v h0_
  unfold State.msixWrite
  extract_lets +onlyGivenNames s0 v1
  have hs0 : Tidy q m (s0) := by
    unfold s0
    refine setReg_tidy _ _ _ ?_
    assumption
  clear_value s0
  clear_value v1
  refine Tidy.ite ?_ ?_
  · refine msix_tidy _ _ ?_
    refine setBit_tidy _ _ _ _ ?_
    assumption
  · assumption

theorem barWrite_tidy : ∀ s off v, Tidy q m s → Tidy q m (@State.barWrite s off v) := by
  intro s off v h0_
  unfold State.barWrite
  refine Tidy.ite ?_ ?_
  · refine setReg_tidy _ _ _ ?_
    assumption
  · refine Tidy.ite ?_ ?_
    · refine doAlmCurWrite_tidy _ _ ?_
      assumption
    · refine Tidy.ite ?_ ?_
      · refine doKaOnVbatClear_tidy _ _ ?_
        assumption
      · split
        · rename_i b0 b1 b2 b3 b4 b5
          refine doHstEvtPendWrite_tidy _ _ _ ?_
          assumption
        · rename_i b6 b7 b8 b9 b10 b11 b12
          refine doHstEvtMaskWrite_tidy _ _ _ ?_
          assumption
        · rename_i b13 b14 b15 b16 b17 b18 b19 b20
          refine doHstQHeadWrite_tidy _ _ _ ?_
          assumption
        · rename_i b21 b22 b23 b24 b25 b26 b27 b28 b29
          refine doHstQTailWrite_tidy _ _ _ ?_
          assumption
        · rename_i b30 b31 b32 b33 b34 b35 b36 b37
          refine Tidy.ite ?_ ?_
          · refine msixWrite_tidy _ _ _ ?_
            assumption
          · refine badAccess_tidy _ _ _ _ ?_
            assumption

theorem hostAccess_tidy : ∀ s f, Tidy q m s → (∀ y0, Tidy q m y0 → Tidy q m (f y0)) → Tidy q m (@State.hostAccess s f) := by
  intro s f h0_ h1_
  unfold State.hostAccess
  refine Tidy.ite ?_ ?_
  · refine awake_tidy _ _ ?_ ?_
    · assumption
    · intro a0 a1
      refine h1_ _ ?_
      assumption
  · assumption

theorem hostRead_tidy : ∀ s a, Tidy q m s → Tidy q m (@State.hostRead s a) := by
  intro s a h0_
  unfold State.hostRead
  refine Tidy.upd (s := s) ?_ rfl rfl rfl rfl
  assumption

theorem readLatch_tidy : ∀ s a n, Tidy q m s → Tidy q m (@State.readLatch s a n) := by
  intro s a n h0_
  unfold State.readLatch
  refine latchRange_tidy _ _ _ ?_
  refine hostRead_tidy _ _ ?_
  assumption

theorem doAccSeqRead_tidy : ∀ x s, Tidy q m s → Tidy q m (@doAccSeqRead x s) := by
  intro x s h0_
  unfold doAccSeqRead
  refine readLatch_tidy _ _ _ ?_
  assumption

theorem doBadHostRead_tidy : ∀ bar2 off width s, Tidy q m s → Tidy q m (@doBadHostRead bar2 off width s) := by
  intro bar2 off width s h0_
  unfold doBadHostRead
  refine Tidy.ite ?_ ?_
  · refine badAccess_tidy _ _ _ _ ?_
    refine Tidy.upd (s := s) ?_ rfl rfl rfl rfl
    assumption
  · assumption

theorem doBinTsLoRead_tidy : ∀ i s, Tidy q m s → Tidy q m (@doBinTsLoRead i s) := by
  intro i s h0_
  unfold doBinTsLoRead
  refine readLatch_tidy _ _ _ ?_
  assumption

theorem doBstatRead_tidy : ∀ b s, Tidy q m s → Tidy q m (@doBstatRead b s) := by
  intro b s h0_
  unfold doBstatRead
  refine latchRange_tidy _ _ _ ?_
  refine readLatch_tidy _ _ _ ?_
  assumption

theorem doCflStatRead_tidy : ∀ b s, Tidy q m s → Tidy q m (@doCflStatRead b s) := by
  intro b s h0_
  unfold doCflStatRead
  refine readLatch_tidy _ _ _ ?_
  assumption

theorem doFrmcntLoRead_tidy : ∀ b s, Tidy q m s → Tidy q m (@doFrmcntLoRead b s) := by
  intro b s h0_
  unfold doFrmcntLoRead
  refine readLatch_tidy _ _ _ ?_
  assumption

theorem doLasttoLoRead_tidy : ∀ s, Tidy q m s → Tidy q m (@doLasttoLoRead s) := by
  intro s h0_
  unfold doLasttoLoRead
  refine readLatch_tidy _ _ _ ?_
  assumption

theorem doMeasFrmRead_tidy : ∀ b s, Tidy q m s → Tidy q m (@doMeasFrmRead b s) := by
  intro b s h0_
  unfold doMeasFrmRead
  refine readLatch_tidy _ _ _ ?_
  assumption

theorem doMotStatRead_tidy : ∀ b s, Tidy q m s → Tidy q m (@doMotStatRead b s) := by
  intro b s h0_
  unfold doMotStatRead
  refine readLatch_tidy _ _ _ ?_
  assumption

theorem doOvlTLoRead_tidy : ∀ s, Tidy q m s → Tidy q m (@doOvlTLoRead s) := by
  intro s h0_
  unfold doOvlTLoRead
  refine readLatch_tidy _ _ _ ?_
  assumption

theorem doPcieLinkChange_tidy : ∀ up speed width s, Tidy q m s → Tidy q m (@doPcieLinkChange up speed width s) := by
  intro up speed width s h0_
  unfold doPcieLinkChange
  refine Tidy.ite ?_ ?_
  · assumption
  · refine setFld_tidy _ _ _ _ ?_
    refine setFld_tidy _ _ _ _ ?_
    refine setBit_tidy _ _ _ _ ?_
    assumption

theorem doRegisterWriteOther_tidy : ∀ bar2 off width v s, Tidy q m s → Tidy q m (@doRegisterWriteOther bar2 off width v s) := by
  intro bar2 off width v s h0_
  unfold doRegisterWriteOther
  refine Tidy.ite ?_ ?_
  · refine badAccess_tidy _ _ _ _ ?_
    assumption
  · refine Tidy.ite ?_ ?_
    · refine Tidy.ite ?_ ?_
      · refine Tidy.upd (s := s) ?_ rfl rfl rfl rfl
        assumption
      · refine badAccess_tidy _ _ _ _ ?_
        assumption
    · refine barWrite_tidy _ _ _ ?_
      assumption

theorem doTimNowLoRead_tidy : ∀ s, Tidy q m s → Tidy q m (@doTimNowLoRead s) := by
  intro s h0_
  unfold doTimNowLoRead
  refine readLatch_tidy _ _ _ ?_
  assumption

theorem doTrkMinRead_tidy : ∀ x s, Tidy q m s → Tidy q m (@doTrkMinRead x s) := by
  intro x s h0_
  unfold doTrkMinRead
  refine readLatch_tidy _ _ _ ?_
  assumption

theorem doTrkStatRead_tidy : ∀ x s, Tidy q m s → Tidy q m (@doTrkStatRead x s) := by
  intro x s h0_
  unfold doTrkStatRead
  extract_lets +onlyGivenNames s0
  have hs0 : Tidy q m (s0) := by
    unfold s0
    refine hostRead_tidy _ _ ?_
    assumption
  clear_value s0
  refine Tidy.ite ?_ ?_
  · refine trackerReset_tidy _ _ ?_
    assumption
  · assumption

/-! ### Tick -/

theorem ageTick_tidy : ∀ s, Tidy q m s → Tidy q m (@State.ageTick s) := by
  intro s h0_
  unfold State.ageTick
  refine Tidy.ite ?_ ?_
  · assumption
  · refine forEach_tidy _ _ _ _ ?_ ?_
    · assumption
    · intro a0 a1 a2
      split
      · rename_i b3 b4 b5
        refine setFld_tidy _ _ _ _ ?_
        assumption
      · rename_i b6 b7
        assumption

theorem clockTick_tidy : ∀ s, Tidy q m s → Tidy q m (@State.clockTick s) := by
  intro s h0_
  unfold State.clockTick
  extract_lets +onlyGivenNames v0 v1 v2
  clear_value v0
  clear_value v1
  clear_value v2
  refine setReg64_tidy _ _ _ _ ?_
  refine Tidy.upd (s := s) ?_ rfl rfl rfl rfl
  assumption

theorem holdTick_tidy : ∀ s, Tidy q m s → Tidy q m (@State.holdTick s) := by
  intro s h0_
  unfold State.holdTick
  split
  · rename_i b0 b1 b2
    refine Tidy.ite ?_ ?_
    · refine setReg_tidy _ _ _ ?_
      assumption
    · assumption
  · rename_i b3 b4
    assumption

theorem loadTick_tidy : ∀ s, Tidy q m s → Tidy q m (@State.loadTick s) := by
  intro s h0_
  unfold State.loadTick
  refine forEach_tidy _ _ _ _ ?_ ?_
  · assumption
  · intro a0 a1 a2
    extract_lets +onlyGivenNames v3 v4
    clear_value v3
    clear_value v4
    refine Tidy.ite ?_ ?_
    · refine Tidy.ite ?_ ?_
      · assumption
      · refine setHeddle_tidy _ _ _ ?_
        assumption
    · extract_lets +onlyGivenNames s5 s6
      have hs5 : Tidy q m (s5) := by
        unfold s5
        refine setFld_tidy _ _ _ _ ?_
        assumption
      clear_value s5
      have hs6 : Tidy q m (s6) := by
        unfold s6
        refine Tidy.ite ?_ ?_
        · assumption
        · refine setFld_tidy _ _ _ _ ?_
          assumption
      clear_value s6
      refine setHeddle_tidy _ _ _ ?_
      assumption

theorem msixTick_tidy : ∀ s, Tidy q m s → Tidy q m (@State.msixTick s) := by
  intro s h0_
  unfold State.msixTick
  refine Tidy.upd (s := s) ?_ rfl rfl rfl rfl
  assumption

theorem opTick_tidy : ∀ s, Tidy q m s → Tidy q m (@State.opTick s) := by
  intro s h0_
  unfold State.opTick
  refine Tidy.ite ?_ ?_
  · refine Tidy.upd (s := s) ?_ rfl rfl rfl rfl
    assumption
  · extract_lets +onlyGivenNames v0
    clear_value v0
    extract_lets +onlyGivenNames s1
    have hs1 : Tidy q m (s1) := by
      unfold s1
      refine Tidy.upd (s := s) ?_ rfl rfl rfl rfl
      assumption
    clear_value s1
    refine incSat_tidy _ _ _ _ _ ?_
    assumption

theorem rampTick_tidy : ∀ s, Tidy q m s → Tidy q m (@State.rampTick s) := by
  intro s h0_
  unfold State.rampTick
  refine Tidy.ite ?_ ?_
  · assumption
  · refine setReg_tidy _ _ _ ?_
    assumption

theorem spinTick_tidy : ∀ s, Tidy q m s → Tidy q m (@State.spinTick s) := by
  intro s h0_
  unfold State.spinTick
  refine Tidy.ite ?_ ?_
  · assumption
  · refine forEach_tidy _ _ _ _ ?_ ?_
    · assumption
    · intro a0 a1 a2
      have h3 : Tidy q m (a1.nextFree).2 := by
        refine nextFree_tidy _ ?_
        assumption
      split
      rename_i b4 b5 b6 b7
      have e8 : Tidy q m b6 := by rw [b7] at h3; exact h3
      refine setFld_tidy _ _ _ _ ?_
      assumption

theorem powerTick_tidy : ∀ s, Tidy q m s → Tidy q m (@State.powerTick s) := by
  intro s h0_
  unfold State.powerTick
  extract_lets +onlyGivenNames s0
  have hs0 : Tidy q m (s0) := by
    unfold s0
    refine msixTick_tidy _ ?_
    refine opTick_tidy _ ?_
    refine holdTick_tidy _ ?_
    refine rampTick_tidy _ ?_
    refine clockTick_tidy _ ?_
    assumption
  clear_value s0
  refine Tidy.ite ?_ ?_
  · assumption
  · refine plyTick_tidy _ ?_
    refine capTick_tidy _ ?_
    refine boundaryTick_tidy _ ?_
    refine svTick_tidy _ ?_
    refine netTick_tidy _ ?_
    refine spinTick_tidy _ ?_
    refine loadTick_tidy _ ?_
    refine ageTick_tidy _ ?_
    assumption

theorem tick_tidy : ∀ s, Tidy q m s → Tidy q m (@State.tick s) := by
  intro s h0_
  unfold State.tick
  extract_lets +onlyGivenNames v0
  clear_value v0
  extract_lets +onlyGivenNames s1
  have hs1 : Tidy q m (s1) := by
    unfold s1
    refine Tidy.upd (s := s) ?_ rfl rfl rfl rfl
    assumption
  clear_value s1
  refine Tidy.ite ?_ ?_
  · refine powerTick_tidy _ ?_
    assumption
  · assumption

end Sys2Proof.Laws
end

