-- ==== Sys2Proof/WellFormed.lean ====
section
/-! DEFINITION. Well-formed commands: the operands' values that the device can meet. The meanings are defined for every operand; these are
the ranges outside which an operand stands for nothing. -/

namespace Sys2Proof

/-- An 18-bit converter code (R30). -/
def codeOk (c : Int) : Bool := decide (-131072 ≤ c) && decide (c ≤ 131071)

/-- A sum of `n` converter codes lies within its range. -/
def sumOk (n : Nat) (c : Int) : Bool := decide (-131072 * (n : Int) ≤ c) && decide (c ≤ 131071 * (n : Int))

/-- What one calibration measured: sums at four gains, the ramp's 4,096 steps, and an 8-bit temperature (R71). -/
def CalResult.ok (r : CalResult) : Bool :=
  [r.agnd, r.dacLow, r.dacHigh].all (fun l => l.length == 4 && l.all (sumOk 1024)) && r.agndSq.length == 4 && sumOk 1024 r.vref &&
    r.ramp.length == 4096 && r.ramp.all (sumOk 14) && decide (-128 ≤ r.temp) && decide (r.temp ≤ 127)

/-- The repeats of an entry (R41). -/
def repeatsOk (n : Nat) : Bool := [1, 2, 4, 8, 16, 32, 64].contains n

/-- A conversion: as many codes as a lane entry may repeat, all within the converter's range. -/
def LaneIn.ok (d : LaneIn) : Bool :=
  repeatsOk d.codes.length && d.codes.all codeOk && d.xck.all codeOk && d.shadow.all codeOk && d.xckShadow.all codeOk

/-- A directory has two slots of each kind (R417). -/
def Directory.ok (d : Directory) : Bool := d.fwSlots.length == 2 && d.imgSlots.length == 2

/-- Boot memory (R415). -/
def Boot.ok (m : Boot) : Bool := m.dir0.ok && m.dir1.ok

/-- Power-good: media 0 none, 1 MRAM, 2 FRAM, 3 NOR (R404). -/
def PowerIn.ok (p : PowerIn) : Bool := p.boot.ok && Nat.ble p.keepMedia 3

/-- A received GOOSE message: its stated length of life fits 32 bits (R333). -/
def GooseMsg.ok (m : GooseMsg) : Bool := Nat.blt m.tal (2 ^ 32) && Nat.blt m.appid (2 ^ 16)

/-- A received sampled-value frame: counters and synchronisation fit their fields, eight channels (R344). -/
def SvMsg.ok (m : SvMsg) : Bool :=
  Nat.blt m.appid (2 ^ 16) && m.asdus.all (fun a => Nat.blt a.smpCnt (2 ^ 16) && Nat.blt a.smpSynch 256 && a.chans.length == 8)

/-- A Hank PDU: type and module number are octets, the payload fits an Ethernet frame (R346). -/
def HankPdu.ok (p : HankPdu) : Bool := Nat.blt p.typ 256 && Nat.blt p.m 256 && Nat.ble p.payload.length 1480

/-- An Announce: clockClass, clockAccuracy and stepsRemoved fit their fields (R307). -/
def PtpAnnounce.ok (m : PtpAnnounce) : Bool :=
  Nat.blt m.clockClass 256 && Nat.blt m.accuracy 256 && Nat.blt m.stepsRemoved (2 ^ 16) && Nat.blt m.domain 256

/-- Loop values: signed 32-bit words and a mode of three bits (R287). -/
def LoopValues.ok (v : LoopValues) : Bool := Nat.blt v.mode 8 && decide (-2147483648 ≤ v.out) && decide (v.out ≤ 2147483647)

/-- What the peer sends of itself: a role code (R370). -/
def PeerIdentity.ok (p : PeerIdentity) : Bool := Nat.ble p.role 4 || p.role == 7

/-- A token's slots fit an octet, its type a 16-bit field (R462). -/
def Token.ok (t : Token) : Bool := Nat.blt t.signSlot 256 && Nat.blt t.target 256 && Nat.blt t.type (2 ^ 16)

/-- A host access lies in its BAR (R471). -/
def hostOffOk (bar2 : Bool) (off : Nat) : Bool := Nat.blt off (if bar2 then 0x2000000 else 0x1000000)

/-- The access is one that R4 or R28 refuses: width, alignment or an unassigned offset. -/
def badReadOk (bar2 : Bool) (off width : Nat) : Bool :=
  hostOffOk bar2 off && (width != 32 || off % 4 != 0 || Nat.ble (if bar2 then 0x1900000 else 0xA00000) off)

/-- The operands of a command are within their ranges. -/
def wellFormed : Instr → Bool
  | .powerGood p => p.ok
  | .sampleClockLock q => q.length == 17 && q.all CalResult.ok
  | .startupCalDone r => r.all CalResult.ok
  | .laneSample _ d => d.ok
  | .urgentServe _ c => codeOk c
  | .watchmanFeedSample _ _ l _ => l.all codeOk
  | .calibrationDone r => r.ok
  | .resetNAssert b => b.all Boot.ok
  | .gooseReceive _ m => m.ok
  | .svReceive _ m => m.ok
  | .hankAnnounceReceive _ p => p.ok && p.typ == 1
  | .hankConfigAckReceive _ p => p.ok && p.typ == 3
  | .hankInputReceive _ p => p.ok && p.typ == 5
  | .ptpAnnounceReceive _ m => m.ok
  | .loopValuesReceive _ v => v.ok
  | .peerIdentityReceive p => p.ok
  | .peerOverlayReceive _ src _ => src.val != 0
  | .reeveCycle x => x.temps.length == 8 && x.strays.all (fun e => Nat.blt e.1 24)
  | .eccErrorDetect r _ _ => (match r with
    | .capture b => Nat.blt b 384
    | _ => true)
  | .ownerWrite _ t => t.ok
  | .ownerRevoke _ t => t.ok
  | .debugUnlock _ t => t.ok
  | .debugBan _ t => t.ok
  | .badHostRead bar2 off width => badReadOk bar2 off width
  | .registerWriteOther bar2 off _ _ => hostOffOk bar2 off
  | .pcieLinkChange up speed width => !up || (speed.val != 0 && width.val != 0)
  | .timeSourceLoss src => src.val != 0
  | .sourceSwitch src => src.val != 0
  | _ => true

end Sys2Proof
end

