-- ==== Sys2Proof/Tests/Slice0.lean ====
section
/-! SUPPORT. Tests: ill-formed operands are refused, instruction words written out by R229 run as the instructions they stand for, and
for every statement states and operands that meet its hypotheses, clause by clause. -/

namespace Sys2Proof.Tests

open Sys2Proof.Machine

set_option Elab.async false

/-! ### Small states -/

/-- The device with its supplies. -/
def on : State := { State.reset with pwr := { pwrInit with on := true } }

/-- The device with its supplies at time `n` since power-good, its device time too. -/
def onAt (n : Nat) : State := { on with tim := { timInit with up := n, now := n, smp := n } }

/-- What a converter with the nominal scale measures in a calibration: AGND 0, VREF_MID 2.048 V, the test DAC at ±3.5 V and at ±0.75 of full scale. -/
def calRes : CalResult :=
  { agnd := [0, 0, 0, 0], agndSq := [0, 0, 0, 0], vref := 67108864, dacLow := [-114688000, -100663296, -100663296, -100663296],
    dacHigh := [114688000, 100663296, 100663296, 100663296], ramp := List.replicate 4096 0, temp := 25 }
/-- The same without departures of the ramp; one whose VREF_MID reads 0. -/
def calGood : CalResult := { calRes with ramp := [] }
def calBad : CalResult := { calGood with vref := 0 }
/-- One conversion of a lane. -/
def laneIn (code : Int) : LaneIn := { codes := [code], xck := none, shadow := [], xckShadow := none }

def dirBad : Directory := { valid := false, seq := 0, prefImage := false, prefFw := false, fwSlots := [(0, 0), (0, 0)], imgSlots := [(0, 0), (0, 0)] }

/-- A blank boot memory. -/
def bootBlank : Boot := { size := 0, dir0 := dirBad, dir1 := dirBad, fw0 := none, fw1 := none, img0 := none, img1 := none, token := none }

def powerIn : PowerIn :=
  { boot := bootBlank, spiMode := false, sideB := false, pfw := false, refclk := true, healthy := 0xFFFFFF, vbatLost := false, keepMedia := 1,
    keepKiB := 64 }

def gooseMsg : GooseMsg :=
  { dst := 0, appid := 1, gocbRef := "", datSet := "", confRev := 0, ndsCom := false, simulation := false, test := false, tal := 100, stNum := 1,
    sqNum := 0, vals := [], prp := none, lenOk := true }

def asdu : SvAsdu := { smpCnt := 0, smpSynch := 2, chans := List.replicate 8 (0, 0) }

def svMsg : SvMsg :=
  { dst := 0, appid := 0x4000, svID := "", confRev := 0, simulation := false, datasetOk := true, asdus := [asdu], prp := none, lenOk := true }

def pdu (typ : Nat) (payload : List Byte) : HankPdu :=
  { typ := typ, m := 0, seq := 1, ack := 0, flags := 0, time := 0, age := 0, payload := payload, lenOk := true, prp := none, mac := 1 }

def announce : PtpAnnounce :=
  { gmId := 7, domain := 0, clockClass := 6, accuracy := 0x21, stepsRemoved := 1, intervalMs := 1000, better := true, utcValid := true, leap61 := false,
    leap59 := false, utcOffset := 37 }

def loopVals : LoopValues :=
  { out := 1, mode := 1, y := 0, integ := 0, d := 0, q := 0, xPrev := 0, sp := 0, lseq := 0, mseq := 0, pos := 0, vel := 0, acc := 0, plan := [],
    planT0 := 0, target := 0 }

def peerId : PeerIdentity := { sideB := true, role := 3, imageHash := 5, certDigest := 9, certOk := true, token := none }

def hostEntry : HostEntry := { tag := 1, p0 := 0, p1 := 0, p2 := 0, p3 := 0, resvZero := true }

def sigOk : SigCheck := { keysMatch := true, rsaOk := true, slhOk := true }

def token : Token :=
  { formatOk := true, type := 3, signSlot := 0, target := 0, sig := sigOk, identity := 0, challenge := 0, rsaHash := 1, slhHash := 2 }

/-! ### Well-formed commands, and one ill-formed command for each check -/

theorem test_wf_accepts : (wellFormed (.powerGood powerIn) && wellFormed (.sampleClockLock (List.replicate 17 calRes)) &&
    wellFormed (.laneSample 0 (laneIn 131071)) && wellFormed (.gooseReceive 0 gooseMsg) &&
    wellFormed (.svReceive 2 svMsg) && wellFormed (.hankAnnounceReceive 0 (pdu 1 [])) && wellFormed (.ptpAnnounceReceive 0 announce) &&
    wellFormed (.loopValuesReceive 0 loopVals) && wellFormed (.peerIdentityReceive peerId) && wellFormed (.ownerWrite hostEntry token) &&
    wellFormed (.badHostRead false 1 32) && wellFormed (.pcieLinkChange true 1 1)) = true := by decide +kernel

theorem test_wf_code : wellFormed (.urgentServe 0 131072) = false ∧ wellFormed (.urgentServe 0 (-131073)) = false := by decide
theorem test_wf_lane_codes : wellFormed (.laneSample 0 { laneIn 0 with codes := [] }) = false ∧
    wellFormed (.laneSample 0 { laneIn 0 with codes := [0, 0, 0] }) = false ∧ wellFormed (.laneSample 0 { laneIn 0 with xck := some 131072 }) = false ∧
    wellFormed (.laneSample 0 { laneIn 0 with shadow := [131072] }) = false ∧
    wellFormed (.laneSample 0 { laneIn 0 with xckShadow := some (-131073) }) = false := by decide
theorem test_wf_cal : wellFormed (.calibrationDone { calRes with temp := 128 }) = false ∧ wellFormed (.calibrationDone calGood) = false ∧
    wellFormed (.startupCalDone [{ calRes with vref := 1024 * 131071 + 1 }]) = false ∧ wellFormed (.sampleClockLock [calRes]) = false := by decide +kernel
theorem test_wf_boot_slots : wellFormed (.powerGood { powerIn with boot := { bootBlank with dir0 := { dirBad with fwSlots := [] } } }) = false ∧
    wellFormed (.resetNAssert (some { bootBlank with dir1 := { dirBad with imgSlots := [] } })) = false := by decide
theorem test_wf_keep_media : wellFormed (.powerGood { powerIn with keepMedia := 4 }) = false := by decide
theorem test_wf_goose : wellFormed (.gooseReceive 0 { gooseMsg with tal := 2 ^ 32 }) = false ∧
    wellFormed (.gooseReceive 0 { gooseMsg with appid := 2 ^ 16 }) = false := by decide
theorem test_wf_sv : wellFormed (.svReceive 2 { svMsg with appid := 2 ^ 16 }) = false ∧
    wellFormed (.svReceive 2 { svMsg with asdus := [{ asdu with smpCnt := 2 ^ 16 }] }) = false ∧
    wellFormed (.svReceive 2 { svMsg with asdus := [{ asdu with chans := [] }] }) = false := by decide
theorem test_wf_hank : wellFormed (.hankAnnounceReceive 0 (pdu 2 [])) = false ∧ wellFormed (.hankConfigAckReceive 0 (pdu 1 [])) = false ∧
    wellFormed (.hankInputReceive 0 (pdu 4 [])) = false ∧ wellFormed (.hankInputReceive 0 { pdu 5 [] with m := 256 }) = false := by decide
theorem test_wf_announce : wellFormed (.ptpAnnounceReceive 0 { announce with clockClass := 256 }) = false ∧
    wellFormed (.ptpAnnounceReceive 0 { announce with stepsRemoved := 2 ^ 16 }) = false := by decide
theorem test_wf_loop : wellFormed (.loopValuesReceive 0 { loopVals with mode := 8 }) = false ∧
    wellFormed (.loopValuesReceive 0 { loopVals with out := 2147483648 }) = false := by decide
theorem test_wf_peer_role : wellFormed (.peerIdentityReceive { peerId with role := 5 }) = false := by decide
theorem test_wf_peer_overlay : wellFormed (.peerOverlayReceive 1 0 0) = false := by decide
theorem test_wf_reeve : wellFormed (.reeveCycle ⟨[], []⟩) = false ∧ wellFormed (.reeveCycle ⟨[0, 0, 0, 0, 0, 0, 0, 0], [(24, 0)]⟩) = false := by decide
theorem test_wf_ecc_block : wellFormed (.eccErrorDetect (.capture 384) 0 false) = false := by decide
theorem test_wf_token : wellFormed (.ownerWrite hostEntry { token with target := 256 }) = false ∧
    wellFormed (.ownerRevoke hostEntry { token with signSlot := 256 }) = false ∧ wellFormed (.debugUnlock hostEntry { token with type := 2 ^ 16 }) = false ∧
    wellFormed (.debugBan hostEntry { token with type := 2 ^ 16 }) = false := by decide
theorem test_wf_host_offset : wellFormed (.badHostRead false 0 32) = false ∧ wellFormed (.badHostRead false 0x1000000 8) = false ∧
    wellFormed (.registerWriteOther true 0x2000000 32 0) = false := by decide
theorem test_wf_link : wellFormed (.pcieLinkChange true 0 1) = false := by decide
theorem test_wf_source : wellFormed (.timeSourceLoss 0) = false ∧ wellFormed (.sourceSwitch 0) = false := by decide

/-! ### Heddles -/

/-- A context in the middle of an execution. -/
def ctx : Ctx :=
  { task := 0, prio := 0, lb := true, x := 7, y := 3, sat := true, sats := true, zero := false, groups := [(true, 1)], calls := [9], pc := 0, img := [],
    out := [], kept := [], clk := 0, release := 0, started := 0, count := 0, limit := 100 }

/-- Heddle 0 runs `c` over the code `l` in RUN. -/
def runs (c : Ctx) (l : List (BitVec 64)) : State :=
  { (on.setFld A.HDL_STAT F.HDL_STAT_MODE 0) with hdl := { hdlInit with code := l, heddles := [(0, { heddleInit with run := some c })] } }

/-- One step of the command on that state; the context after it. -/
def after (i : Instr) (s : State) : Option Ctx :=
  match exec i s with
  | .next t => (t.heddle 0).run
  | _ => none

/-- R229, OPC [63:56], AREA [55:53], SIZE [52:51], IND [50], COMB [49:48], NEG [47], AUX [39:32], ADDR [31:0]: ANDB of M bit 5 with NEG. -/
theorem test_word_andbn : insOpc 0x0161800000000005 = 0x01 ∧ insArea 0x0161800000000005 = 3 ∧ insComb 0x0161800000000005 = 1 ∧
    insNeg 0x0161800000000005 = true ∧ insAddr 0x0161800000000005 = 5 := by decide
/-- The same word runs: M bit 5 is 0, so LB = 1 ∧ ¬0. -/
theorem test_andbn : (after (.andb 0) (runs ctx [0x0161800000000005])).map (·.lb) = some true := by decide
/-- ADD #−8 to 7: the immediate form of R232. -/
theorem test_add : (after (.addW 0) (runs ctx [0x28000000FFFFFFF8])).map (·.x) = some 0xFFFFFFFF := by decide
/-- MUL limits and sets SAT. -/
theorem test_mul_limits : (after (.mulW 0) (runs { ctx with x := 0x40000000 } [0x2A00000000000002])).map (fun c => (c.x, c.sat)) =
    some (0x7FFFFFFF, true) := by decide
/-- FADD 1.0 + 2.0. -/
theorem test_fadd : (after (.fadd 0) (runs { ctx with x := 0x3F800000 } [0x4000000040000000])).map (·.x) = some 0x40400000 := by decide
/-- CMP X < S with OR: AUX = 4, COMB = 2. -/
theorem test_cmp : (after (.cmp 0) (runs { ctx with lb := false } [0x3802000400000008])).map (·.lb) = some true := by decide
/-- JMPF with LB = 1 falls through. -/
theorem test_jmpf : (after (.jmpf 0) (runs ctx [0x5200000000000010])).map (·.pc) = some 1 := by decide
/-- CTU counts the first rising LB. -/
theorem test_ctu : (match exec (.ctu 0) (runs ctx [0x64C0000000000001]) with
    | .next t => t.counterCv 1
    | _ => 0) = 1 := by decide

/-- Every Heddle opcode is ready on a state made of its own word; AREA 3 lies in its area as a bit and as a word operand. -/
theorem test_ready : ∀ o ∈ [0x01, 0x09, 0x0A, 0x0B, 0x0C, 0x0D, 0x0E, 0x0F, 0x18, 0x1B, 0x1C, 0x20, 0x21, 0x22, 0x23, 0x28, 0x29, 0x2A, 0x2B,
      0x2C, 0x2D, 0x2E, 0x2F, 0x30, 0x31, 0x32, 0x33, 0x34, 0x35, 0x36, 0x37, 0x38, 0x40, 0x41, 0x42, 0x43, 0x44, 0x45, 0x46, 0x47, 0x50, 0x51, 0x52, 0x53,
      0x54, 0x58, 0x59, 0x5A, 0x5B, 0x60, 0x61, 0x64, 0x65, 0x66, 0x67, 0x70, 0x71, 0x72, 0x73, 0x74, 0x75, 0x7F],
    State.Ready (runs ctx [insWord o 3 0 false 0 false 0 0]) 0 o ctx (insWord o 3 0 false 0 false 0 0) ∧
      BitIn (insWord o 3 0 false 0 false 0 0) ctx ∧ WordIn (insWord o 3 0 false 0 false 0 0) ctx := by decide

/-- The last bit element of Q, M and W lies in its area, the next does not (HeddleBitInstructions). -/
theorem test_bit_bounds : BitIn (insWord 1 2 0 false 0 false 0 (8 * qLen - 1)) ctx ∧ ¬ BitIn (insWord 1 2 0 false 0 false 0 (8 * qLen)) ctx ∧
    BitIn (insWord 1 3 0 false 0 false 0 65535) ctx ∧ ¬ BitIn (insWord 1 3 0 false 0 false 0 65536) ctx ∧
    BitIn (insWord 1 4 0 false 0 false 0 (16 * wWords - 1)) ctx ∧ ¬ BitIn (insWord 1 4 0 false 0 false 0 (16 * wWords)) ctx := by decide

/-- Hypotheses of HeddleBitInstructions: the four combinations; the three operations on the group stack; the three areas of a store. -/
theorem test_hyp_bits : insComb (insWord 1 3 0 false 0 false 0 0) = 0 ∧ insComb (insWord 1 3 0 false 1 false 0 0) = 1 ∧
    insComb (insWord 1 3 0 false 2 false 0 0) = 2 ∧ insComb (insWord 1 3 0 false 3 true 0 0) = 3 ∧ ctx.groups = (true, 1) :: [] ∧
    insArea (insWord 9 2 0 false 0 false 0 0) = 2 ∧ insArea (insWord 9 3 0 false 0 false 0 0) = 3 ∧ insArea (insWord 9 4 0 false 0 false 0 0) = 4 := by
  decide

/-- Hypotheses of HeddleMoves and ConditionWord: LDA with an immediate, the last W word, ANY depth of stack within its bound. -/
theorem test_hyp_moves : insArea (insWord 0x20 0 0 false 0 false 0 5) = 0 ∧ WordIn (insWord 0x20 4 1 false 0 false 0 32767) ctx ∧
    ¬ WordIn (insWord 0x20 4 1 false 0 false 0 32768) ctx ∧ ctx.groups.length ≤ 16 ∧ ctx.calls.length ≤ 8 := by decide

/-- Hypotheses of the word stores of HeddleMoves at the ends of the areas: 8 octets of Q, 32 bits of M, 32 bits of W, and octets of M at any bit. -/
theorem test_hyp_store : wordFault 2 2 (qLen - 4) = 0 ∧ wordFault 3 2 (65536 - 32) = 0 ∧ wordFault 4 2 32766 = 0 ∧ wordFault 3 0 65528 = 0 ∧
    wordFault 3 0 3 = 0 ∧ wordFault 2 2 qLen = 1 ∧ wordFault 4 2 32765 = 2 := by decide

/-- Hypotheses of HeddleInteger: S from Y, an immediate, a memory word; S = 0. -/
theorem test_hyp_operand_y : OperandS (insWord 0x28 0 0 false 0 false 0x80 0) ctx (runs ctx []) 3 := .inl (by decide)
theorem test_hyp_operand_imm : OperandS (insWord 0x28 0 0 false 0 false 0 0) ctx (runs ctx []) 0 := .inr (.inl (by decide))
theorem test_hyp_operand_mem : OperandS (insWord 0x28 4 1 false 0 false 0 32767) ctx (runs ctx []) 0 := .inr (.inr (by decide))

/-- Hypotheses of HeddleFloat: a sum that is a number, one that is none; infinities, NaN and finite words (HeddleFloat). -/
theorem test_hyp_float : fpAdd (fpDecode 0x3F800000) (fpDecode 0x40000000) = .word 0x40400000 ∧
    fpAdd (fpDecode 0x7F800000) (fpDecode 0xFF800000) = .nan ∧ fpIsNan 0x7FC00000 = true ∧ fpIsInf 0x7F800000 = true ∧ fpIsFinite 0x3F800000 = true ∧
    fpMul (fpDecode 0x40000000) (fpDecode 0x40000000) = .word 0x40800000 ∧ fpDiv (fpDecode 0x3F800000) (fpDecode 0x40000000) = .word 0x3F000000 := by
  decide +kernel
theorem test_hyp_nearest : (1 : Rat) / 2 ^ 126 ≤ |(1 : Rat) + 2| ∧ fpOperand 0x3F800000 = 1 ∧ fpOperand 0x40000000 = 2 ∧ fpOperand 0x40000000 ≠ 0 := by
  decide +kernel

/-- Hypotheses of HeddleCompare: the six conditions, each with its r, as integers and as binary32, and a NaN. -/
theorem test_hyp_compare : (∀ k < 6, insAux (insWord 0x38 0 0 false 0 false k 7) % 8 = k) ∧
    (insAux (insWord 0x38 0 0 false 0 false 3 7)).testBit 3 = false ∧ (insAux (insWord 0x38 0 0 false 0 false 11 7)).testBit 3 = true ∧
    fpIsNan 0x7FC00000 = true ∧ fpIsNan 0x3F800000 = false := by decide
theorem test_hyp_compare_cond : CmpCond 0 7 7 ∧ CmpCond 1 7 8 ∧ CmpCond 2 8 7 ∧ CmpCond 3 7 7 ∧ CmpCond 4 7 8 ∧ CmpCond 5 7 7 ∧ ¬ CmpCond 4 7 7 := by
  simp only [CmpCond]; norm_num

/-- Hypotheses of HeddleTimers: a timer at the end of T, each mode; pulse not begun, running short of and past its preset. -/
theorem test_hyp_timers : BitIn (insWord 0x60 5 0 false 0 false 3 4095) ctx ∧ ¬ BitIn (insWord 0x60 5 0 false 0 false 3 4096) ctx ∧
    insArea (insWord 0x60 5 0 false 0 false 3 4095) = 5 ∧ (∀ m < 4, insAux (insWord 0x60 5 0 false 0 false m 4095) % 4 = m) ∧
    ((runs ctx []).timer 4095).run = false ∧ ((runs ctx []).timer 4095).inp = false ∧
    (((runs ctx []).setTimer 0 { stamp := 0, q := true, run := true, inp := true, acc := 0 }).timer 0) =
      { stamp := 0, q := true, run := true, inp := true, acc := 0 } ∧
    ({ stamp := 0, q := true, run := true, inp := true, acc := 0 } : Timer).et 6 = 6 ∧
    ({ stamp := 0, q := true, run := true, inp := true, acc := 0 } : Timer).et 7 = 7 := by decide

/-- Hypotheses of HeddleCounters: the last counter; CV at both bounds. -/
theorem test_hyp_counters : insIndex (insWord 0x64 6 0 false 0 false 0 1023) ctx.y = 1023 ∧ 1023 < cCount ∧ (runs ctx []).counterCv 1023 = 0 ∧
    (((runs ctx []).setOctetsLE (cBase + 16 * 1023) 4 0xFFFFFFFF).counterCv 1023) = 0xFFFFFFFF ∧
    ((runs ctx []).counterWord 1023).testBit 30 = false := by decide

/-! ### Device instructions, faults, the end of an execution -/

/-- An instruction word with ADDR only. -/
def dev (o addr : Nat) : BitVec 64 := insWord o 0 0 false 0 false 0 addr

/-- A record that capture takes triggers for. -/
def capR : CapRec :=
  { trig := 10, first := 10, endT := 1000000, post := 1000000, count := 1, kind := 0, index := 0, nsig := 0, samples := [], snaps := [], snapLost := 0, flags := 0,
    peerRec := 0, blocks := [0], frame := 0, opsec := 0, pwrCyc := 0, lastBurst := none, head := [], shut := false }

/-- Plan 0 is enabled for triggers and holds one open record at directory entry 0. -/
def capOpen (s : State) : State :=
  (((s.setBit (A.CAP_PLAN_CFG 0) 31 true).setBit (A.CAP_PLAN_CFG 0) 30 false).setCapPlan 0
    { capPlanInit with open_ := [0], ring := [{ t := 1000000, words := [], digital := [] }] }).setCapRec 0 (some capR)

/-- The Reel of slice k is one open slot. -/
def openSlot (s : State) (k : Nat) : State :=
  ((s.setFld (A.ACQ_SLICE k) F.ACQ_SLICE_ENTRIES 1).setBit (A.ACQ_REEL k 0) 30 true).setFld A.ACQ_STAT F.ACQ_STAT_L 1

theorem test_hyp_urgc : (openSlot (runs ctx [dev 0x70 0xF0A03]) 15).Ready 0 0x70 ctx (dev 0x70 0xF0A03) ∧ insAddr (dev 0x70 0xF0A03) / 65536 % 32 = 15 ∧
    insAddr (dev 0x70 0xF0A03) / 256 % 128 = 10 ∧ (openSlot (runs ctx []) 15).firstOpen 15 = some 2 ∧ ((openSlot (runs ctx []) 15).slice 15).urgent = none ∧
    (openSlot (runs ctx []) 16).firstOpen 16 = some 2 ∧ (openSlot (runs ctx []) 16).s16Away = false := by decide
theorem test_hyp_trkrst : (runs ctx [dev 0x71 127]).Ready 0 0x71 ctx (dev 0x71 127) ∧ insAddr (dev 0x71 127) % 128 = 127 := by decide

/-- Channel 31 asserted and latched, its pulse running, with Heddle resets allowed, under the image. -/
def latched31 (s : State) : State :=
  ((((s.setReg (A.PRT_TCH_CFG 31) 0xF0000000).setBit A.PRT_TCH_STATE 31 true).setFld A.PRT_STAT F.PRT_STAT_WM_SRC 2).setBit A.PRT_TCH_PULSE 31 true).setBit
    A.PRT_TCH_LATCHED 31 true

theorem test_hyp_trprst : (latched31 (runs ctx [dev 0x72 31])).Ready 0 0x72 ctx (dev 0x72 31) ∧ insAddr (dev 0x72 31) % 32 = 31 ∧
    (latched31 on).bit (A.PRT_TCH_CFG 31) 28 = true ∧ (latched31 on).bit A.PRT_TCH_STATE 31 = true ∧ (latched31 on).channelLatched 31 = true ∧
    (latched31 on).fld A.PRT_STAT F.PRT_STAT_WM_SRC = 2 ∧ (latched31 on).channelSource 31 = false ∧ (latched31 on).bit A.PRT_TCH_PULSE 31 = true ∧
    on.bit (A.PRT_TCH_CFG 31) 28 = false := by decide
theorem test_hyp_capt : (capOpen (runs ctx [dev 0x73 16])).Ready 0 0x73 ctx (dev 0x73 16) ∧ insAddr (dev 0x73 16) % 16 = 0 ∧
    (capOpen on).bit (A.CAP_PLAN_CFG 0) 31 = true ∧ (capOpen on).bit (A.CAP_PLAN_CFG 0) 30 = false ∧ ((capOpen on).capPlan 0).open_ = 0 :: [] ∧
    (capOpen on).capRec 0 = some capR ∧ capR.shut = false ∧ (capOpen on).tim.now ≤ capR.endT ∧ (capOpen on).tim.now ≤ capR.first + 8000000000 := by decide
theorem test_hyp_ovly : ((runs ctx [dev 0x74 15]).setFld A.PLY_STAT F.PLY_STAT_ROLE 0).Ready 0 0x74 ctx (dev 0x74 15) ∧ insAddr (dev 0x74 15) % 16 = 15 ∧
    (on.setFld A.PLY_STAT F.PLY_STAT_ROLE 0).mayStart = true ∧ on.role ≠ 1 ∧ on.ovlUsable 15 = false ∧ (on.setBit A.CFG_OVL 7 true).ovlUsable 8 = true ∧
    (on.cfg.acts.filter (fun b => b.src == 3)).length < 4 := by decide
theorem test_hyp_evtt : ((runs ctx [dev 0x75 63]).setReg (A.HDL_TCFG 3 31) 0xC0000000).Ready 0 0x75 ctx (dev 0x75 63) ∧
    insAddr (dev 0x75 63) / 16 % 4 = 3 ∧ 16 + insAddr (dev 0x75 63) % 16 = 31 ∧ (on.setReg (A.HDL_TCFG 3 31) 0xC0000000).bit (A.HDL_TCFG 3 31) 31 = true ∧
    (on.setReg (A.HDL_TCFG 3 31) 0xC0000000).bit (A.HDL_TCFG 3 31) 30 = true ∧ (runs ctx []).logicMode = 0 ∧ (∀ r ∈ (on.heddle 3).rels, r.task ≠ 31) ∧ (on.heddle 3).rels.length < 16 := by
  decide
theorem test_hyp_device_idle : ∀ e ∈ [(0x70, Instr.urgc 0), (0x71, .trkrst 0), (0x72, .trprst 0), (0x73, .capt 0), (0x74, .ovly 0), (0x75, .evtt 0)],
    (runs { ctx with lb := false } [dev e.1 0]).Ready 0 e.1 { ctx with lb := false } (dev e.1 0) ∧ heddleIns 0 (dev e.1 0) = some e.2 := by decide

/-- Hypotheses of HeddleProgramFault: the limit reached; the first element past an area; a misaligned one. -/
theorem test_hyp_fault : ((runs { ctx with count := 100 } [dev 0x7F 0]).nextIns 0 = some ({ ctx with count := 100 }, dev 0x7F 0) ∧
      (runs { ctx with count := 100 } [dev 0x7F 0]).mayRun 0 { ctx with count := 100 } = true ∧ heddleIns 0 (dev 0x7F 0) = some (.nop 0)) ∧
    operandFault (insWord 1 3 0 false 0 false 0 65536) ctx = 1 ∧ operandFault (insWord 0x21 4 2 false 0 false 0 1) ctx = 2 ∧
    heddleIns 0 (insWord 0x21 4 2 false 0 false 0 1) = some (.sta 0) ∧ ctx.count < ctx.limit ∧ ctx.pc < 65536 ∧ ctx.task < 32 := by decide

/-- Hypotheses of HeddleEnd: an execution that wrote the last octet of Q. -/
theorem test_hyp_end : (runs { ctx with out := [(qLen - 1, (0xFF, 0x55))] } [dev 0x5B 0]).Live ∧
    (runs { ctx with out := [(qLen - 1, (0xFF, 0x55))] } [dev 0x5B 0]).Ready 0 0x5B { ctx with out := [(qLen - 1, (0xFF, 0x55))] } (dev 0x5B 0) ∧
    (runs ctx []).logicMode = 0 ∧ (runs ctx []).forces 2 = [] ∧ List.Nodup ([(qLen - 1, ((0xFF : Byte), (0x55 : Byte)))].map (·.1)) ∧ qLen - 1 < qLen := by
  decide

/-- Hypotheses of the breakpoint of HeddleEnd: armed on the next index, and on another. -/
theorem test_hyp_break : ((runs ctx [dev 0x7F 0]).Ready 0 0x7F ctx (dev 0x7F 0)) ∧
    ({ runs ctx [dev 0x7F 0] with hdl := { (runs ctx [dev 0x7F 0]).hdl with brk := some 1 } }.hdl.brk = some (ctx.pc + 1)) ∧
    (runs ctx [dev 0x7F 0]).hdl.brk ≠ some (ctx.pc + 1) := by decide

/-! ### Releases and T_apply -/

/-- Heddle 3 in RUN with these tasks and this state; its periodic task 15 has a period of 1 ms. -/
def hdl3 (x : HeddleSt) : State :=
  (({ onAt 1000000 with hdl := { hdlInit with heddles := [(3, x)], evReq := [127] } }.setFld A.HDL_STAT F.HDL_STAT_MODE 0).setReg (A.HDL_TCFG 3 15)
    0x80000000).setFld (A.HDL_TCFG 3 15) F.HDL_TCFG_PERIOD 1 |>.setReg (A.HDL_TCFG 3 31) 0xC0000000

def due15 : HeddleSt := { heddleInit with lastRel := [(15, some 1000000)] }

theorem test_hyp_periodic : (hdl3 due15).Live ∧ (hdl3 due15).bit (A.HDL_TCFG 3 15) 31 = true ∧ (hdl3 due15).bit A.HDL_STAT 29 = false ∧
    0 < (hdl3 due15).taskPeriod 3 15 ∧ tabGet none ((hdl3 due15).heddle 3).lastRel 15 = some 1000000 ∧ 1000000 ≤ (hdl3 due15).tim.now ∧
    (hdl3 due15).tim.now < 1000000 + (hdl3 due15).taskPeriod 3 15 ∧ (hdl3 due15).logicMode = 0 ∧ (hdl3 due15).taskBusy 3 15 = false ∧ ((hdl3 due15).heddle 3).rels.length < 16 ∧
    (hdl3 { due15 with rels := [{ task := 15, at_ := 0 }] }).taskBusy 3 15 = true := by decide
theorem test_hyp_event : 32 * 3 + 16 + 15 ∈ (hdl3 due15).hdl.evReq ∧ (hdl3 due15).bit (A.HDL_TCFG 3 31) 31 = true ∧
    (hdl3 due15).bit (A.HDL_TCFG 3 31) 30 = true ∧ (∀ r ∈ ((hdl3 due15).heddle 3).rels, r.task ≠ 31) := by decide
theorem test_hyp_budget : ((hdl3 { heddleInit with idleUntil := some 1000000 }).heddle 3).idleUntil = some 1000000 ∧
    1000000 ≤ (hdl3 { heddleInit with idleUntil := some 1000000 }).tim.now := by decide
theorem test_hyp_start : (hdl3 { heddleInit with rels := [{ task := 15, at_ := 0 }] }).startNext 3 = some { task := 15, at_ := 0 } ∧
    (hdl3 { heddleInit with rels := [{ task := 15, at_ := 0 }] }).mayStartRel 3 { task := 15, at_ := 0 } = true ∧ (hdl3 heddleInit).hdl.brk = none ∧
    (hdl3 heddleInit).gateHolds 2 = false := by
  decide
theorem test_hyp_cycle : ((hdl3 heddleInit).setBit A.HDL_STAT 29 true).bit A.HDL_STAT 29 = true ∧ (hdl3 heddleInit).logicMode = 0 ∧
    ((hdl3 heddleInit).heddle 3).inCycle = false ∧ ((hdl3 heddleInit).heddle 3).idleUntil = none ∧ ((hdl3 heddleInit).heddle 3).cycStart = none ∧
    (hdl3 heddleInit).cycleTasks 3 ≠ [] := by decide

/-- Hypotheses of HeddleTimedActions: a sweep instant with a running timer at the end of T; a change of the last constant; entry 255. -/
theorem test_hyp_sweep : ({ on with tim := { timInit with logic := 2 ^ 20 * 1000000 } } : State).tim.logic / 1000000 % 2 ^ 20 = 0 ∧
    ({ on with tim := { timInit with logic := 2 ^ 20 * 1000000 } } : State).Live ∧ 4095 < tCount ∧
    ((on.setTimer 4095 { stamp := 0, q := false, run := true, inp := true, acc := 0 }).timer 4095).run = true := by decide
def tun : Tunable := { area := 7, fp32 := false, w32 := true, index := 16383, min := 0, max := 9 }

theorem test_hyp_online : ({ on with hdl := { hdlInit with acts := [(0, .online 0 5)], tunables := [tun] } } : State).hdl.tunables[0]? = some tun ∧
    tun.area = 7 ∧ on.Live ∧ 0 ≤ on.tim.now ∧ (on.setBit (A.HDL_FRC_CFG 255) 31 true).bit (A.HDL_FRC_CFG 255) 31 = true := by decide

/-! ### Acquisition -/

/-- Lane 127 on slice 0, position 0 (AIN 0), at ×1 and rate 3, of bay 0, in the first of the 8 slots of its slice's Reel; the image's Reels are in
force. -/
def lane127 (s : State) : State :=
  (((s.setReg (A.ACQ_LANE 127) 0x80001800).setFld A.ACQ_STAT F.ACQ_STAT_REEL_SRC 1).setFld A.ACQ_STAT F.ACQ_STAT_L 8).setFld (A.ACQ_SLICE 0)
    F.ACQ_SLICE_ENTRIES 1

theorem test_hyp_lane : (lane127 (onAt 10000)).laneConverts 127 = true ∧ (lane127 (onAt 10000)).laneNewest 127 = some 11 ∧
    ((lane127 (onAt 10000)).lane 127).k < 11 ∧ ((lane127 (onAt 10000)).lane 127).from_ ≤ (lane127 (onAt 10000)).laneFirst 127 11 ∧
    (lane127 (onAt 10000)).laneRep 127 = 1 ∧ (laneIn 5).codes = [5] ∧
    (lane127 (onAt 10000)).convState ((lane127 (onAt 10000)).convAt ((lane127 (onAt 10000)).laneSlice 127) ((lane127 (onAt 10000)).laneInstant 127 11)) ≠ 3 ∧
    (lane127 (onAt 10000)).laneAux 127 = false := by decide +kernel
/-- A window of 2^4 samples that holds 16. -/
def window16 : State := on.setLane 127 { laneInit with cnt := 16, winCfg := 0x400 }
theorem test_hyp_window : window16.windowDone 127 (ratMin (window16.laneInstant 127 ((window16.lane 127).k + 1)) (window16.tim.smp : Rat)) = true := by
  decide +kernel

/-- The result of slice 16's urgent conversion in slot 0 is available. -/
def urgent16 : State :=
  (onAt 1000).setSlice 16 { sliceInit with urgent := some { src := 2, pos := 0, gain := 0, came := 0, slot := 0, tag := 1, heddle := 0 } }
theorem test_hyp_urgent : (urgent16.slice 16).urgent = some { src := 2, pos := 0, gain := 0, came := 0, slot := 0, tag := 1, heddle := 0 } ∧
    urgent16.slotDone 0 = true ∧ urgent16.Live := by decide
theorem test_hyp_test_request : on.acq.diagLast = none ∧ (openSlot (on.setBit A.PWR_DOMAIN_STAT 1 true) 15).bit A.PWR_DOMAIN_STAT 1 = true ∧
    (openSlot on 15).firstOpen 15 = some 2 ∧ ((openSlot on 15).slice 15).urgent = none ∧ (openSlot on 16).firstOpen 16 = some 2 ∧ on.s16Away = false := by
  decide

/-- The image has taken over with Reel cycles of one slot, one begins now, and the spare does this. -/
def spare (u : SpareUse) : State :=
  (({ onAt 13000000000 with cfg := { cfgInit with switched := some 0 }, acq := { acqInit with use := u } }.setFld (A.ACQ_SLICE 16) F.ACQ_SLICE_CONV 16).setFld
    (A.CAL_CONV 16) F.CAL_CONV_STATE 1).setFld A.ACQ_STAT F.ACQ_STAT_L 1

theorem test_hyp_rotation : (spare .idle).Live ∧ (spare .idle).rotFree = true ∧ ((spare .idle).setBit A.CAL_ROT_CFG 31 true).bit A.CAL_ROT_CFG 31 = true ∧
    (spare .idle).rotDue 1 = true ∧ (spare .idle).onCycle = true := by decide +kernel
theorem test_hyp_shadow_end : (spare (.shadow 15 0 0 0 false)).acq.use = .shadow 15 0 0 0 false ∧ (spare (.shadow 15 0 0 0 false)).shadowEnded 0 = true ∧
    15 ∉ (spare (.shadow 15 0 0 0 false)).acq.searchQ ∧ (15 + 15) % 16 ∉ (spare (.shadow 15 0 0 0 false)).acq.searchQ := by decide +kernel
theorem test_hyp_cal_done : (spare (.cal 16 0 true 1)).acq.use = .cal 16 0 true 1 ∧ (spare (.cal 16 0 false 1)).acq.use = .cal 16 0 false 1 ∧
    16 = (spare (.cal 16 0 true 1)).conv 16 ∧ 0 + 12000000 ≤ (spare (.cal 16 0 true 1)).tim.up ∧ (spare (.cal 16 0 true 1)).calAccepted 16 calGood = true ∧
    (spare (.cal 16 0 true 1)).calAccepted 16 calBad = false ∧ (calTables calGood).gain[3]? = some 0x40000000 ∧
    (calTables calGood).lin[64]? = some 0 := by decide +kernel
/-- Slice 15's take-over is due, by the start-up calibration, by its tests, or its pair is to be searched. -/
def queued (a q t : List Nat) : State := { spare .idle with acq := { acqInit with attachQ := a, searchQ := q, takeQ := t } }
theorem test_hyp_attach : (queued [15] [] []).cfg.switched.isSome = true ∧ (queued [15] [] []).onCycle = true ∧ (queued [15] [] []).rotHalted = false ∧
    (queued [15] [] []).acq.attachQ = 15 :: [] := by decide +kernel
theorem test_hyp_search : (queued [] [15] []).acq.searchQ = 15 :: [] ∧ (queued [] [15] []).acq.search = none ∧ (queued [] [15] []).rotHalted = false ∧
    (queued [] [15] []).acq.calStart = none ∧ (queued [] [15] []).onCycle = true := by decide +kernel
theorem test_hyp_no_cal : ∀ a q t n x y z, (queued a q t).acq.use ≠ .cal n x y z := by intro a q t n x y z h; cases h

/-- A search on pair 15 in its stage `st`, the first slice having disagreed or not. -/
def searching (st : Nat) (m dis0 : Bool) : State :=
  { spare (.shadow 15 st 0 0 m) with acq := { (spare (.shadow 15 st 0 0 m)).acq with search := some { k := 15, dis0 := dis0, second := false } } }
theorem test_hyp_search_phase : (searching 1 true false).acq.use = .shadow 15 1 0 0 true ∧ (searching 2 false true).acq.use = .shadow 15 2 0 0 false ∧
    (searching 2 true false).acq.use = .shadow 15 2 0 0 true ∧ (searching 2 false false).acq.use = .shadow 15 2 0 0 false ∧
    (searching 2 true false).acq.search = some { k := 15, dis0 := false, second := false } ∧
    (searching 2 false true).acq.search = some { k := 15, dis0 := true, second := false } ∧ (searching 2 true false).shadowEnded 0 = true := by
  decide +kernel
theorem test_hyp_takeover : 15 ∈ (queued [] [] [15]).acq.takeQ ∧ (queued [] [] [15]).rotHalted = false ∧ (queued [] [] [15]).acq.search = none ∧
    (queued [] [] [15]).onCycle = true := by decide +kernel

/-! ### Injection -/

/-- Lane 127 of bay 0 on AIN 0 feeds signal 0; the injections of bay 0 are due. -/
def injSt (s : State) : State := (((lane127 s).setBit A.CAL_INJ_CTL 23 true).setBit A.CAL_INJ_CTL 24 true).setReg (A.FLT_SIG 0) 0x83F80000
theorem test_hyp_inj_start : (injSt (spare .idle)).injReady 0 true = true ∧ (∃ p ∈ (injSt (spare .idle)).bayPins 0, (injSt (spare .idle)).pinQuiet p = true) := by
  decide +kernel
theorem test_hyp_inj_ready : (injSt (spare .idle)).injReady 0 false = true ∧ (injSt (spare .idle)).bayPins 0 ≠ [] := by decide +kernel
def sigImg : Image :=
  { magicOk := true, major := 1, minFw := 0, deviceType := 0, serial := 0, ownerPair := 0, sig := sigOk, hash := 5, manifest := [], badSection := none, params := [],
    signals := [{ primary := 0, svScale := 0, injGain := 0x3F800000, injTau := 0 }], reels := none, logic := none, logicData := none, tunables := [],
    goosePub := [], gooseSub := [], svPub := [], svSub := [], hank := [], pairing := none, overlays := [] }
def injected : State :=
  { injSt (spare .idle) with cfg := { cfgInit with switched := some 0, image := some sigImg }
                             acq := { acqInit with inj := [(0, some (0, false))], injPins := [(0, some .injected), (95, some (.watch 0 1 false))] } }
theorem test_hyp_inj_end : tabGet none injected.acq.inj 0 = some (0, false) ∧ 0 + 20000000 ≤ injected.tim.smp ∧ 0 ∈ injected.bayPins 0 ∧
    injected.injecting 0 = true ∧ injected.refLane 0 = some 127 ∧ injected.pinSignal 0 ≠ none := by decide +kernel
theorem test_hyp_inj_watch : tabGet none injected.acq.injPins 95 = some (.watch 0 1 false) ∧ 0 + 2000000 ≤ injected.tim.smp := by decide +kernel
def openRun (e : OpenChk) : State := { lane127 (spare .idle) with acq := { acqInit with openRun := [(0, e)] } }
def reversal (bad good : Nat) (sum : Int) : OpenChk := { bad := bad, good := good, mean := some 0, at_ := 0, sum := sum, cnt := 1 }
theorem test_hyp_open : (openRun (reversal 2 0 8000000)).lanesOn 0 ≠ [] ∧ reversal 2 0 8000000 = (openRun (reversal 2 0 8000000)).openChk 0 ∧
    reversal 0 2 0 = (openRun (reversal 0 2 0)).openChk 0 ∧ 0 + 125000000 ≤ (openRun (reversal 2 0 8000000)).tim.smp ∧ (reversal 2 0 0).cnt ≠ 0 ∧
    (((openRun (reversal 2 0 8000000)).fld A.CAL_OPEN_THR F.CAL_OPEN_THR_THR * 2048 : Nat) : Rat) < 10 * |((8000000 : Int) : Rat) / (1 : Nat) - 0| ∧
    10 * |((0 : Int) : Rat) / (1 : Nat) - 0| ≤ (((openRun (reversal 0 2 0)).fld A.CAL_OPEN_THR F.CAL_OPEN_THR_THR * 2048 : Nat) : Rat) := by decide +kernel

/-! ### Trip matrix, Watchman, inputs -/

theorem test_hyp_light : on.bit A.PRT_LIGHT 3 = false ∧ (on.setBit A.PRT_LIGHT 3 true).bit A.PRT_LIGHT 3 = true ∧
    (latched31 on).fld A.PRT_STAT F.PRT_STAT_WM_SRC = 2 ∧ bitGet ((on.setReg (A.PRT_TCH_SRC 31 16) 0x80).reg (A.PRT_TCH_SRC 31 16)) (4 + 3) = true := by
  decide
/-- Instance 511 is an ARC element on LIGHT 3 with a hold of 60 ms; its two holds are running. -/
def arc511 : State :=
  { ((((on.setFld (A.PRT_EI_CFG 511) F.PRT_EI_CFG_TYPE 0x0E).setBit (A.PRT_EI_CFG 511) 31 true).setReg (A.PRT_EX 511 0) 0xFFFFFFFF).setBit A.PRT_LIGHT 3 true)
      with trip := { tripInit with arcLightEnd := [(511, some 0)], arcCurEnd := [(511, some 0)] } }
theorem test_hyp_arc_hold : tabGet none arc511.trip.arcLightEnd 511 = some 0 ∧ tabGet none arc511.trip.arcCurEnd 511 = some 0 ∧ 0 ≤ arc511.tim.up := by decide

/-- Bay 7's threshold is the least; two new samples of its third phase are fed, the window's centre high; that phase has counted two, each phase is low
for 7,680. -/
def wm7 (n : Nat) : State :=
  { on.setReg (A.PRT_WM_THR 7) 1 with trip := { tripInit with
      wmCount := [(23, n)], wmLow := [(21, 7680), (22, 7680), (23, 7680)], wmNew := [(23, 2)]
      wmTaps := [(23, List.replicate 11 { v := 0, f := 0x80 } ++ { v := 256, f := 0x80 } :: List.replicate 11 { v := 0, f := 0x80 })] } }
theorem test_hyp_watchman : 3 * 7 + 2 = 23 ∧ wm7 2 = (wm7 2).defaultFeed 7 2 [] ∧ 2 ≤ tabGet 0 (wm7 2).trip.wmNew 23 ∧
    (wm7 2).fld (A.PRT_WM_THR 7) ⟨15, 0⟩ * 128 = 128 ∧ (0x80 : SampleFlags).getLsbD 7 = true ∧ (0x80 : SampleFlags).getLsbD 3 = false ∧
    2 ≤ tabGet 0 (wm7 2).trip.wmCount 23 ∧ tabGet 0 (wm7 1).trip.wmCount 23 < 2 ∧ (∀ p < 3, tabGet 0 (wm7 2).trip.wmLow (3 * 7 + p) = 7680) := by
  decide +kernel
/-- Whatever the open taps are, they meet zeros there: the half-band gives half the centre, which is the threshold. -/
theorem test_hyp_feed : (wm7 2).feedOut 23 = (128, 0x80) := by
  have h : joinFlags (tabGet [] (wm7 2).trip.wmTaps 23) = 0x80 := by decide +kernel
  have hv : (hbOut (fun _ => 0) 23 (tabGet [] (wm7 2).trip.wmTaps 23)).v.natAbs = 128 := by decide +kernel
  have he : hbOut Config.feedTap 23 (tabGet [] (wm7 2).trip.wmTaps 23) = hbOut (fun _ => 0) 23 (tabGet [] (wm7 2).trip.wmTaps 23) := by
    have hz : ∀ k ∈ List.range 6, ((((tabGet [] (wm7 2).trip.wmTaps 23).getD (11 - (2 * k + 1)) sampleZero).v : Rat) +
        (((tabGet [] (wm7 2).trip.wmTaps 23).getD (11 + (2 * k + 1)) sampleZero).v : Rat)) = 0 := by decide +kernel
    have hf : ∀ (tap : Nat → Rat) (x0 : Rat), (List.range 6).foldl (fun a k => a + tap k *
        ((((tabGet [] (wm7 2).trip.wmTaps 23).getD (11 - (2 * k + 1)) sampleZero).v : Rat) +
          (((tabGet [] (wm7 2).trip.wmTaps 23).getD (11 + (2 * k + 1)) sampleZero).v : Rat))) x0 = x0 := by
      intro tap x0
      have : ∀ l : List Nat, (∀ k ∈ l, k ∈ List.range 6) → ∀ x0 : Rat, l.foldl (fun a k => a + tap k *
          ((((tabGet [] (wm7 2).trip.wmTaps 23).getD (11 - (2 * k + 1)) sampleZero).v : Rat) +
            (((tabGet [] (wm7 2).trip.wmTaps 23).getD (11 + (2 * k + 1)) sampleZero).v : Rat))) x0 = x0 := by
        intro l
        induction l with
        | nil => intro _ x; rfl
        | cons k l ih =>
          intro hl x
          rw [List.foldl_cons, hz k (hl k (by simp)), mul_zero, add_zero]
          exact ih (fun j hj => hl j (by simp [hj])) x
      exact this _ (fun _ h => h) x0
    exact congrArg (fun v => stageSample v (tabGet [] (wm7 2).trip.wmTaps 23)) ((hf Config.feedTap _).trans (hf (fun _ => 0) _).symm)
  simp [State.feedOut, h, hv, he]

theorem test_hyp_channel : (latched31 on).bit A.PRT_TCH_STATE 31 = true ∧ (latched31 on).bit A.PRT_TCH_PULSE 31 = true ∧
    tabGet 0 (latched31 on).trip.pulseEnd 31 ≤ (latched31 on).tim.up ∧ (latched31 on).channelSource 31 = false ∧ 31 ∉ (latched31 on).trip.resetDue ∧
    (latched31 on).channelLatched 31 = true ∧ ((latched31 on).setBit (A.PRT_TCH_CFG 31) 31 false).channelLatched 31 = false ∧
    ((((latched31 on).setReg (A.PRT_TCH_SRC 31 16) 0x80).setBit A.PRT_LIGHT 3 true).channelSource 31) = true := by decide +kernel

/-- BIN 31 resets channel 31, whose pulse has ended. -/
def rstBin : State := ((latched31 (onAt 5000000)).setBit A.PRT_TCH_PULSE 31 false).setFld (A.PRT_TCH_CFG 31) F.PRT_TCH_CFG_RSTBIN 31
theorem test_hyp_bin : rstBin.Live ∧ rstBin.bit A.LIO_BIN_STATE 31 ≠ true ∧ 0 + rstBin.fld (A.LIO_BIN_CFG 31) F.LIO_BIN_CFG_DEB * 100000 ≤ rstBin.tim.now ∧
    rstBin.bit (A.PRT_TCH_CFG 31) 30 = true ∧ rstBin.fld (A.PRT_TCH_CFG 31) F.PRT_TCH_CFG_RSTBIN = 31 ∧ rstBin.bit A.PRT_TCH_STATE 31 = true ∧
    rstBin.bit (A.PRT_TCH_CFG 31) 31 = true ∧ rstBin.fld A.PRT_STAT F.PRT_STAT_WM_SRC = 2 ∧ rstBin.bit A.PRT_TCH_PULSE 31 = false ∧
    rstBin.channelSource 31 = false ∧ rstBin.arcs = [] := by decide +kernel

/-! ### Frames, arrivals, capture -/

/-- Bay 7 with this chain, under the image, enabled, at 10 ms; its engine is PE0. -/
def bay7 (c : BayChain) : State :=
  { ((onAt 10000000).setBit (A.PRT_BAYCFG 7) 31 true).setFld (A.FLT_FRMRT 7) F.FLT_FRMRT_ENGINE 0 with
      cfg := { cfgInit with switched := some 0 }, chain := { chainInit with bays := [(7, c)] } }
def frameB : FrameBuf := { n := 4, at_ := 0, stamp := 0, per := 0, ft := 50, sig := [], posted := 0, engine := 7, tch := 0 }
def arr : Arrival := { t := 100, mode := 0, neg := false, clipped := false, peak := 5, frame := 0 }

theorem test_hyp_chain : (bay7 { bayChainInit with restartAt := some 10000000 }).Live ∧
    ((bay7 { bayChainInit with restartAt := some 10000000 }).bayChain 7).restartAt = some 10000000 ∧
    (10000000 : Rat) ≤ (bay7 bayChainInit).tim.up := by decide +kernel
theorem test_hyp_frame_close : (bay7 bayChainInit).closesFrames 7 = true ∧
    (bay7 bayChainInit).frameDue 7 = true ∧ ((bay7 bayChainInit).bayChain 7).n < 2 ^ 64 := by decide +kernel
theorem test_hyp_frame_process : ((bay7 { bayChainInit with ring := [frameB] }).bayChain 7).ring = frameB :: [] ∧
    frameB.engine < 8 ∧ (bay7 bayChainInit).gateHolds (frameB.engine / 4) = false := by decide +kernel

/-- The wavefront branch of bay 0 runs on lanes 125–127, with a threshold of 10. -/
def wave0 (c : BayChain) : State :=
  (([(125, 0), (126, 1), (127, 2)].foldl (fun (s : State) (e : Nat × Nat) => s.setReg (A.ACQ_LANE e.1) (BitVec.ofNat 32 (0x80001800 + e.2 * 2 ^ 17)))
    { onAt 10000000 with chain := { chainInit with bays := [(0, c)] } })).setReg (A.FLT_WFCFG 0) 0x8000000A
/-- A modal sample; a step of 100 from sample 10 to 11; no step from 7 to 11. -/
def modal (k : Nat) (v : Int) (clipped : Bool) : WaveSmp := { k := k, m := [v, 0, 0], ok := true, clipped := clipped }
def stepped : List WaveSmp := [modal 11 100 false, modal 10 0 false]
def quiet : List WaveSmp := [modal 11 5 false, modal 10 5 false, modal 9 5 false, modal 8 5 false, modal 7 5 false]
theorem test_hyp_arrival : (wave0 bayChainInit).waveOn 0 = true ∧ (waveDiffs 0 stepped) = (11, 100) :: [] ∧
    (wave0 { bayChainInit with wave := stepped }).waveThr 0 0 ≤ |((100 : Int) : Rat)| ∧ (∀ a ∈ ((wave0 bayChainInit).bayChain 0).opened, a.1.mode ≠ 2) ∧
    ((wave0 { bayChainInit with wave := stepped }).bayChain 0).wave = modal 11 100 false :: modal 10 0 false :: [] := by decide +kernel
theorem test_hyp_rearm : ((wave0 { bayChainInit with opened := [(arr, 6)] }).bayChain 0).opened.find? (fun a => a.1.mode == 0) = some (arr, 6) ∧
    ((wave0 { bayChainInit with wave := quiet }).bayChain 0).quiet4 0 6 ((wave0 { bayChainInit with wave := quiet }).waveThr 0 0) = true ∧
    ((wave0 { bayChainInit with arrivals := List.replicate 31 arr }).bayChain 0).arrivals.length < 32 ∧
    32 ≤ ((wave0 { bayChainInit with arrivals := List.replicate 32 arr }).bayChain 0).arrivals.length ∧
    ((wave0 { bayChainInit with arrivals := [arr] }).bayChain 0).arrivals ≠ [] := by decide +kernel

/-- Instance 511 of type `ty` on bay 0, enabled, with this wavefront state. -/
def waveI (ty : Nat) (w : WaveInst) : State :=
  { ((onAt 10000000).setFld (A.PRT_EI_CFG 511) F.PRT_EI_CFG_TYPE ty).setBit (A.PRT_EI_CFG 511) 31 true with prot := { protInit with wave := [(511, w)] } }
theorem test_hyp_wfd : ((waveI 0x1F { waveInstInit with ta := some 0, dec := 1 }).waveInst 511).ta = some 0 ∧
    (waveI 0x1F waveInstInit).eiType 511 = 0x1F ∧ 0 + nsOf ((waveI 0x1F waveInstInit).exf 511 1) ≤ (waveI 0x1F waveInstInit).tim.now ∧
    (waveI 0x1F waveInstInit).eiOn 511 = true ∧ (waveI 0x1F waveInstInit).blocked 511 = false ∧
    ((waveI 0x1F { waveInstInit with ta := some 0, dec := 1 }).waveInst 511).dec = (waveI 0x1F waveInstInit).exn 511 0 F.EX_WFD_DIR + 1 := by
  decide +kernel
/-- A CLIPPED sample lies in the window of 1 ms; without samples nothing passes. -/
def supervised : State :=
  { (waveI 0x1F { waveInstInit with ta := some 0, dec := 1 }).setReg (A.PRT_EX 511 1) 0x3A83126F with
      chain := { chainInit with bays := [(0, { bayChainInit with wave := [modal 0 0 true] })] } }
theorem test_hyp_wfd_supervised : supervised.supPass 0 511 0 = true ∧ 0 + nsOf (supervised.exf 511 1) ≤ supervised.tim.now := by decide +kernel
theorem test_hyp_wfd_unsupervised : (waveI 0x1F waveInstInit).supPass 0 511 1 = false := by decide +kernel
theorem test_hyp_wfd_hold : ((waveI 0x1F { waveInstInit with holdEnd := some 10000000 }).waveInst 511).holdEnd = some 10000000 ∧
    10000000 ≤ (waveI 0x1F waveInstInit).tim.up := by decide +kernel
theorem test_hyp_locate : ((waveI 0x20 { waveInstInit with locate := some 100 }).waveInst 511).locate = some 100 ∧
    ((waveI 0x20 { waveInstInit with locate := some 100 }).waveInst 511).far = false ∧ (waveI 0x20 waveInstInit).eiType 511 = 0x20 ∧
    (waveI 0x20 waveInstInit).eiOn 511 = true ∧ (waveI 0x20 waveInstInit).blocked 511 = false ∧
    ((100 : Nat) : Rat) + 2 * (waveI 0x20 waveInstInit).cflLen 511 / (waveI 0x20 waveInstInit).cflVel 511 * 1000 ≤ (waveI 0x20 waveInstInit).tim.now := by
  decide +kernel

/-- Plan 15 of bay 0 is due to write its first sample. -/
def plan15 : State := ((onAt 10000000).setReg (A.CAP_PLAN_CFG 15) 0x80000000).setCapPlan 15 { capPlanInit with next := some 0 }
theorem test_hyp_cap_sample : (plan15.capPlan 15).next = some 0 ∧ plan15.bit (A.CAP_PLAN_CFG 15) 31 = true ∧ (plan15.capPlan 15).closing = false ∧
    ((gridNs (plan15.planRate 15) 0 : Nat) : Rat) + plan15.chainDelay (plan15.planBay 15) ≤ plan15.tim.now := by decide +kernel
def capPost : CapPost := { bay := 7, n := 0, t := 0, bits := [] }
theorem test_hyp_cap_post : ({ on with cap := { capInit with posted := [capPost] } } : State).cap.posted = [capPost] ∧ capPost.bay = 7 := by decide
theorem test_hyp_cap_close : ((capOpen (onAt 10000000)).capPlan 0).open_.getLast? = some 0 ∧
    ((((capOpen (onAt 10000000)).recFill 0 0).recSnaps 0 0).capRec 0) =
      some { capR with samples := [{ t := 1000000, words := [], digital := [] }] } ∧ capR.endT ≤ 1000000 ∧
    capR.endT + 6190000 ≤ (capOpen (onAt 10000000)).tim.now := by decide +kernel
/-- The same with a burst on bay 0. -/
def capBurst : State := { capOpen (wave0 bayChainInit) with prot := { protInit with bays := [(0, { bayProtInit with burst := [arr] })] } }
theorem test_hyp_snapshot : (capBurst.bayProt 0).burst = arr :: [] ∧ arr.t + 1250000 ≤ capBurst.tim.now ∧ (capBurst.waveLanes 0).length = 3 ∧ tabGet [] capBurst.cap.snaps 0 = [] ∧
    (capR.samples.head?.map (·.t)).getD capR.trig ≤ arr.t ∧ arr.t ≤ capR.endT ∧ capR.lastBurst ≠ some arr.t ∧ capR.snaps.length < 16 ∧
    1536 + capR.samples.length * capBurst.capS 0 + (capR.snaps.length + 1) * 29520 ≤ 65536 * capR.blocks.length := by decide +kernel
theorem test_hyp_snapshot_plan : (List.range 16).filter (fun p => (([1, 2, 3, 4, 5, 6, 7, 8, 9, 10, 11, 12, 13, 14, 15].foldl (fun (s : State) p =>
    s.setFld (A.CAP_PLAN_CFG p) F.CAP_PLAN_CFG_BAY 7) capBurst).planBay p == 0)) = [0] := by decide +kernel
theorem test_hyp_cap_peer : (((capOpen on).setBit A.PLY_STAT 24 true).setBit (A.CAP_PLAN_CFG 0) 29 true).bit A.PLY_STAT 24 = true ∧
    (((capOpen on).setBit A.PLY_STAT 24 true).setBit (A.CAP_PLAN_CFG 0) 29 true).bit (A.CAP_PLAN_CFG 0) 29 = true ∧
    (((capOpen on).setBit A.PLY_STAT 24 true).setBit (A.CAP_PLAN_CFG 0) 29 true).bit (A.CAP_PLAN_CFG 0) 31 = true ∧
    ((capOpen on).capPlan 0).open_ = 0 :: [] ∧ 1000000 ≤ capR.endT ∧ 1000000 ≤ capR.first + 8000000000 := by decide

/-! ### Clusters and the Reeve -/

/-- C3 in a state, with this gating in progress. -/
def cluster3 (st : Nat) (g : Option GateSt) : State :=
  { (onAt 5000).setFld (A.PWR_CLUSTER 3) F.PWR_CLUSTER_STATE st with pwr := { on.pwr with gates := tabPut none [] 3 g } }
/-- C2 idle, its next task due in `n` ns. -/
def cluster2 (n : Nat) : State :=
  { ((onAt 5000).setReg (A.HDL_TCFG 3 15) 0x80000000).setReg (A.PWR_CLUSTER 2) 0 with
      hdl := { hdlInit with heddles := [(3, { heddleInit with lastRel := [(15, some (5000 + n))] })] } }
theorem test_hyp_gate : (cluster2 200001).Live ∧ (cluster2 0).fld (A.PWR_CLUSTER 2) F.PWR_CLUSTER_STATE = 0 ∧ tabGet none (cluster2 0).pwr.gates 2 = none ∧
    (cluster2 200001).clusterIdle 2 = true ∧ (cluster2 200001).knownReleases 2 = [200001] ∧ (cluster2 200000).clusterIdle 2 = true ∧
    (cluster2 200000).knownReleases 2 = [200000] := by decide +kernel
theorem test_hyp_gated_cluster : tabGet none (cluster3 0 (some { target := 2, at_ := 0, wake := true })).pwr.gates 3 = some { target := 2, at_ := 0, wake := true } ∧
    tabGet none (cluster3 0 (some { target := 1, at_ := 0, wake := false })).pwr.gates 3 = some { target := 1, at_ := 0, wake := false } ∧
    0 + 2000 ≤ (cluster3 0 none).tim.up ∧ (cluster3 1 none).fld (A.PWR_CLUSTER 3) F.PWR_CLUSTER_STATE = 1 ∧
    (cluster3 2 none).fld (A.PWR_CLUSTER 3) F.PWR_CLUSTER_STATE = 2 := by decide
theorem test_hyp_reeve : ([1, 2, 3, 4, 5, 6, 7, 8] : List Int).length = 8 ∧ on.pwr.reeveAt = none ∧
    on.fld A.SUP_ECC F.SUP_ECC_CORR < fldMax F.SUP_ECC_CORR ∧ on.fld A.SUP_PFLT F.SUP_PFLT_COUNT < fldMax F.SUP_PFLT_COUNT ∧
    foreignLoaded 0 0x02780000 = true ∧ foreignLoaded 8 0x02780000 = false := by decide
/-- C3 active with its clock raised at 0 and throttling due. -/
def hot3 : State := { onAt 1000000000 with pwr := { on.pwr with raised := [(3, some 0)], throttleAt := [(3, some 1000000000)] } }.setReg (A.PWR_CLUSTER 3) 0
theorem test_hyp_clock : hot3.fld (A.PWR_CLUSTER 3) F.PWR_CLUSTER_STATE ≠ 3 ∧ hot3.raisedAt 3 = some 0 ∧ 0 + 1000000000 ≤ hot3.tim.up ∧ hot3.floorPoint 3 ≤ 4 ∧
    hot3.throttle 3 = some 1000000000 ∧ hot3.point 3 ≤ 4 := by decide

/-! ### Time -/

/-- Source `k` in use in time state `st`. -/
def timed (k st : Nat) : State :=
  { ((((onAt 61000000000).setReg A.TIM_CFG 0xE0000000).setFld A.TIM_STAT F.TIM_STAT_SRC k).setFld A.TIM_STAT F.TIM_STAT_STATE st).setFld A.CFG_STAT
      F.CFG_STAT_STATE 1 |>.setFld A.PLY_STAT F.PLY_STAT_ROLE 0 with
      tim := { (onAt 61000000000).tim with best := some (7, 6, 0x21, 1, 2), syncWait := some (2, 5, 0), lockCount := 7, annAt := some 0, pdWait := [2],
                                           present := [(3, some 0)] } }
theorem test_hyp_measure : (timed 1 2).Live ∧ (timed 1 2).srcEnabled 1 = true ∧ (timed 1 2).timSrc = 1 ∧ (timed 1 2).ptpMine 2 7 0 = true ∧
    (timed 1 2).ptpPort 2 = true ∧ (timed 1 2).tim.syncWait = some (2, 5, 0) ∧ (timed 1 2).timState = 2 ∧ (timed 1 1).timState = 1 ∧
    (10000 : Int).natAbs ≤ 10000 ∧ 7 ≤ (timed 1 1).tim.lockCount := by decide
theorem test_hyp_measure_other : (timed 3 2).srcEnabled 3 = true ∧ (timed 3 2).timSrc = 3 ∧ (timed 2 2).srcEnabled 2 = true ∧ (timed 2 2).timSrc = 2 ∧
    ((timed 2 2).reg A.TIM_PPSDLY).toNat = 0 ∧ 2 * ((61 : Int) * 1000000000 + 0 - (timed 2 2).tim.now).natAbs < 1000000000 := by decide

theorem test_hyp_ptp : (timed 1 2).ptpPort 3 = true ∧ announce.domain = ({ timed 1 2 with tim := timInit } : State).fld A.TIM_CFG F.TIM_CFG_DOMAIN ∧
    announce.clockClass < 248 ∧ ({ timed 1 2 with tim := timInit } : State).tim.best = none ∧ announce.accuracy < 256 ∧ announce.stepsRemoved < 65536 ∧
    (timed 1 2).tim.annAt = some 0 ∧ 0 + 3 * (timed 1 2).tim.annMs * 1000000 ≤ (timed 1 2).tim.up ∧ (timed 1 2).altMaster = none ∧
    ({ timed 1 2 with tim := { (timed 1 2).tim with alt := some ((7, 6, 0x21, 1, 3), (60000000000, 1000)) } } : State).altMaster ≠ none := by decide
theorem test_hyp_pdelay : ((timed 1 2).pairPorts (timed 1 2).ptpProcess).filter (fun p => (timed 1 2).ptpPort p) = [2, 3] ∧
    (timed 1 2).mayTransmit = true ∧ (timed 1 2).tim.pdLast = none ∧ ((timed 1 2).txRing 14).length < 64 ∧ ((timed 1 2).txRing 15).length < 64 ∧
    2 ∈ (timed 1 2).tim.pdWait := by decide
theorem test_hyp_source : (timed 2 2).srcSince 3 = some 0 ∧ (timed 2 2).srcEnabled 3 = true ∧ 0 + 10000000000 ≤ (timed 2 2).tim.up ∧
    srcRank (timed 2 2).timSrc < srcRank 3 := by decide
theorem test_hyp_source_loss : ((timed 3 2).setBit A.TIM_STAT 25 false).srcEnabled 3 = true ∧ ((timed 3 2).setBit A.TIM_STAT 25 false).timSrc = 3 ∧
    ((timed 3 2).setBit A.TIM_STAT 25 false).timState = 2 ∧ ((timed 3 2).setBit A.TIM_STAT 25 false).bit A.TIM_STAT 25 = false := by decide
theorem test_hyp_source_alone : ∀ j < 8, j ≠ 3 → (timed 3 2).srcEnabled j = true → (timed 3 2).srcSince j = none := by decide
theorem test_hyp_holdover : (timed 0 3).timState = 3 ∧ (timed 0 3).bit A.TIM_STAT 26 = false ∧
    (timed 0 3).tim.lockEnd.getD 0 + 60000000000 ≤ (timed 0 3).tim.up := by decide
theorem test_hyp_leap : ({ on with tim := { timInit with leapAt := some (0, 1) } } : State).tim.leapAt = some (0, 1) ∧ (0 : Nat) ≤ on.tim.now := by decide
theorem test_hyp_second : (61 : Nat) = (timed 1 2).tim.now / 1000000000 ∧ (61 : Nat) ≠ (timed 1 2).tim.lastSec ∧ 2 ≤ (timed 1 2).timState ∧
    (timed 1 1).timState < 2 := by decide

/-! ### Loops, controlled closing and the Peal table -/

/-- Block 511 is due at the latest grid instant; its period is 100 µs. -/
def loop511 : State := { (onAt 1000000).setFld (A.SPN_BPER 511) F.SPN_BPER_K 1 with spn := { spnInit with blocks := [(511, { blockInit with next := some 1000000 })] } }
theorem test_hyp_loop : loop511.Live ∧ (loop511.loopB 511).next = some 1000000 ∧ 1000000 ≤ loop511.tim.now ∧ loop511.loopTurn 511 1000000 = true ∧
    loop511.loopPeriod 511 ≠ 0 ∧ loop511.gateHolds 2 = false ∧ loop511.tim.now < 2 ^ 64 := by decide +kernel
theorem test_hyp_follow : (((on.setFld A.PLY_STAT F.PLY_STAT_ROLE 2).setBit A.PLY_STAT 24 true).loopFollow) = true := by decide

/-- Bay 7 controls closing in state `st`, its pulse ends and its window end reached. -/
def closing7 (st : Nat) (driven : Bool) : State :=
  { ((onAt 1000000).setFld (A.PEL_CC_STAT 7) F.PEL_CC_STAT_STATE st).setBit (A.PEL_CC_CFG 7) 31 true with
      peal := { pealInit with close := [(7, some { tReq := 0, tCmd := 1000000, tEst := 0, tTgt := 0, pulseEnd := 1000000, winEnd := 1000000, onset := none,
                                                   fall := none, driven := driven, cfg := 0 })], launches := [(127, some { t := 1000000, msg := gooseMsg })] } }
theorem test_hyp_closing : (∀ st < 4, (closing7 st true).ccState 7 = st) ∧ ((closing7 1 false).close 7).map (·.tCmd) = some (closing7 1 false).tim.now ∧
    ((closing7 3 true).close 7).map (fun c => (c.driven, c.pulseEnd)) = some (true, (closing7 3 true).tim.up) ∧
    ((closing7 2 false).close 7).map (fun c => (c.driven, c.winEnd)) = some (false, (closing7 2 false).tim.up) ∧
    tabGet none (closing7 0 false).peal.launches 127 = some { t := 1000000, msg := gooseMsg } ∧ 1000000 ≤ (closing7 0 false).tim.now := by decide

/-- Entry 1023 is armed for action `k`, due now, with this P0. -/
def peal1023 (k p0 : Nat) : State :=
  ((((onAt 1000000).setFld (A.PEL_CTL 1023) F.PEL_CTL_ACTION k).setFld (A.PEL_ST 1023) F.PEL_ST_STATE 1).setReg (A.PEL_T_LO 1023) 1000000).setReg (A.PEL_P0 1023)
    (BitVec.ofNat 32 p0)
theorem test_hyp_peal : (peal1023 1 0).Live ∧ (∀ k < 9, (peal1023 k 0).pealOn 1023 = true ∧ (peal1023 k 0).pealAction 1023 = k ∧ (peal1023 k 0).pealNext 1023 = 0 ∧
      (peal1023 k 0).pealAt 1023 0 ≤ (peal1023 k 0).tim.now + (peal1023 k 0).pealLead 1023) ∧ (peal1023 2 0).ovlUsable 0 = true ∧
    (peal1023 2 0).cfg.acts.length < 4 ∧ ((peal1023 4 511).setFld (A.SPN_BSTAT 511) F.SPN_BSTAT_MODE 1).spnMode 511 = 1 := by decide
theorem test_hyp_peal_event : (((peal1023 5 63).setReg (A.HDL_TCFG 3 31) 0xC0000000).setFld A.HDL_STAT F.HDL_STAT_MODE 0).logicMode = 0 ∧
    ((peal1023 5 63).setReg (A.HDL_TCFG 3 31) 0xC0000000).bit (A.HDL_TCFG 3 31) 30 = true ∧ 63 / 16 % 4 = 3 ∧ 16 + 63 % 16 = 31 ∧
    ((peal1023 5 63).heddle 3).rels.length < 16 := by decide
theorem test_hyp_peal_turn : (peal1023 1 0).pealTurn 1023 = true := by decide +kernel
theorem test_hyp_peal_soon : ({ peal1023 1 0 with tim := timInit } : State).pealSoon 1023 = true := by decide +kernel
theorem test_hyp_peal_slot : (∀ x ∈ (peal1023 1 0).peal.slots, x.1 ≠ 1023) ∧
    ((peal1023 1 0).peal.slots.filter (fun x => (peal1023 1 0).pealSoon x.1)).length < 16 ∧
    ({ peal1023 1 0 with tim := timInit } : State).tim.now < ({ peal1023 1 0 with tim := timInit } : State).pealAt 1023 0 := by decide

/-! ### Network -/

/-- The image's declarations that the messages below belong to. -/
def img : Image :=
  { magicOk := true, major := 1, minFw := 0, deviceType := 0, serial := 0, ownerPair := 0, sig := sigOk, hash := 5, manifest := [], badSection := none, params := [],
    signals := [], reels := none, logic := none, logicData := none, tunables := [],
    goosePub := [{ g := 31, dst := 0, confRev := 1, gocbRef := "", datSet := "", goID := "", members := [] }],
    gooseSub := [{ s := 127, dst := 0, confRev := 0, gocbRef := "", datSet := "", types := [], maps := [] }], svPub := [],
    svSub := [{ n := 15, dst := 0, confRev := 0, svID := "" }],
    hank := [{ m := 0, mac := 1, product := 0x01020304, safe := [], subst := [], param := [] }],
    pairing := some { yarn := 1, adoptive := true, ownerPair := 0, alone := 0, claimWd := 0, digA := 0, digB := 0 }, overlays := [] }

/-- SIMPLEX under that image, switched at 0, both pairs in PRP, one second after. -/
def net : State :=
  { (((((onAt 1000000000).setReg A.PLY_STAT 0).setFld A.CFG_STAT F.CFG_STAT_STATE 1).setFld A.NET_CFG F.NET_CFG_LIFECHK 100).setReg (A.NET_GS_CFG 127)
      0x80000001).setReg (A.NET_SVS_CFG 15) 0x80000000 |>.setReg (A.NET_GP_CFG 31) 0x80000000 |>.setReg (A.HNK_MOD_CFG 0) 0x80000000 with
      cfg := { cfgInit with switched := some 0, image := some img } }

theorem test_hyp_port : net.Live ∧ net.bit A.NET_STAT (28 + 3) ≠ true ∧ net.portPowered 3 = true ∧ net.pairMode true = 0 ∧ net.role = 0 ∧
    net.cfg.switched ≠ none ∧ net.net.lifeAt = [] ∧ net.rxPort 3 = true ∧ net.pairMac true ≠ 5 := by decide
theorem test_hyp_lanok : tabGet none ({ net with net := { netInit with lanSeen := [(3, some 0)] } } : State).net.lanSeen 3 = some 0 ∧
    (net.setBit A.NET_STAT (20 + 3) true).bit A.NET_STAT (20 + 3) = true ∧ 0 + 3 * net.lifeNs ≤ net.tim.up := by decide
/-- Bay 7 publishes 4,000 samples a second. -/
def svp7 : State :=
  { (net.setFld (A.FLT_BAYCFG 7) F.FLT_BAYCFG_FIXED 1).setBit (A.NET_SVP_CFG 7) 31 true with net := { netInit with svp := [(7, { next := some 0 })] } }
theorem test_hyp_sv_publish : svp7.fixedRate 7 = 4000 ∧ max 1 (svp7.fld (A.NET_SVP_CFG 7) F.NET_SVP_CFG_NOASDU) = 1 ∧ svp7.bit (A.NET_SVP_CFG 7) 31 = true ∧
    (gridNs 4000 (svp7.svNext 7 + 1 - 1) : Rat) + svp7.bayDelay 7 ≤ svp7.tim.now := by decide +kernel
theorem test_hyp_sv_receive : (net.rxAccept 2 svMsg.lenOk (net.dstKnown true svMsg.dst) svMsg.prp).1 = true ∧
    net.svMatches svMsg = [{ n := 15, dst := 0, confRev := 0, svID := "" }] ∧ svMsg.simulation = false ∧ svMsg.datasetOk = true ∧
    (∀ a ∈ svMsg.asdus, a.smpCnt < net.svRate 15) ∧ ((net.setSvs 15 { svSubInit with lastAt := some 0 }).svs 15).lastAt = some 0 ∧
    0 + 10000000 ≤ net.tim.up ∧ net.svState 15 ≠ 2 := by decide
theorem test_hyp_goose_publish : (net.pubBlock 31).map (·.members) = some [] ∧ net.pubOn 31 = true ∧ (net.pub 31).hold = none ∧ (net.pub 31).started = false ∧
    ((net.setPub 31 { pubInit with started := true, nextTx := some 0 }).pub 31).nextTx = some 0 ∧
    ((net.setPub 31 { pubInit with hold := some 0 }).pub 31).hold = some 0 := by decide
theorem test_hyp_goose_receive : (net.rxAccept 1 gooseMsg.lenOk (net.dstKnown false gooseMsg.dst) gooseMsg.prp).1 = true ∧
    net.subMatches false gooseMsg = img.gooseSub ∧ gooseMsg.simulation = false ∧ gooseMsg.test = false ∧ gooseMsg.vals.map valType = [] ∧
    (net.gsSub 127).deadline = none := by decide
/-- A subscription that has accepted a message. -/
def gsAccepted : State := (net.setSub 127 { subInit with deadline := some 0 }).setReg (A.NET_GS_STNUM 127) gooseMsg.stNum
theorem test_hyp_goose_numbers : (gsAccepted.rxAccept 1 gooseMsg.lenOk (gsAccepted.dstKnown false gooseMsg.dst) gooseMsg.prp).1 = true ∧
    gsAccepted.subMatches false gooseMsg = img.gooseSub ∧ (gsAccepted.gsSub 127).deadline ≠ none ∧
    gsAccepted.reg (A.NET_GS_STNUM 127) = gooseMsg.stNum ∧ (0 - gsAccepted.reg (A.NET_GS_SQNUM 127)).toNat = 0 ∧
    (0x80000000 - gsAccepted.reg (A.NET_GS_SQNUM 127)).toNat = 2 ^ 31 ∧ (1 - gsAccepted.reg (A.NET_GS_SQNUM 127)).toNat = 1 := by decide
theorem test_hyp_goose_lost : ((net.setSub 127 { subInit with deadline := some 0 }).gsSub 127).deadline = some 0 ∧
    ((net.setOctet (iBase + 0x100 + 15) 0x80).gooseValid 127) = true := by decide

/-- A module's ANNOUNCE payload with its product. -/
def annBytes : List Byte := [1, 2, 3, 4] ++ List.replicate 16 0
theorem test_hyp_hank_announce : (net.hankRx 2 (pdu 1 annBytes)).1 = true ∧ (net.hankDecl 0).map (·.product) = some 0x01020304 ∧
    (pdu 1 annBytes).payload.length = 20 ∧ (0x01020304 : Word).toNat = beVal ((pdu 1 annBytes).payload.take 4) ∧ (pdu 1 annBytes).mac ≠ 0 := by decide
/-- The same module in a state of its own. -/
def mod0 (x : ModSt) (st : Nat) : State := (net.setMod 0 x).setFld (A.HNK_MOD_ST 0) F.HNK_MOD_ST_STATE st
theorem test_hyp_hank_config : ((mod0 { modInit with cfgAt := some 0 } 1).hnkMod 0).cfgAt = some 0 ∧ 0 + 50000000 ≤ net.tim.up ∧ net.hankDecl 0 ≠ none ∧
    (net.hankRx 2 (pdu 3 [0, 0, 0, 0, 0, 0])).1 = true ∧ (mod0 modInit 1).modState 0 = 1 ∧ ((mod0 modInit 1).hnkMod 0).exchange = false := by decide
theorem test_hyp_hank_exchange : ((mod0 { modInit with exchange := true, nextOut := some 1000000000, anySeq := true } 2).hnkMod 0).nextOut = some 1000000000 ∧
    1000000000 ≤ net.tim.now + 20000 ∧ (net.hankRx 2 (pdu 5 [0, 0])).1 = true ∧ net.fld (A.HNK_MOD_CFG 0) F.HNK_MOD_CFG_ILEN = 0 ∧
    ((mod0 { modInit with exchange := true, anySeq := true } 2).hnkMod 0).anySeq = true := by decide
theorem test_hyp_hank_lost : ((mod0 { modInit with lastIn := some 0 } 2).hnkMod 0).lastIn = some 0 ∧ (mod0 modInit 2).modState 0 = 2 ∧
    0 + net.fld (A.HNK_MOD_CFG 0) F.HNK_MOD_CFG_STALE * net.hankPeriod 0 < net.tim.up := by decide

/-! ### Twins -/

/-- A ply of a twin with this role; the link, its claim and the peer's claim as given. -/
def twin (role : Nat) (link claims peer : Bool) : State :=
  ((({ onAt 60000000000 with cfg := { cfgInit with switched := some 0, image := some img } }.setFld A.PLY_STAT F.PLY_STAT_ROLE role).setBit A.PLY_STAT 24
    link).setBit A.PLY_STAT 27 claims).setBit A.PLY_STAT 26 peer

theorem test_hyp_link : (twin 3 false false false).Live ∧ (twin 3 false false false).linkUp = false ∧ (twin 3 false false false).role = 3 ∧
    (twin 2 true false false).linkUp = true ∧ (((twin 2 true false false).setBit A.PLY_STAT 22 true).mayTake) = true ∧
    (twin 2 true false false).peerClaims = false ∧ (twin 1 true true false).mayTake = false ∧ ((twin 2 false false false).setBit A.PLY_STAT 23 true).isol = true := by
  decide
theorem test_hyp_isolation : ({ twin 2 false false true with ply := { plyInit with linkDown := some 0 } } : State).ply.linkDown = some 0 ∧
    (twin 2 false false true).isol = false ∧ (twin 2 false false true).peerClaims = true ∧ 0 + 5000 ≤ (twin 2 false false true).tim.up := by decide
theorem test_hyp_alone : (twin 3 false false false).cfg.switched = some 0 ∧ (twin 3 false false false).peerClaims = false ∧
    0 + (twin 3 false false false).fld A.PLY_CFG F.PLY_CFG_ALONE * 500000000 ≤ (twin 3 false false false).tim.up := by decide
theorem test_hyp_claims : ({ twin 1 true true false with ply := { plyInit with claimAt := some 60000000000 } } : State).ply.claimAt = some 60000000000 ∧
    (twin 1 true true false).claiming = true ∧ (twin 1 true false false).claiming = false ∧ (twin 1 true false false).ply.backoff = none ∧
    (twin 1 true false true).peerClaims = true ∧ (twin 1 true false true).tim.now < 2 ^ 64 ∧ (twin 1 true true false).role ≠ 0 ∧
    ({ twin 1 true false false with ply := { plyInit with backoff := some 0 } } : State).ply.backoff = some 0 := by decide

def pairing : Pairing := { yarn := 1, adoptive := false, ownerPair := 0, alone := 1, claimWd := 1, digA := 0, digB := 9 }
/-- Side A with its own digest 0 in a strict pair: the identity of side B carries the digest that the image names. -/
def strict : State :=
  { (List.range 12).foldl (fun (s : State) w => s.setReg (A.SEC_ID w) 0) (twin 1 true true false) with
    cfg := { cfgInit with image := some { img with pairing := some pairing } } }
theorem test_hyp_admission : strict.cfg.image.map (·.hash) = some peerId.imageHash ∧ strict.ownAdmissible pairing = true ∧
    strict.peerAdmissible pairing peerId = true ∧ peerId.sideB = (!strict.sideB) ∧ strict.peerAdmissible pairing { peerId with certOk := false } = false := by
  decide +kernel

/-- The plies' results are merged; bay 7 waits with frame 5. -/
def merging7 : State :=
  { twin 2 true false false with ply := { plyInit with waiting := [(7, some { n := 5, bits := [(0, (true, false))], at_ := 0 })] },
                                 prot := { protInit with bays := [(6, { bayProtInit with hist := [frameB] })] } }
theorem test_hyp_results : merging7.merging = true ∧ tabGet none merging7.ply.waiting 7 = some { n := 5, bits := [(0, (true, false))], at_ := 0 } ∧
    [((0 : Nat), (true, false))].filter (fun e => e.1 == 0) = [(0, (true, false))] ∧ tabGet none merging7.ply.waiting 6 = none ∧
    (merging7.bayProt 6).hist.head? = some frameB ∧ frameB.n < 5 ∧ 0 + 25000 ≤ merging7.tim.up ∧ merging7.fld (A.PLY_BAY 7) F.PLY_BAY_CONSEC < 2 ∧
    2 ≤ (merging7.setFld (A.PLY_BAY 7) F.PLY_BAY_CONSEC 2).fld (A.PLY_BAY 7) F.PLY_BAY_CONSEC := by decide
/-- Joining, in step `j`. -/
def joiner (j : Nat) : State := (twin 3 true false false).setFld A.PLY_STAT F.PLY_STAT_JSTEP j
theorem test_hyp_shadow : (joiner 3).jstep = 3 ∧ ((joiner 3).setBit A.PRT_STAT (24 + 7) true).bit A.PRT_STAT (24 + 7) = true ∧
    1000 ≤ tabGet 0 ({ joiner 3 with ply := { plyInit with shadowN := [(7, 1000)] } } : State).ply.shadowN 7 ∧
    (joiner 3).fld (A.PLY_BAY 7) F.PLY_BAY_SHADOW ≠ 100 := by decide

def supFrame : TxFrame := { body := .prpSupervision, process := true, prpSeq := none, high := false }
def snap : Snapshot :=
  { crcOk := true, retW := [], cArea := [], online := [], force := [], logicMode := 0, overlay := 0, motors := [], loops := [], bins := [], captureNext := 0,
    prpSeqS := 3, prpSeqP := 4, gooseNums := [], hankNums := [], tlrn := [], frameCounts := [], freqs := [] }
theorem test_hyp_sharing : (twin 2 true false true).role = 2 ∧ (twin 2 true false true).isol = false ∧ ((twin 2 true false true).txRing 15).length < 64 ∧
    ({ twin 1 true true false with ply := { plyInit with unacked := [(supFrame, 0)] } } : State).ply.unacked = (supFrame, 0) :: [] ∧
    (twin 1 true true false).holdUntil supFrame = none ∧ 0 + 4000 ≤ (twin 1 true true false).tim.up ∧
    ({ twin 1 true true false with ply := { plyInit with copyAt := some 0 } } : State).ply.copyAt = some 0 ∧ (joiner 2).jstep = 2 ∧
    ({ snap with crcOk := false } : Snapshot).crcOk = false ∧ snap.crcOk = true ∧ inC cBase = true ∧ (twin 2 true false true).ovlUsable 0 = true := by decide
theorem test_hyp_peer_reset : (latched31 (twin 2 true false true)).bit A.PRT_TCH_STATE 31 = true ∧ (latched31 (twin 2 true false true)).channelLatched 31 = true ∧
    (latched31 (twin 2 true false true)).channelSource 31 = false ∧
    ((latched31 (twin 2 true false true)).setBit A.PRT_TCH_PULSE 31 false).bit A.PRT_TCH_PULSE 31 = false := by decide

/-! ### Almanac and overlays -/

def planOn : AlmPlanSt := { almPlanInit with running := true }
/-- Histogram 255 and, apart from it, extreme 1023 take source 7. -/
def alm255 : State := { (on.setFld (A.ALM_PLAN_SRC 255) F.ALM_PLAN_SRC_SRC 45567).setFld (A.ALM_PLAN_CFG 255) F.ALM_PLAN_CFG_MODE 1 with
  alm := { almInit with plans := [(255, planOn)] } }
def alm1023 : State := { (on.setFld (A.ALM_XT_CFG 1023) F.ALM_XT_CFG_SRC 45567).setBit (A.ALM_XL_FLG 1023) 0 true with alm := { almInit with trackers := [(1023, planOn)] } }
theorem test_hyp_alm_value : fpIsFinite 0x3F800000 = true ∧ alm255.almSource 45567 = some (0x3F800000, false) ∧
    alm1023.almSource 45567 = some (0x3F800000, false) ∧
    (List.range 256).filter (fun h => (alm255.almPlan h).running && alm255.fld (A.ALM_PLAN_SRC h) F.ALM_PLAN_SRC_SRC == 45567) = [255] ∧
    (List.range 1024).filter (fun k => (alm255.almTrk k).running && alm255.fld (A.ALM_XT_CFG k) F.ALM_XT_CFG_SRC == 45567) = [] ∧
    alm255.fld (A.ALM_PLAN_CFG 255) F.ALM_PLAN_CFG_MODE = 1 := by decide +kernel
theorem test_hyp_alm_extreme : (List.range 256).filter (fun h => (alm1023.almPlan h).running && alm1023.fld (A.ALM_PLAN_SRC h) F.ALM_PLAN_SRC_SRC == 45567) = [] ∧
    (List.range 1024).filter (fun k => (alm1023.almTrk k).running && alm1023.fld (A.ALM_XT_CFG k) F.ALM_XT_CFG_SRC == 45567) = [1023] ∧
    alm1023.bit (A.ALM_XL_FLG 1023) 0 = true ∧ alm1023.tim.now < 2 ^ 64 ∧ (alm1023.setReg (A.ALM_XL_MIN 1023) 0x40000000).reg (A.ALM_XL_MIN 1023) = 0x40000000 ∧
    fpVal 0x3F800000 < fpVal 0x40000000 := by decide +kernel
/-- Channel 31's interruption is measured; interval 4 ends; one record is staged and the store is scanned. -/
def almRec : AlmRecord :=
  { kind := 1, severity := 3, flags := 0, number := 0, subject := 0, segment := 0, segments := 1, opStart := 0, opEnd := 0, pwrCyc := 0, time := 0, payload := [5],
    refSince := 0 }
def almSt : State :=
  { ((onAt 6000000000).setFld A.ALM_STAT F.ALM_STAT_STATE 1).setReg A.ALM_CAP 3072 with
      alm := { almInit with interrupt := [(31, some { since := 0, peak := 0, i2t := 0 })], nextB := [(4, some 0)], scanned := true,
                            staged := [{ body := almRec, at_ := 0, remote := false }] } }
theorem test_hyp_alm_step : (tabGet none almSt.alm.interrupt 31).map (·.since) = some 0 ∧ 0 + 2000000000 ≤ almSt.tim.up ∧ tabGet none almSt.alm.nextB 4 = some 0 ∧
    almSt.alm.staged = { body := almRec, at_ := 0, remote := false } :: [] ∧ almSt.fld A.ALM_STAT F.ALM_STAT_STATE ≠ 0 ∧
    almSt.fld A.ALM_STAT F.ALM_STAT_STATE ≠ 2 ∧ almSt.alm.late = false ∧ 0 + 5000000000 ≤ almSt.tim.now := by decide
theorem test_hyp_alm_room : (almSt.almRoom almRec).map (·.1) = some 0 := by decide +kernel
/-- The area of permanent records holds 75: one more finds no room. -/
def almFull : State :=
  { almSt with alm := { almSt.alm with store := List.replicate 75 { seq := 0, area := 2, body := almRec } } }
theorem test_hyp_alm_full : (almFull.almRoom { almRec with severity := 7 }).isNone = true := by decide +kernel
theorem test_hyp_alm_scan : ({ almSt with alm := almInit, cfg := { cfgInit with image := some img } } : State).alm.scanned = false ∧
    ({ almSt with alm := almInit, cfg := { cfgInit with image := some img } } : State).cfg.image ≠ none := by decide

/-- O1 changes channel 31's configuration and bay 7's; it is due. -/
def ovl1 : State :=
  { on with cfg := { cfgInit with acts := [{ k := 1, t := 0, src := 2 }],
                                  image := some { img with overlays := [{ number := 1, entries := [(addrParam (A.PRT_TCH_CFG 31), 0x80000000),
                                                                                                  (addrParam (A.PRT_BAYCFG 7), 0x80000000)] }] } } }
theorem test_hyp_overlay : ovl1.cfg.acts = { k := 1, t := 0, src := 2 } :: [] ∧ 0 ≤ ovl1.tim.now ∧ ovl1.fld A.CFG_OVL F.CFG_OVL_INFORCE = 0 ∧
    (∀ e ∈ ovl1.ovlPatch 0 ++ ovl1.ovlPatch 1, e.1 ≠ A.CFG_OVL ∧ e.1 ≠ A.CFG_OVL_T_LO ∧ e.1 ≠ A.CFG_OVL_T_HI) ∧
    (ovl1.ovlChanges 0 1).map (·.1) = [A.PRT_TCH_CFG 31, A.PRT_BAYCFG 7] ∧ ovl1.ovlPlace (A.PRT_BAYCFG 7) = some (7, false) := by decide +kernel

/-! ### Power, resets and the start -/

theorem test_hyp_restart : ({ onAt 1000000 with host := { hostInit with restartAt := some (0, 1) } } : State).host.restartAt = some (0, 1) ∧
    0 + 1000000 ≤ (onAt 1000000).tim.up ∧ on.pwr.on = true ∧ (twin 1 true true false).role = 1 ∧ (twin 1 true true false).claiming = true ∧
    (twin 1 true true false).ply.claimFed + (twin 1 true true false).fld A.PLY_CFG F.PLY_CFG_CLAIMWD * 1000000 ≤ (twin 1 true true false).tim.up := by decide
/-- Watchman mode 100 ms after the power-fail warning. -/
def watchman : State := (onAt 100000000).setFld A.PWR_DOMAIN_STAT F.PWR_DOMAIN_STAT_WATCHMAN 1
theorem test_hyp_watchman_exit : watchman.inWatchman = true ∧ watchman.pwr.on = true ∧ watchman.pwr.pfwAt + 100000000 ≤ watchman.tim.up := by decide
/-- A command of a gated domain (WatchmanGating). -/
theorem test_hyp_gated : ungated (.ldb 0) = false ∧ watchman.inWatchman = true := by decide
/-- The start has gone so far. -/
def phase (n : Nat) : State :=
  { (onAt 20000000).setFld A.SUP_STAT F.SUP_STAT_PHASE n with pwr := { on.pwr with refclk := true }, acq := { acqInit with calStart := some 0 },
                                                              cfg := { cfgInit with boot := some bootBlank, image := some img } }
theorem test_hyp_power : powerIn.vbatLost = false ∧ on.pwr.pfw = false ∧ (phase 7).inWatchman = false ∧ (phase 7).fld A.SUP_STAT F.SUP_STAT_PHASE ≠ 0 ∧
    ({ phase 7 with pwr := { (phase 7).pwr with pfw := true } } : State).pwr.pfwAt + 50000 ≤ (phase 7).tim.up ∧
    ((phase 7).setFld (A.SUP_TEMP 7) F.SUP_TEMP_TEMP 1351).tooHot = true ∧ ((phase 7).setFld (A.SUP_TEMP 7) F.SUP_TEMP_TEMP 1350).tooHot = false ∧
    (phase 7).fld A.ALM_STAT F.ALM_STAT_STATE ≠ 2 := by decide
theorem test_hyp_start_cal : (List.replicate 17 calRes).length = 17 ∧ (phase 0).fld A.SUP_STAT F.SUP_STAT_PHASE = 0 ∧ (phase 0).pwr.refclk = true ∧
    (phase 0).bit A.PWR_DOMAIN_STAT 1 = false ∧ (phase 1).acq.calStart = some 0 ∧ 0 + 12000000 ≤ (phase 1).tim.up ∧ (phase 1).acq.failed1 = [] ∧
    (∀ n < 17, (phase 1).convState n ≠ 3) ∧ (∀ n < 17, (List.replicate 17 calGood)[n]? = some calGood ∧ (phase 1).calAccepted n calGood = true) ∧
    (List.replicate 16 calGood ++ [calBad])[16]? = some calBad ∧ (phase 1).calAccepted 16 calBad = false := by decide +kernel
theorem test_hyp_lock_pfw : ({ phase 0 with pwr := { (phase 0).pwr with pfw := true } } : State).pwr.pfw = true ∧ (phase 0).pwr.pfw = false := by decide
theorem test_hyp_boot_bad : (phase 1).fld A.SUP_STAT F.SUP_STAT_PHASE = 1 ∧ (phase 1).cfg.boot = some bootBlank ∧ bootDirectory bootBlank = none := by decide

/-- A small image that passes every check, in slot 0 of a Boot memory with firmware in slot 0. -/
def imgGood : Image :=
  { img with deviceType := 0x6480, pairing := none, goosePub := [], gooseSub := [], svSub := [], hank := [], params := [{ id := 0xF181, vals := [500] }],
             reels := some (List.replicate 17 (0xC0007800 :: List.replicate 255 0)),
             signals := List.replicate 96 { primary := 0, svScale := 0, injGain := 0, injTau := 0 },
             manifest := [{ type := 1, inst := 0, optional := false, offset := 384, length := 8, digestOk := true },
                          { type := 2, inst := 0, optional := false, offset := 392, length := 8, digestOk := true }] }
def dirGood : Directory := { dirBad with valid := true, fwSlots := [(0, 1000), (0, 0)], imgSlots := [(1000, 1000), (0, 0)] }
def bootGood : Boot := { bootBlank with size := 65536, dir0 := dirGood, fw0 := some { version := 0, hash := 0, sig := sigOk }, img0 := some imgGood }
/-- Ready to load: Keep memory of 4 MiB, every engine healthy, owner slot 0 written. -/
def loading : State :=
  { ((phase 1).setReg A.SUP_HEALTH 0xFFFFFF).setBit A.SEC_STAT 0 true with
      keep := { keepInit with media := 1, kib := 4096 }, cfg := { cfgInit with boot := some bootGood } }
theorem test_hyp_switch : (phase 6).fld A.SUP_STAT F.SUP_STAT_PHASE = 6 ∧ ({ phase 6 with tim := timInit } : State).tim.now % 1000000000 = 0 ∧
    (phase 6).cfg.image = some img ∧ img.pairing ≠ none ∧ imgGood.pairing = none ∧ (phase 6).ply.peer = none ∧
    ((phase 6).setBit (A.PRT_BAYCFG 7) 31 true).bit (A.PRT_BAYCFG 7) 31 = true := by decide +kernel

/-! ### Host -/

/-- The host domain is on in PCIe mode, an image is in use, SIMPLEX, and one entry waits in Q00 and in Q03. -/
def host : State :=
  ((((net.setBit A.PWR_DOMAIN_STAT 3 true).setFld A.HST_STAT F.HST_STAT_MODE 1).setFld (A.HST_Q_TAIL 0) F.HST_Q_INDEX 1).setFld (A.HST_Q_TAIL 3) F.HST_Q_INDEX
    1).setFld A.HDL_STAT F.HDL_STAT_MODE 0

theorem test_hyp_offers : host.Offers 0 hostEntry ∧ host.Offers 3 hostEntry ∧ hostEntry.p3 = 0 ∧ listedOnly { hostEntry with p0 := 3 } 1 3 = true ∧
    host.noImage = false ∧ listedOnly hostEntry 0 0 = true ∧ host.fld A.HST_STAT F.HST_STAT_MODE = 1 ∧ host.bit A.PWR_DOMAIN_STAT 3 = true := by decide
theorem test_hyp_urgent_convert : (openSlot host 16).firstOpen 16 = some 9830402 ∧ ((openSlot host 16).slice 16).urgent = none ∧ host.s16Away = false ∧
    par (0x106B03 : Word) 20 16 = 16 ∧ par (0x106B03 : Word) 14 8 = 107 ∧ listedOnly { hostEntry with p0 := 0x106B03 } 1 0x1F7F03 = true ∧
    par (0x0F0A03 : Word) 20 16 = 15 ∧ par (0x0F0A03 : Word) 14 8 = 10 := by decide
/-- An actor with its follower in reach. -/
def actorHost : State := (host.setReg A.PLY_STAT 0x29000000 |>.setFld A.PLY_STAT F.PLY_STAT_ROLE 1 |>.setBit A.PLY_STAT 24 true).setFld A.PLY_PEERST F.PLY_PEERST_PROLE 2
theorem test_hyp_yield : actorHost.Offers 0 hostEntry ∧ actorHost.role = 1 ∧ actorHost.linkUp = true ∧ actorHost.ply.lost = false ∧ actorHost.peerRole = 2 := by
  decide
theorem test_hyp_step : (({ host with hdl := (runs ctx [dev 0x7F 0]).hdl } : State).setFld A.HDL_STAT F.HDL_STAT_MODE 2).logicMode = 2 ∧
    (host.reg A.HDL_BRK).toNat / 2 ^ 28 % 4 = 0 ∧ (({ host with hdl := (runs ctx [dev 0x7F 0]).hdl } : State).heddle 0).run ≠ none := by decide
theorem test_hyp_listed : listedOnly { hostEntry with p0 := 127 } 1 0xFFFFFFFF = true ∧ (capOpen host).bit (A.CAP_PLAN_CFG 0) 31 = true ∧
    ((capOpen host).capPlan 0).open_ = 0 :: [] ∧ host.logicMode ≠ 3 ∧ host.fld A.PRT_STAT F.PRT_STAT_ARMED = 0 ∧ host.role ≠ 1 ∧
    (∀ h < 4, (host.heddle h).run = none) := by decide
/-- A closed record of number 5 at directory entry 63. -/
def dir63 : State := { host.setReg (A.CAP_DIR_REC 63) 5 with cap := { capInit with order := [63] } }
theorem test_hyp_held : dir63.heldRec 5 = some 63 ∧ 2 ≤ (dir63.setFld (A.CAP_DIR_INFO 63) F.CAP_DIR_INFO_STATE 2).capState 63 := by decide
theorem test_hyp_trip_reset : (latched31 host).bit (A.PRT_TCH_CFG 31) 29 = true ∧ (latched31 host).channelLatched 31 = true ∧
    (latched31 host).channelSource 31 = false ∧ (latched31 host).role = 0 := by decide +kernel

/-- A force of one octet of Q. -/
def forceP0 : Word := 0x24000000
theorem test_hyp_force : host.sharedWay = .here ∧ par forceP0 30 28 = 2 ∧ par forceP0 27 26 = 1 ∧ par forceP0 23 0 = 0 ∧
    listedOnly { hostEntry with p0 := forceP0, p1 := 5 } 2 0x7CFFFFFF = true ∧ forceParOk 2 1 0x204 5 = true ∧ forceKnown 2 1 0x204 = true ∧
    host.forceTaken 2 1 0x204 = false ∧ ¬ (forceSpan 1 0x204).1 < 8 * 0x204 := by decide +kernel
theorem test_hyp_force_free : host.forceFree = some 0 := by decide +kernel
theorem test_hyp_online_set : ({ host with hdl := { hdlInit with tunables := [tun] } } : State).hdl.tunables[0]? = some tun ∧ tunableTakes tun 9 = true ∧
    host.pendingOnline < 16 ∧ host.ovlUsable 0 = true ∧ (host.cfg.acts.filter (fun a => a.src == 3)).length < 4 := by decide +kernel
theorem test_hyp_ways : (host.setFld A.PLY_STAT F.PLY_STAT_ROLE 3).sharedWay = .nowhere ∧
    ((host.setFld A.PLY_STAT F.PLY_STAT_ROLE 2).setBit A.PLY_STAT 24 true).sharedWay = .forward := by decide

/-- A device with its owner slot 0 written. -/
def owned : State := host.setOctet (otpBase + slotAt 0 + 96) 1
theorem test_hyp_attest : host.sec.report = none ∧ host.qFull 7 = false := by decide
theorem test_hyp_owner_write : owned.noOwner = false ∧ owned.tokenCause 3 false token = 0 ∧ owned.slotBlank 3 = true ∧ owned.slotBlank 0 = false ∧
    host.noOwner = true ∧ host.tokenCause 3 true token = 0 ∧ host.slotBlank 0 = true := by decide +kernel
theorem test_hyp_owner_revoke : (owned.setOctet (otpBase + slotAt 1 + 96) 1).tokenCause 4 false { token with type := 4, target := 1 } = 0 ∧
    (owned.setOctet (otpBase + slotAt 1 + 96) 1).slotSigns 0 = true := by decide +kernel
theorem test_hyp_debug : owned.tokenCause 2 false { token with type := 2 } = 0 ∧
    ({ token with type := 2, identity := owned.ownDigest } : Token).identity = owned.ownDigest ∧
    ((List.range 4).foldl (fun (s : State) w => s.setReg (A.SEC_DBG_CHAL w) 0) owned).challengeIs 0 = true ∧ (owned.setBit A.SEC_STAT 30 false).bit A.SEC_STAT 30 = false ∧
    owned.tokenCause 5 false { token with type := 5 } = 0 ∧ owned.tokenCause 5 false { token with type := 5, formatOk := false } ≠ 0 := by decide +kernel
theorem test_hyp_reports : ({ onAt 3600000000000 with pwr := on.pwr } : State).pwr.attestAt.getD (onAt 3600000000000).tim.upStart + 3600000000000 = 3600000000000 ∧
    ({ on with sec := { secInit with report := some (1, (0, true)), cert := true } } : State).sec.report = some (1, (0, true)) ∧ on.sec.refreshDue = false ∧
    on.qFull 7 = false ∧ on.host.q07Wait = [] ∧ on.pwr.telemAt.getD on.tim.upStart + 1000000000 ≤ (onAt 1000000000).tim.up ∧ on.qFull 6 = false := by decide

theorem test_hyp_reads : host.Live ∧ host.bit A.PWR_DOMAIN_STAT 3 = true ∧ (host.setBit (A.ACQ_ACCCFG 127) 29 true).bit (A.ACQ_ACCCFG 127) 29 = true ∧
    host.bit (A.ACQ_ACCCFG 127) 29 = false ∧ unassigned true 0x1900000 = true ∧ host.fld A.HST_CNT F.HST_CNT_BAD + 1 < 0xFFFF ∧
    host.bit A.ALM_CUR 29 = false ∧ host.fld A.ALM_CUR F.ALM_CUR_MODE % 2 = 0 ∧ host.bit A.ALM_STAT 29 = false := by decide
theorem test_hyp_cursor : (({ host with alm := { almInit with store := [{ seq := 0, area := 0, body := almRec }], cursor := 2 } } : State).alm.store.reverse.find?
    (fun e => Nat.blt (e.seq + 1) 2)) = some { seq := 0, area := 0, body := almRec } := by decide
theorem test_hyp_writes : (1 : Word).toNat < host.qDepth 0 ∧ (1 + host.qDepth 0 - host.qTail 0) % host.qDepth 0 ≤ host.qDepth 0 - 1 - host.qCount 0 ∧
    (0 : Word).toNat < host.qDepth 7 ∧ (0 + host.qDepth 7 - host.qHead 7) % host.qDepth 7 ≤ host.qCount 7 ∧ (0x40000000 : Word).toNat.testBit 29 = false ∧
    (0x40000000 : Word).toNat / 2 ^ 30 = 1 ∧ host.ringWritable (0x1800000 + (host.reg (A.HST_Q_BASE 0)).toNat) = true ∧ A.ALM_CURREC % 4 = 0 := by decide

/-! ### Every command completes: hypotheses that the tests above do not meet -/

/-- HeddleInstructionsComplete: the first and the last opcode of the table that do not end an execution. -/
theorem test_hyp_complete_heddle : ∀ e ∈ [(dev 0x0C 0, Instr.notLb 0), (dev 0x7F 0, .nop 0)],
    (runs ctx [e.1]).nextIns 0 = some (ctx, e.1) ∧ (runs ctx [e.1]).mayRun 0 ctx = true ∧ ctx.count < ctx.limit ∧ heddleIns 0 e.1 = some e.2 ∧
      operandFault e.1 ctx = 0 := by decide
/-- Slice 15's Reel of one slot is a diagnostic entry. -/
def diag15 : State :=
  (((spare .idle).setFld (A.ACQ_SLICE 15) F.ACQ_SLICE_ENTRIES 1).setReg (A.ACQ_REEL 15 0) (BitVec.ofNat 32 (7 * 2 ^ 17))).setFld A.ACQ_STAT
    F.ACQ_STAT_REEL_SRC 1
theorem test_hyp_diag_entry : (diag15.slice 15).urgent = none ∧ (diag15.diagNewest 15).isSome = true := by decide +kernel
theorem test_hyp_in_place : ((spare .idle).setBit A.CAL_ROT_CFG 31 false).rotFree = true ∧ ((spare .idle).setBit A.CAL_ROT_CFG 31 false).bit A.CAL_ROT_CFG 31 = false ∧
    ((spare .idle).setBit A.CAL_ROT_CFG 31 false).rotDue 17 = true ∧ 16 ∈ (queued [] [] [16]).acq.takeQ := by decide +kernel
theorem test_hyp_clock_gated : tabGet none (cluster3 0 (some { target := 1, at_ := 4900, wake := false })).pwr.gates 3 =
    some { target := 1, at_ := 4900, wake := false } ∧ 4900 + 100 ≤ (cluster3 0 none).tim.up := by decide
theorem test_hyp_unforce : ({ on with hdl := { hdlInit with acts := [(0, .unforce 255)] } } : State).hdl.acts = [(0, .unforce 255)] ∧ 0 ≤ on.tim.now := by
  decide
def swept : State :=
  { on.setTimer 4095 { stamp := 0, q := false, run := true, inp := true, acc := 0 } with tim := { timInit with logic := 2 ^ 20 * 1000000 } }
theorem test_hyp_sweep_running : swept.tim.logic / 1000000 % 2 ^ 20 = 0 ∧ 0 < swept.tim.logic / 1000000 ∧ 4095 < tCount ∧ (swept.timer 4095).run = true := by
  decide +kernel
theorem test_hyp_ship : (∀ m, supFrame.body = .goose m → m.g < 32) ∧ (∀ d, supFrame.body = .hank d → d.m < 64) := by
  constructor <;> intro m h <;> cases h
theorem test_hyp_takes : host.takes 0 = true ∧ host.takes 3 = true := by decide

/-! ### The whole machine -/

theorem test_hyp_idle : on.pending = [] ∧ State.reset.pwr.on = false := by decide
theorem test_hyp_canonical : net.Canonical ∧ owned.Canonical := by decide
/-- One clock tick from the state after reset: nothing but time. -/
theorem test_idle_reset : (match step State.reset with
    | .next t => t.tim.up
    | _ => 0) = 1 := by decide
/-- A command of the queue's front is taken. -/
theorem test_step_front : (match step { on with pending := [.tripFbChange 0 true] } with
    | .next t => t.bit A.LIO_TOUT 16 && t.pending.isEmpty
    | _ => false) = true := by decide

/-- The hypotheses of the start's good image. -/
theorem test_hyp_boot_good : bootDirectory bootGood = some dirGood ∧
    (firstSlot (tryFw bootGood dirGood) loading (slotOrder false)).1.isSome = true ∧
    (firstSlot (tryImage bootGood dirGood { version := 0, hash := 0, sig := sigOk }) loading (slotOrder false)).1.isSome = true := by decide +kernel

end Sys2Proof.Tests
end

/-! PROOF. The condition word (R222): its bits as LDCW shows them, and that the context an execution starts with has 0 in every field
of it. -/

namespace Sys2Proof.Proofs

open Sys2Proof Sys2Proof.Machine Sys2Proof.Laws

/-! ### The fields of CW -/

/-- With both stacks within their bounds the sum of the fields fits 32 bits: none of it is lost. -/
theorem toNat_condWord {c : Ctx} (hg : c.groups.length ≤ 16) (hc : c.calls.length ≤ 8) :
    (condWord c).toNat = c.calls.length * 2 ^ 16 + c.groups.length * 2 ^ 8 + c.zero.toNat * 8 + c.sats.toNat * 4 +
      c.sat.toNat * 2 + c.lb.toNat := by
  have hz := c.zero.toNat_le
  have hss := c.sats.toNat_le
  have hs := c.sat.toNat_le
  have hl := c.lb.toNat_le
  exact Nat.mod_eq_of_lt (by omega)

theorem getLsbD_eq_iff {x : Word} {i : Nat} {b : Bool} : x.getLsbD i = b ↔ x.toNat / 2 ^ i % 2 = b.toNat := by
  rw [← Nat.toNat_testBit, BitVec.testBit_toNat]
  cases x.getLsbD i <;> cases b <;> decide

/-- The layout of CW: the four flags, the depths of the two stacks, and 0 in its reserved bits. Each field is a quotient of CW's number. -/
theorem condWord_fields {c : Ctx} (hg : c.groups.length ≤ 16) (hc : c.calls.length ≤ 8) :
    (condWord c).getLsbD 0 = c.lb ∧ (condWord c).getLsbD 1 = c.sat ∧ (condWord c).getLsbD 2 = c.sats ∧
      (condWord c).getLsbD 3 = c.zero ∧ ((condWord c).extractLsb 12 8).toNat = c.groups.length ∧
      ((condWord c).extractLsb 19 16).toNat = c.calls.length ∧ ((condWord c).extractLsb 7 4).toNat = 0 ∧
      ((condWord c).extractLsb 15 13).toNat = 0 ∧ ((condWord c).extractLsb 31 20).toNat = 0 := by
  have hz := c.zero.toNat_le
  have hss := c.sats.toNat_le
  have hs := c.sat.toNat_le
  have hl := c.lb.toNat_le
  simp only [getLsbD_eq_iff, BitVec.extractLsb_toNat, Nat.shiftRight_eq_div_pow, toNat_condWord hg hc]
  omega

/-- LDCW puts the condition word into X; counting the instruction changes no field of it. -/
theorem exec_ldcw {s : State} {h : Fin 4} {c : Ctx} {w : BitVec 64} (hr : s.Ready h 0x23 c w) :
    exec (.ldcw h) s = s.ranTo h { c.past with x := condWord c } :=
  heddleStep_ready hr rfl rfl

/-! ### The start of an execution -/

/-- With no breakpoint armed the check for one does nothing (R260). -/
theorem breakCheck_of_unarmed {s : State} (h : Nat) (hb : s.hdl.brk = none) : s.breakCheck h = s := by
  simp only [State.breakCheck, hb]

@[simp] theorem heddle_setHeddle_same (s : State) (h : Nat) (x : HeddleSt) : (s.setHeddle h x).heddle h = x :=
  sparseGet_put_same _ _ _ _

@[simp] theorem setHeddle_brk (s : State) (h : Nat) (x : HeddleSt) : (s.setHeddle h x).hdl.brk = s.hdl.brk := rfl

@[simp] theorem heddle_setFld (s : State) (a : Nat) (f : Fld) (v h : Nat) : (s.setFld a f v).heddle h = s.heddle h := rfl

/-- Waking a cluster leaves the Heddles alone. -/
@[simp] theorem wakeNow_hdl (s : State) (c : Nat) : (s.wakeNow c).hdl = s.hdl := by
  simp only [State.wakeNow]
  split <;> rfl

@[simp] theorem wakeFor_hdl (s : State) (c : Nat) : (s.wakeFor c).hdl = s.hdl := by
  unfold State.wakeFor
  split
  · rfl
  · exact wakeNow_hdl s c

/-- Forcing the input image writes only the shadow registers. -/
@[simp] theorem forceImage_hdl (s : State) (img : Tab Byte) : (s.forceImage img).2.hdl = s.hdl :=
  List.foldlRecOn (motive := fun p : Tab Byte × State => p.2.hdl = s.hdl) _ _ rfl (fun _ hp _ _ => hp)

/-- On a device with supply outside Watchman mode a step of a gated domain runs. -/
theorem awake_of_live {s : State} (hs : s.Live) (f : State → State) : s.awake f = f s := by
  obtain ⟨hw, hp⟩ := hs
  simp [State.awake, hw, hp]

/-- An execution that may start is running on its Heddle afterwards, on the starting context of the release's task. -/
theorem doExecutionStart_run {s : State} {h : Fin 4} {r : Rel} (hn : s.startNext h = some r)
    (hm : s.mayStartRel h r = true) (hg : s.gateHolds 2 = false) (hb : s.hdl.brk = none) :
    ∃ (prio pc clk started limit : Nat) (img : Tab Byte),
      ((doExecutionStart h s).heddle h).run = some (ctxStart r.task prio pc clk r.at_ started limit img) := by
  simp only [doExecutionStart, hn, hm, hg, Bool.not_true, Bool.or_self, Bool.false_eq_true, if_false]
  rw [breakCheck_of_unarmed _ (by simpa using hb), heddle_setFld, heddle_setHeddle_same]
  exact ⟨_, _, _, _, _, _, rfl⟩

/-- Settles O3: LDCW by the fields of the sum that makes up CW, the start of an execution by the context it starts with. -/
theorem conditionWord : Obligations.ConditionWord := by
  unfold Obligations.ConditionWord
  constructor
  · intro s h c w hr hg hc
    exact ⟨condWord c, exec_ldcw hr, condWord_fields hg hc⟩
  · intro s h r hs hn hm hg hb
    obtain ⟨prio, pc, clk, started, limit, img, hrun⟩ := doExecutionStart_run hn hm hg hb
    exact ⟨doExecutionStart h s, _, congrArg Host.Outcome.next (awake_of_live hs _), hrun, rfl, rfl, rfl, rfl, rfl, rfl⟩

end Sys2Proof.Proofs

/-! PROOF. What the shared operations leave of the network's GOOSE side: the publication and subscription registers (R331–R340),
the tables beyond them, time and image. -/

namespace Sys2Proof.Proofs

open Sys2Proof Sys2Proof.Machine Sys2Proof.Laws

/-! ### The relations -/

/-- `t` has the registers of `s` from the publication registers (NET_GP_CFG_0, 0x601000) up to `top`, its GOOSE tables, its time and its
image. What reception does before a subscription takes a message keeps them up to every `top`; every shared operation here keeps
them up to the end of the subscription registers (NET_SVP_CFG_0, 0x603000). -/
structure Kept (top : Nat) (s t : State) : Prop where
  reg : ∀ a, 0x601000 ≤ a → a < top → t.reg a = s.reg a
  pub : t.net.pub = s.net.pub
  sub : t.net.sub = s.net.sub
  tim : t.tim = s.tim
  image : t.cfg.image = s.cfg.image
  switched : t.cfg.switched = s.cfg.switched

/-- `t` has all that and the memory of `s`. -/
structure Quiet (top : Nat) (s t : State) : Prop extends Kept top s t where
  mem : t.mem = s.mem

variable {top : Nat} {s t u : State}

theorem Kept.refl (s : State) : Kept top s s := ⟨fun _ _ _ => rfl, rfl, rfl, rfl, rfl, rfl⟩

theorem Kept.trans (h : Kept top s t) (k : Kept top t u) : Kept top s u :=
  ⟨fun a h1 h2 => (k.reg a h1 h2).trans (h.reg a h1 h2), k.pub.trans h.pub, k.sub.trans h.sub, k.tim.trans h.tim,
    k.image.trans h.image, k.switched.trans h.switched⟩

theorem Quiet.refl (s : State) : Quiet top s s := ⟨.refl s, rfl⟩

theorem Quiet.trans (h : Quiet top s t) (k : Quiet top t u) : Quiet top s u := ⟨h.toKept.trans k.toKept, k.mem.trans h.mem⟩

/-- A change beside registers, GOOSE tables, time, image and memory. -/
theorem Quiet.upd (h : Quiet top s t) (hr : u.regs = t.regs := by rfl) (hp : u.net.pub = t.net.pub := by rfl)
    (hs : u.net.sub = t.net.sub := by rfl) (ht : u.tim = t.tim := by rfl) (hc : u.cfg.image = t.cfg.image := by rfl)
    (hw : u.cfg.switched = t.cfg.switched := by rfl) (hm : u.mem = t.mem := by rfl) : Quiet top s u :=
  ⟨h.toKept.trans ⟨fun a _ _ => by simp only [State.reg, hr], hp, hs, ht, hc, hw⟩, hm.trans h.mem⟩

theorem setReg_quiet {a : Nat} {w : Word} (ha : a < 0x601000 ∨ top ≤ a) (h : Quiet top s t) : Quiet top s (t.setReg a w) :=
  ⟨h.toKept.trans ⟨fun _ _ _ => reg_setReg_ne _ _ (by omega), rfl, rfl, rfl, rfl, rfl⟩, h.mem⟩

theorem setFld_quiet {a : Nat} {f : Fld} {v : Nat} (ha : a < 0x601000 ∨ top ≤ a) (h : Quiet top s t) :
    Quiet top s (t.setFld a f v) := setReg_quiet ha h

theorem setBit_quiet {a i : Nat} {b : Bool} (ha : a < 0x601000 ∨ top ≤ a) (h : Quiet top s t) :
    Quiet top s (t.setBit a i b) := setReg_quiet ha h

theorem incWrap_quiet {a : Nat} {f : Fld} (ha : a < 0x601000 ∨ top ≤ a) (h : Quiet top s t) :
    Quiet top s (t.incWrap a f) := setReg_quiet ha h

/-- The same field put on both sides. -/
theorem Quiet.setFld {a v : Nat} {f : Fld} (h : Quiet top s t) (h1 : 0x601000 ≤ a) (h2 : a < top) :
    Quiet top (s.setFld a f v) (t.setFld a f v) := by
  refine ⟨⟨fun b hb1 hb2 => ?_, h.pub, h.sub, h.tim, h.image, h.switched⟩, h.mem⟩
  rw [State.setFld, State.setFld, reg_setReg, reg_setReg, h.reg a h1 h2, h.reg b hb1 hb2]

theorem forEach_quiet {α : Type} {l : List α} {f : α → State → State} (hf : ∀ x ∈ l, ∀ u, Quiet top s u → Quiet top s (f x u))
    (h : Quiet top s t) : Quiet top s (t.forEach l f) :=
  List.foldlRecOn l _ h fun u hu x hx => hf x hx u hu

/-! ### Events (R479–R482) -/

theorem msix_quiet {n : Nat} (hn : n < 128) (h : Quiet top s t) : Quiet top s (t.msix n) := by
  unfold State.msix
  split
  · split
    · exact setBit_quiet (.inl (by unfold A.HST_MSIX_PBA; omega)) h
    · exact h.upd
  · exact h

theorem qPost_quiet {r : Nat} {e : RingEntry} (hr : r < 16) (h : Quiet top s t) : Quiet top s (t.qPost r e) :=
  setFld_quiet (.inl (by unfold A.HST_Q_TAIL; omega)) h.upd

theorem raiseCore_quiet {src : Nat} {p3 : Word} (hs : src < 128) (h : Quiet top s t) : Quiet top s (t.raiseCore src p3).2 := by
  unfold State.raiseCore
  split
  · exact h.upd
  · extract_lets s1 s2
    have h1 : Quiet top s s1 := setBit_quiet (.inl (by unfold A.HST_EVT_PEND; omega)) h
    have h2 : Quiet top s s2 := by
      unfold s2
      split
      · exact h1
      · exact msix_quiet hs h1
    split
    · exact h2
    · exact (qPost_quiet (r := 2) (by decide) h2).upd

theorem countDrop_quiet (h : Quiet top s t) : Quiet top s t.countDrop := setFld_quiet (.inl (by decide)) h

theorem ringDrop_quiet {r : Nat} (h : Quiet top s t) : Quiet top s (t.ringDrop r) := by
  unfold State.ringDrop
  extract_lets s1
  split
  next d s2 heq =>
  have h2 : Quiet top s (s1.raiseCore Ev.HST_RING_DROP (BitVec.ofNat 32 r)).2 := raiseCore_quiet (by decide) (countDrop_quiet h)
  rw [heq] at h2
  extract_lets s3
  have h3 : Quiet top s s3 := by
    unfold s3
    split
    · exact raiseCore_quiet (by decide) (countDrop_quiet h2)
    · exact h2
  split
  · exact raiseCore_quiet (by decide) (setReg_quiet (a := A.SUP_FAULTINFO) (.inl (by decide)) h3.upd)
  · exact h3

theorem raise_quiet {src p3 : Nat} (h : Quiet top s t) (hs : src < 128 := by decide) : Quiet top s (t.raise src p3) := by
  have h1 : Quiet top s (t.raiseCore src (BitVec.ofNat 32 p3)).2 := raiseCore_quiet hs h
  unfold State.raise
  dsimp only
  split
  · exact ringDrop_quiet h1
  · exact h1

theorem raiseLim_quiet {src item p3 : Nat} (h : Quiet top s t) (hs : src < 128 := by decide) :
    Quiet top s (t.raiseLim src item p3) := by
  unfold State.raiseLim
  dsimp only
  split
  · exact h
  · exact raise_quiet h.upd hs

/-- A field put back as it stands. -/
theorem fldPut_fldGet (f : Fld) (w : Word) : fldPut f (fldGet f w) w = w := by
  have hle : fldGet f w * 2 ^ f.lo ≤ w.toNat :=
    (Nat.mul_le_mul_right _ (Nat.mod_le _ _)).trans (Nat.div_mul_le_self _ _)
  have hmod : fldGet f w % 2 ^ (f.hi + 1 - f.lo) = fldGet f w := Nat.mod_mod _ _
  rw [fldPut, hmod, Nat.sub_add_cancel hle, BitVec.ofNat_toNat, BitVec.setWidth_eq]

theorem fldGet_le_max (f : Fld) (w : Word) : fldGet f w ≤ fldMax f := Nat.le_sub_one_of_lt (Nat.mod_lt _ (by positivity))

/-- A saturating counter goes up to its largest value, and the event of reaching that is quiet. -/
theorem incSat_counts {a src p3 : Nat} {f : Fld} (hs : src < 128 := by decide) :
    Quiet top (t.setFld a f (min (t.fld a f + 1) (fldMax f))) (t.incSat a f src p3) := by
  have hle : t.fld a f ≤ fldMax f := fldGet_le_max f _
  unfold State.incSat
  dsimp only
  split
  next hmax =>
    have hput : fldPut f (min (t.fld a f + 1) (fldMax f)) (t.reg a) = t.reg a := by
      rw [Nat.min_eq_right (by omega), ← hmax]
      exact fldPut_fldGet f _
    refine ⟨⟨fun b _ _ => ?_, rfl, rfl, rfl, rfl, rfl⟩, rfl⟩
    rw [State.setFld, hput, reg_setReg]
    split
    next hb => rw [hb]
    next => rfl
  next hmax =>
    rw [Nat.min_eq_left (by omega)]
    split
    · exact raise_quiet (.refl _) hs
    · exact .refl _

theorem incSat_quiet {a src p3 : Nat} {f : Fld} (ha : a < 0x601000 ∨ top ≤ a) (h : Quiet top s t) (hs : src < 128 := by decide) :
    Quiet top s (t.incSat a f src p3) := (setFld_quiet ha h).trans (incSat_counts hs)

/-! ### Transmission and reception (R326–R329) -/

theorem plySend_quiet {m : PlyMsg} (h : Quiet top s t) : Quiet top s (t.plySend m) := by
  unfold State.plySend
  split
  · exact h.upd
  · exact h

theorem wakeNow_quiet {c : Nat} (htop : top ≤ 0x603000) (h : Quiet top s t) : Quiet top s (t.wakeNow c) := by
  have hc : top ≤ A.PWR_CLUSTER c := by unfold A.PWR_CLUSTER; omega
  unfold State.wakeNow
  dsimp only
  split
  · exact setReg_quiet (.inr (by unfold A.PWR_CGWAKE; omega)) (setFld_quiet (.inr hc) h.upd)
  · exact setReg_quiet (.inr (by unfold A.PWR_PGWAKE; omega)) (setFld_quiet (.inr hc) h.upd)
  · exact h.upd

theorem wakeFor_quiet {c : Nat} (htop : top ≤ 0x603000) (h : Quiet top s t) : Quiet top s (t.wakeFor c) := by
  unfold State.wakeFor
  split
  · exact h.upd
  · exact wakeNow_quiet htop h

theorem pairPorts_lt {process : Bool} {p : Nat} (hp : p ∈ s.pairPorts process) : p < 4 := by
  obtain ⟨hp, -⟩ := List.mem_filter.1 hp
  cases process <;> simp [pairBase] at hp <;> omega

theorem enqueue_quiet {f : TxFrame} {p : Nat} (htop : top ≤ 0x603000) (hp : p < 4) (h : Quiet top s t) :
    Quiet top s (t.enqueue f p) := by
  unfold State.enqueue
  extract_lets q
  split
  · exact wakeFor_quiet htop h.upd
  · split
    · exact raise_quiet h
    · exact raise_quiet (incSat_quiet (.inl (by unfold A.NET_TXDROP; omega)) h)

theorem enqueuePair_quiet {f : TxFrame} (htop : top ≤ 0x603000) (h : Quiet top s t) : Quiet top s (t.enqueuePair f) := by
  unfold State.enqueuePair
  split
  · exact h.upd
  · exact forEach_quiet (fun p hp _ hu => enqueue_quiet htop (pairPorts_lt hp) hu) h

theorem transmit_quiet {process high : Bool} {body : TxBody} (htop : top ≤ 0x603000) (h : Quiet top s t) :
    Quiet top s (t.transmit process high body) := by
  unfold State.transmit
  split
  · exact h
  · extract_lets k numbered seq f n1 s1
    have h1 : Quiet top s s1 := by
      unfold s1
      split
      · exact h.upd
      · exact h
    split
    · exact plySend_quiet h1.upd
    · exact enqueuePair_quiet htop h1

theorem rxPrp_quiet {p : Nat} {tag : Option PrpTag} (hp : p < 4) (h : Quiet top s t) : Quiet top s (t.rxPrp p tag).2 := by
  have ha : A.NET_PRPSTAT p < 0x601000 := by unfold A.NET_PRPSTAT; omega
  unfold State.rxPrp
  split
  · exact h
  · split
    · exact h
    · extract_lets s1 tab
      have h1 : Quiet top s s1 := by
        unfold s1
        split
        · exact raiseLim_quiet (incSat_quiet (.inl ha) h)
        · exact h
      split
      · exact h1
      · split
        · exact incWrap_quiet (.inl ha) h1
        · exact h1.upd

theorem rxAccept_quiet {p : Nat} {lenOk known : Bool} {tag : Option PrpTag} (hp : p < 4) (h : Quiet top s t) :
    Quiet top s (t.rxAccept p lenOk known tag).2 := by
  have ha : A.NET_RXDISC p < 0x601000 := by unfold A.NET_RXDISC; omega
  unfold State.rxAccept
  split
  · exact h
  · split
    · exact incSat_quiet (.inl ha) h
    · split
      · exact incSat_quiet (.inl ha) h
      · exact rxPrp_quiet hp (incWrap_quiet (.inl (by unfold A.NET_RXOK; omega)) h)

theorem ringForward_quiet {pre : State} {p : Nat} {own lenOk : Bool} {tag : Option PrpTag} (h : Quiet top s t) :
    Quiet top s (t.ringForward pre p own lenOk tag) := by
  unfold State.ringForward
  dsimp only
  split
  · exact h
  · split
    · exact h
    · exact h.upd

/-! ### Event tasks and block inputs (R135, R247–R250) -/

theorem countSkip_quiet {h t' : Nat} (hh : h < 4) (ht : t' < 32) (hq : Quiet top s t) : Quiet top s (t.countSkip h t') :=
  incSat_quiet (.inl (by unfold A.HDL_TCNT; omega)) hq

theorem postRelease_quiet {h : Nat} {r : Rel} (htop : top ≤ 0x603000) (hh : h < 4) (hr : r.task < 32) (hq : Quiet top s t) :
    Quiet top s (t.postRelease h r) := by
  unfold State.postRelease
  dsimp only
  split
  · exact raise_quiet (countSkip_quiet hh hr hq)
  · exact wakeFor_quiet htop hq.upd

theorem releaseEvent_quiet {h k : Nat} (htop : top ≤ 0x603000) (hh : h < 4) (hk : k < 32) (hq : Quiet top s t) :
    Quiet top s (t.releaseEvent h k) := by
  unfold State.releaseEvent
  split
  · exact hq
  · split
    · exact raise_quiet (countSkip_quiet hh hk hq)
    · split
      · exact hq
      · split
        · exact raise_quiet (countSkip_quiet hh hk hq)
        · exact postRelease_quiet htop hh hk hq

/-- Event tasks are tasks 16–31 of the four Heddles. -/
theorem eventTasks_lt {src : Nat} {i : Option Nat} {p : Nat × Nat} (hp : p ∈ s.eventTasks src i) : p.1 < 4 ∧ p.2 < 32 := by
  obtain ⟨h, hh, hp⟩ := List.mem_flatMap.1 hp
  obtain ⟨k, hk, rfl⟩ := List.mem_map.1 (List.mem_filter.1 hp).1
  rw [List.mem_range] at hh hk
  exact ⟨hh, by omega⟩

theorem releaseBySource_quiet {src : Nat} {i : Option Nat} (htop : top ≤ 0x603000) (h : Quiet top s t) :
    Quiet top s (t.releaseBySource src i) :=
  forEach_quiet (fun _ hp _ hu => releaseEvent_quiet htop (eventTasks_lt hp).1 (eventTasks_lt hp).2 hu) h

theorem holdDefaults_quiet (h : Quiet top s t) : Quiet top s t.holdDefaults :=
  forEach_quiet (fun _ _ _ hu => raise_quiet hu) (setBit_quiet (.inl (by decide)) h.upd)

/-! ### Overlay requests (R433) -/

theorem ovlSync_quiet (htop : top ≤ 0x603000) (h : Quiet top s t) : Quiet top s t.ovlSync := by
  have out : ∀ a, 0x800000 ≤ a → a < 0x601000 ∨ top ≤ a := fun a ha => .inr (by omega)
  have next : ∀ v n, Quiet top s (((t.setFld A.CFG_OVL F.CFG_OVL_PEND t.cfg.acts.length).setFld A.CFG_OVL F.CFG_OVL_NEXT v).setReg64
      A.CFG_OVL_T_LO A.CFG_OVL_T_HI n) := fun v n =>
    setReg_quiet (out _ (by decide)) (setReg_quiet (out _ (by decide)) (setFld_quiet (out _ (by decide)) (setFld_quiet (out _ (by decide)) h)))
  unfold State.ovlSync
  dsimp only
  split
  · exact next _ _
  · exact next _ _

theorem ovlRequest_quiet {k src t0 : Nat} (htop : top ≤ 0x603000) (h : Quiet top s t) : Quiet top s (t.ovlRequest k src t0).2 := by
  have hc : A.CFG_OVL_CNT < 0x601000 ∨ top ≤ A.CFG_OVL_CNT := .inr (by unfold A.CFG_OVL_CNT; omega)
  unfold State.ovlRequest
  split
  · exact h
  · extract_lets refuse kept t' cfg s1
    have hr : ∀ c, Quiet top s (refuse c).2 := fun c => setFld_quiet hc (setFld_quiet hc h)
    split
    · exact hr 1
    · split
      · exact hr 2
      · have h1 : Quiet top s s1 := ovlSync_quiet htop h.upd
        split
        · exact plySend_quiet h1
        · exact h1

theorem gooseEdges_quiet {old : State} (htop : top ≤ 0x603000) (h : Quiet top s t) : Quiet top s (t.gooseEdges old) := by
  refine List.foldlRecOn (List.range 8) _ h fun u hu j _ => ?_
  dsimp only
  split
  · exact hu
  · split
    · exact ovlRequest_quiet htop hu
    · split
      · exact ovlRequest_quiet htop hu
      · exact hu

/-! ### The trip matrix (R138–R143) -/

theorem drivePins_quiet (htop : top ≤ 0x603000) (h : Quiet top s t) : Quiet top s t.drivePins :=
  setFld_quiet (.inr (by unfold A.LIO_TOUT; omega)) h.upd

theorem channelRelease_quiet {c : Nat} (h : Quiet top s t) : Quiet top s (t.channelRelease c) :=
  raise_quiet (setBit_quiet (.inl (by decide)) (setBit_quiet (.inl (by decide)) h.upd))

theorem cflTrigger_quiet {c : Nat} (h : Quiet top s t) : Quiet top s (t.cflTrigger c) := by
  refine forEach_quiet (fun x _ u hu => ?_) h
  split
  · dsimp only
    split
    · exact hu
    · exact hu.upd
  · exact hu

theorem interruptOpen_quiet {c : Nat} (h : Quiet top s t) : Quiet top s (t.interruptOpen c) := by
  unfold State.interruptOpen
  split
  · exact h
  · exact h.upd

theorem channelAssert_quiet {c : Nat} (hc : c < 32) (h : Quiet top s t) : Quiet top s (t.channelAssert c) := by
  have ha : A.PRT_TCH_CNT c < 0x601000 := by unfold A.PRT_TCH_CNT; omega
  unfold State.channelAssert
  extract_lets s1 tr s2 s3 hd s4
  have h1 : Quiet top s s1 := setBit_quiet (.inl (by decide)) (setBit_quiet (.inl (by decide)) h)
  have h2 : Quiet top s s2 := h1.upd
  have h3 : Quiet top s s3 := raise_quiet (incSat_quiet (.inl ha) h2)
  have h4 : Quiet top s s4 := h3.upd
  exact cflTrigger_quiet (interruptOpen_quiet h4)

theorem channelEval_quiet {c : Nat} (hc : c < 32) (h : Quiet top s t) : Quiet top s (t.channelEval c) := by
  have latched : ∀ b, Quiet top s (t.setBit A.PRT_TCH_LATCHED c b) := fun _ => setBit_quiet (.inl (by decide)) h
  unfold State.channelEval
  dsimp only
  split
  · split
    · exact channelAssert_quiet hc h
    · exact h
  · split
    · exact h
    · split
      · split
        · exact latched false
        · split
          · exact h
          · exact raise_quiet (latched true)
      · split
        · exact h
        · exact channelRelease_quiet h

theorem tripEval_quiet (htop : top ≤ 0x603000) (h : Quiet top s t) : Quiet top s t.tripEval := by
  have h1 : Quiet top s (t.forEach (List.range 32) (fun c s => s.channelEval c)).drivePins :=
    drivePins_quiet htop (forEach_quiet (fun _ hc _ hu => channelEval_quiet (List.mem_range.1 hc) hu) h)
  unfold State.tripEval
  dsimp only
  split
  · exact h1
  · exact plySend_quiet h1

theorem pelCount_quiet {late : Bool} (h : Quiet top s t) : Quiet top s (t.pelCount late) :=
  incSat_quiet (.inl (by decide)) h

theorem arcEval_quiet (htop : top ≤ 0x603000) (h : Quiet top s t) : Quiet top s t.arcEval :=
  tripEval_quiet htop (forEach_quiet (fun _ _ _ hu => hu.upd) h)

end Sys2Proof.Proofs

/-! PROOF. GOOSE publication (R331, R333, R335, R336): a new state, a retransmission and the end of a hold, each by what sending the
block leaves of its numbers. -/

namespace Sys2Proof.Proofs

open Sys2Proof Sys2Proof.Machine Sys2Proof.Laws

theorem Kept.pub_eq {top : Nat} {s t : State} (h : Kept top s t) (g : Nat) : t.pub g = s.pub g := by
  simp only [State.pub, h.pub]

@[simp] theorem pub_setPub_same (s : State) (g : Nat) (p : PubSt) : (s.setPub g p).pub g = p := sparseGet_put_same _ _ _ _

@[simp] theorem pub_setReg (s : State) (g a : Nat) (w : Word) : (s.setReg a w).pub g = s.pub g := rfl

@[simp] theorem setPub_tim (s : State) (g : Nat) (p : PubSt) : (s.setPub g p).tim = s.tim := rfl

@[simp] theorem reg_setPub (s : State) (g a : Nat) (p : PubSt) : (s.setPub g p).reg a = s.reg a := rfl

/-! ### The members' values do not depend on the publications' own state -/

theorem octetsLE_setPub (s : State) (g : Nat) (p : PubSt) (n : Nat) : ∀ o, (s.setPub g p).octetsLE o n = s.octetsLE o n := by
  induction n with
  | zero => exact fun _ => rfl
  | succ n ih =>
    intro o
    rw [State.octetsLE, State.octetsLE, ih]
    rfl

theorem wordLoop_setPub (s : State) (g w : Nat) (p : PubSt) : (s.setPub g p).wordLoop w = s.wordLoop w :=
  congrArg (List.find? · (List.range 512)) (funext fun _ => rfl)

theorem wordQuality_setPub (s : State) (g o n w : Nat) (p : PubSt) :
    (s.setPub g p).wordQuality o n w = s.wordQuality o n w := by
  have hq : (s.setPub g p).qDerived o n = s.qDerived o n := rfl
  have hbit : ∀ a i, (s.setPub g p).bit a i = s.bit a i := fun _ _ => rfl
  simp only [State.wordQuality, wordLoop_setPub, hq, hbit]

theorem memberCore_setPub (s : State) (g : Nat) (p : PubSt) (m : PubMember) :
    (s.setPub g p).memberCore m = s.memberCore m := by
  simp only [State.memberCore, octetsLE_setPub, wordQuality_setPub]
  split <;> rfl

@[simp] theorem pubCore_setPub (s : State) (g : Nat) (p : PubSt) (l : List PubMember) :
    ∀ q, (s.setPub g p).pubCore l q = s.pubCore l q := by
  induction l with
  | nil => exact fun _ => rfl
  | cons m l ih =>
    intro q
    simp only [State.pubCore, memberCore_setPub, ih]

/-! ### Sending a block -/

/-- Sending a block sets when its next message follows. -/
theorem pubSend_pub (s : State) (g : Nat) (b : PubBlock) :
    (s.pubSend g b).pub g = { s.pub g with nextTx := some (s.tim.up + (s.pub g).interval * 1000000) } :=
  ((transmit_quiet le_rfl (.refl _)).pub_eq g).trans (pub_setPub_same _ _ _)

/-- Sending a block leaves the publication and subscription registers but the block's count and length. -/
theorem pubSend_reg {s : State} {g a : Nat} (b : PubBlock) (h1 : 0x601000 ≤ a) (h2 : a < 0x603000) (h : a ≠ A.NET_GP_STAT g) :
    (s.pubSend g b).reg a = s.reg a :=
  ((transmit_quiet le_rfl (.refl _)).reg a h1 h2).trans
    (by rw [reg_setPub, reg_setFld_ne _ _ _ h, State.incWrap, reg_setFld_ne _ _ _ h])

theorem pubSend_stNum {s : State} {g : Nat} (hg : g < 32) (b : PubBlock) :
    (s.pubSend g b).reg (A.NET_GP_STNUM g) = s.reg (A.NET_GP_STNUM g) := by
  apply pubSend_reg <;> simp only [A.NET_GP_STNUM, A.NET_GP_STAT] <;> omega

theorem pubSend_sqNum {s : State} {g : Nat} (hg : g < 32) (b : PubBlock) :
    (s.pubSend g b).reg (A.NET_GP_SQNUM g) = s.reg (A.NET_GP_SQNUM g) := by
  apply pubSend_reg <;> simp only [A.NET_GP_SQNUM, A.NET_GP_STAT] <;> omega

theorem stNum_ne_sqNum (g : Nat) : A.NET_GP_STNUM g ≠ A.NET_GP_SQNUM g := by
  simp only [A.NET_GP_STNUM, A.NET_GP_SQNUM]
  omega

/-! ### A new state (R333) -/

theorem newState_pub (s : State) (g : Nat) (b : PubBlock) (launch : Nat) :
    ((s.newState g b launch).pub g).started = true ∧ ((s.newState g b launch).pub g).core = s.pubCore b.members 0 ∧
      ((s.newState g b launch).pub g).interval = s.fld (A.NET_GP_TIM g) F.NET_GP_TIM_TMIN ∧
      ((s.newState g b launch).pub g).hold = (if launch = 0 then none else some launch) := by
  rw [State.newState, pubSend_pub]
  simp only [pub_setReg, pub_setPub_same, and_self]

theorem newState_sqNum {s : State} {g : Nat} (hg : g < 32) (b : PubBlock) (launch : Nat) :
    (s.newState g b launch).reg (A.NET_GP_SQNUM g) = 0 := by
  rw [State.newState, pubSend_sqNum hg, reg_setReg_same]

theorem newState_stNum {s : State} {g : Nat} (hg : g < 32) (b : PubBlock) (launch : Nat) :
    (s.newState g b launch).reg (A.NET_GP_STNUM g) = (if (s.pub g).started then nextNum (s.reg (A.NET_GP_STNUM g)) else 1) := by
  rw [State.newState, pubSend_stNum hg, reg_setReg_ne _ _ (stNum_ne_sqNum g), reg_setReg_same]

variable {s : State} {g : Fin 32} {b : PubBlock}

/-- A dataset that changed, while nothing holds it back, makes a new state. -/
theorem doGooseStateBuild_new (hb : s.pubBlock g = some b) (hon : s.pubOn g = true) (hh : (s.pub g).hold = none)
    (hc : (s.pub g).started = true → s.pubCore b.members 0 ≠ (s.pub g).core) : doGooseStateBuild g s = s.newState g b 0 := by
  have hsame : ((s.pub g).started && decide (s.pubCore b.members 0 = (s.pub g).core)) = false := by
    simpa using hc
  simp only [doGooseStateBuild, hb, hon, hh, hsame, Bool.not_true, Option.isSome_none, Bool.or_self, Bool.false_eq_true, if_false]

/-- A retransmission that is due sends the same state with the next SQNUM, and the interval doubles up to TMAX. -/
theorem doGooseRetransmit_due {u : Nat} (hb : s.pubBlock g = some b) (hon : s.pubOn g = true) (hu : (s.pub g).nextTx = some u)
    (hst : (s.pub g).started = true) (hd : u ≤ s.tim.up) :
    (doGooseRetransmit g s).reg (A.NET_GP_SQNUM g) = nextNum (s.reg (A.NET_GP_SQNUM g)) ∧
      (doGooseRetransmit g s).reg (A.NET_GP_STNUM g) = s.reg (A.NET_GP_STNUM g) ∧
      (doGooseRetransmit g s).pub g = { s.pub g with
        interval := min (2 * (s.pub g).interval) (s.pub g).tmax
        nextTx := some (s.tim.up + min (2 * (s.pub g).interval) (s.pub g).tmax * 1000000) } := by
  have hlt : ¬ s.tim.up < u := by omega
  have hrun : doGooseRetransmit g s = ((s.setPub g { s.pub g with interval := min (2 * (s.pub g).interval) (s.pub g).tmax }).setReg
      (A.NET_GP_SQNUM g) (nextNum (s.reg (A.NET_GP_SQNUM g)))).pubSend g b := by
    simp [doGooseRetransmit, hb, hon, hu, hst, hlt]
  rw [hrun]
  refine ⟨?_, ?_, ?_⟩
  · rw [pubSend_sqNum g.isLt, reg_setReg_same]
  · rw [pubSend_stNum g.isLt, reg_setReg_ne _ _ (stNum_ne_sqNum g), reg_setPub]
  · rw [pubSend_pub, pub_setReg, pub_setPub_same, setReg_tim, setPub_tim]

/-- At T a hold ends, and the dataset published is the present one: by a new state where it changed, else as it was. -/
theorem doGooseLaunchTimeReached_due {u : Nat} (hb : s.pubBlock g = some b) (hon : s.pubOn g = true) (hu : (s.pub g).hold = some u)
    (hd : u ≤ s.tim.now) : ((doGooseLaunchTimeReached g s).pub g).hold = none ∧
      ((doGooseLaunchTimeReached g s).pub g).core = s.pubCore b.members 0 := by
  have hlt : ¬ s.tim.now < u := by omega
  have hon1 : (s.setPub g { s.pub g with hold := none }).pubOn g = true := hon
  simp only [doGooseLaunchTimeReached, hb, hu, hlt, if_false, hon1, Bool.true_and, pubCore_setPub, pub_setPub_same]
  split
  · obtain ⟨-, hcore, -, hhold⟩ := newState_pub (s.setPub g { s.pub g with hold := none }) g b 0
    exact ⟨hhold, hcore.trans (pubCore_setPub _ _ _ _ _)⟩
  next hsame =>
    rw [pub_setPub_same]
    exact ⟨rfl, by simpa using Eq.symm (by simpa using hsame)⟩

end Sys2Proof.Proofs

/-! PROOF. GOOSE subscription (R337–R340): a duplicate is counted and otherwise quiet; any other matching message is accepted, and nothing
that its values set off touches its numbers or its validity; a subscription whose time has passed is lost. -/

namespace Sys2Proof.Proofs

open Sys2Proof Sys2Proof.Machine Sys2Proof.Laws

variable {s t u : State}

theorem Kept.gsSub_eq {top : Nat} (h : Kept top s t) (n : Nat) : t.gsSub n = s.gsSub n := by
  simp only [State.gsSub, h.sub]

/-! ### The registers of a subscription -/

theorem Kept.gs_regs (h : Kept 0x603000 s t) {n : Nat} (hn : n < 128) :
    t.reg (A.NET_GS_STAT n) = s.reg (A.NET_GS_STAT n) ∧ t.reg (A.NET_GS_STNUM n) = s.reg (A.NET_GS_STNUM n) ∧
      t.reg (A.NET_GS_SQNUM n) = s.reg (A.NET_GS_SQNUM n) ∧ t.reg (A.NET_GS_CNT n) = s.reg (A.NET_GS_CNT n) := by
  refine ⟨h.reg _ ?_ ?_, h.reg _ ?_ ?_, h.reg _ ?_ ?_, h.reg _ ?_ ?_⟩ <;>
    simp only [A.NET_GS_STAT, A.NET_GS_STNUM, A.NET_GS_SQNUM, A.NET_GS_CNT] <;> omega

theorem Kept.gsState_eq (h : Kept 0x603000 s t) {n : Nat} (hn : n < 128) : t.gsState n = s.gsState n := by
  obtain ⟨hstat, -⟩ := h.gs_regs hn
  simp only [State.gsState, State.fld, hstat]

theorem gs_addresses_ne (n : Nat) :
    A.NET_GS_STNUM n ≠ A.NET_GS_SQNUM n ∧ A.NET_GS_STNUM n ≠ A.NET_GS_STAT n ∧ A.NET_GS_SQNUM n ≠ A.NET_GS_STAT n ∧
      A.NET_GS_STAT n ≠ A.NET_GS_CNT n ∧ A.NET_GS_STNUM n ≠ A.NET_GS_CNT n ∧ A.NET_GS_SQNUM n ≠ A.NET_GS_CNT n := by
  simp only [A.NET_GS_STAT, A.NET_GS_STNUM, A.NET_GS_SQNUM, A.NET_GS_CNT]
  omega

/-! ### Validity (R340) -/

theorem gooseValid_octet (s : State) (n : Nat) : s.gooseValid n = (s.octet (iBase + 0x100 + n / 8)).getLsbD (n % 8) := by
  have hdiv : (8 * 0x100 + n) / 8 = 0x100 + n / 8 := by omega
  have hmod : (8 * 0x100 + n) % 8 = n % 8 := by omega
  rw [State.gooseValid, State.iBit, hdiv, hmod, Nat.add_assoc]

theorem Quiet.gooseValid_kept {top : Nat} (h : Quiet top s t) (n : Nat) : t.gooseValid n = s.gooseValid n := by
  simp only [State.gooseValid, State.iBit, State.octet, h.mem]

/-- Writing one bit of an octet sets that bit. -/
theorem getLsbD_maskByte_bitMask (n : Nat) (v : Bool) (b : Byte) :
    (maskByte (bitMask n) (if v then 0xFF else 0) b).getLsbD (n % 8) = v := by
  have hn : n % 8 < 8 := Nat.mod_lt _ (by decide)
  have hm : (bitMask n).getLsbD (n % 8) = true := by
    rw [bitMask, BitVec.getLsbD_ofNat, Nat.testBit_two_pow_self, decide_eq_true hn]
    rfl
  have hv : (if v then 0xFF else 0 : Byte).getLsbD (n % 8) = v := by
    cases v
    · exact BitVec.getLsbD_zero
    · exact (BitVec.getLsbD_allOnes (v := 8)).trans (decide_eq_true hn)
  rw [maskByte, BitVec.getLsbD_or, BitVec.getLsbD_and, BitVec.getLsbD_and, BitVec.getLsbD_not, hm, hv]
  simp

/-- `t` has the registers, tables, time and image of `s`, and the octets below the GOOSE input words (R338). -/
structure KeptBelow (s t : State) : Prop extends Kept 0x603000 s t where
  octet : ∀ o, o < iBase + 0x2000 → t.octet o = s.octet o

theorem KeptBelow.refl (s : State) : KeptBelow s s := ⟨.refl s, fun _ _ => rfl⟩

theorem KeptBelow.trans (h : KeptBelow s t) (k : KeptBelow t u) : KeptBelow s u :=
  ⟨h.toKept.trans k.toKept, fun o ho => (k.octet o ho).trans (h.octet o ho)⟩

theorem Quiet.keptBelow (h : Quiet 0x603000 s t) : KeptBelow s t := ⟨h.toKept, fun _ _ => by simp only [State.octet, h.mem]⟩

theorem KeptBelow.gooseValid_kept (h : KeptBelow s t) {n : Nat} (hn : n < 128) : t.gooseValid n = s.gooseValid n := by
  rw [gooseValid_octet, gooseValid_octet, h.octet _ (by omega)]

/-! ### Writing the inputs (R338) -/

theorem setOctet_kept {top : Nat} (s : State) (a : Nat) (b : Byte) : Kept top s (s.setOctet a b) :=
  ⟨fun _ _ _ => rfl, rfl, rfl, rfl, rfl, rfl⟩

theorem setOctet_keptBelow {a : Nat} {b : Byte} (ha : iBase + 0x2000 ≤ a) : KeptBelow s (s.setOctet a b) :=
  ⟨setOctet_kept s a b, fun _ _ => octet_setOctet_ne _ _ (by omega)⟩

theorem setOctetsLE_keptBelow (n : Nat) : ∀ (s : State) (a v : Nat), iBase + 0x2000 ≤ a → KeptBelow s (s.setOctetsLE a n v) := by
  induction n with
  | zero => exact fun s _ _ _ => .refl s
  | succ n ih => exact fun s a v ha => (setOctet_keptBelow ha).trans (ih _ _ _ (by omega))

theorem putMapped_keptBelow (s : State) (m : SubMap) (v : GooseVal) : KeptBelow s (s.putMapped m v) := by
  have hw : iBase + 0x2000 ≤ iBase + 0x2000 + 4 * m.target := Nat.le_add_right _ _
  cases v with
  | bool b => exact setOctet_keptBelow (Nat.le_add_right _ _)
  | int x => exact setOctetsLE_keptBelow _ _ _ _ hw
  | float x => exact setOctetsLE_keptBelow _ _ _ _ hw
  | quality q => exact setOctetsLE_keptBelow _ _ _ _ hw
  | utc a b => exact (setOctetsLE_keptBelow _ _ _ _ hw).trans (setOctetsLE_keptBelow _ _ _ _ (Nat.le_add_right_of_le hw))
  | other => exact .refl s

theorem forEach_keptBelow {α : Type} {l : List α} {f : α → State → State} (hf : ∀ x ∈ l, ∀ u, KeptBelow u (f x u)) :
    KeptBelow s (s.forEach l f) :=
  List.foldlRecOn l _ (.refl s) fun u hu x hx => hu.trans (hf x hx u)

theorem applyMaps_keptBelow (s : State) (b : SubBlock) (val : SubMap → Option GooseVal) : KeptBelow s (s.applyMaps b val) := by
  unfold State.applyMaps
  refine KeptBelow.trans (forEach_keptBelow fun m _ u => ?_)
    (arcEval_quiet le_rfl (holdDefaults_quiet (gooseEdges_quiet le_rfl (.refl _)))).keptBelow
  split
  · exact putMapped_keptBelow _ _ _
  · exact .refl u

theorem applyMsg_keptBelow (s : State) (n : Nat) (b : SubBlock) (m : GooseMsg) : KeptBelow s (s.applyMsg n b m) := by
  have hnow : ∀ t, KeptBelow t (t.applyMaps b fun x => m.vals[x.member]?) := fun t => applyMaps_keptBelow t b _
  have hcount : ∀ (late : Bool) (src p3 : Nat), src < 128 → KeptBelow s ((s.pelCount late).raise src p3) :=
    fun _ _ _ hs => (raise_quiet (pelCount_quiet (.refl s)) hs).keptBelow
  unfold State.applyMsg
  extract_lets now t
  split
  · exact hnow s
  · split
    · exact hcount _ _ _ (by decide)
    · split
      · exact (hcount _ _ _ (by decide)).trans (hnow _)
      · exact (Quiet.refl s).upd.keptBelow

/-! ### Setting the validity -/

theorem setGooseValid_kept (s : State) (n : Nat) (v : Bool) : Kept 0x603000 s (s.setGooseValid n v) := by
  unfold State.setGooseValid
  split
  · exact .refl s
  · exact (setOctet_kept _ _ _).trans (holdDefaults_quiet (releaseBySource_quiet le_rfl (.refl _))).toKept

theorem gooseValid_setGooseValid (s : State) (n : Nat) (v : Bool) : (s.setGooseValid n v).gooseValid n = v := by
  unfold State.setGooseValid
  split
  next h => exact h
  next =>
    dsimp only
    rw [(holdDefaults_quiet (top := 0) (releaseBySource_quiet (by decide) (.refl _))).gooseValid_kept, gooseValid_octet,
      octet_setOctet_same, getLsbD_maskByte_bitMask]

/-- The subscription is valid, by an event where it was not. -/
def makeValid (s : State) (n : Nat) : State :=
  if s.gooseValid n then s else (s.setGooseValid n true).raise Ev.NET_GOOSE_RESTORED n

theorem makeValid_kept (s : State) (n : Nat) : Kept 0x603000 s (makeValid s n) := by
  unfold makeValid
  split
  · exact .refl s
  · exact (setGooseValid_kept s n true).trans (raise_quiet (.refl _)).toKept

theorem gooseValid_makeValid (s : State) (n : Nat) : (makeValid s n).gooseValid n = true := by
  unfold makeValid
  split
  next h => exact h
  next => rw [(raise_quiet (top := 0) (.refl _)).gooseValid_kept, gooseValid_setGooseValid]

/-! ### A matching message (R337–R339) -/

/-- The message is what the subscription was declared for, and no simulation or test. -/
structure Fits (b : SubBlock) (m : GooseMsg) : Prop where
  sim : m.simulation = false
  test : m.test = false
  datSet : m.datSet = b.datSet
  confRev : m.confRev = b.confRev
  ndsCom : m.ndsCom = false
  types : m.vals.map valType = b.types

/-- The message is a duplicate of the last one accepted by subscription `n` (R339). -/
def Duplicate (s : State) (n : Nat) (m : GooseMsg) : Prop :=
  (s.gsSub n).deadline ≠ none ∧ s.reg (A.NET_GS_STNUM n) = m.stNum ∧
    ((m.sqNum - s.reg (A.NET_GS_SQNUM n)).toNat = 0 ∨ 2 ^ 31 ≤ (m.sqNum - s.reg (A.NET_GS_SQNUM n)).toNat)

/-- The state word of an accepted message. -/
def acceptedStat (m : GooseMsg) : Word := BitVec.ofNat 32 (2 ^ 30 + m.test.toNat * 2 ^ 29 + min m.tal 0xFFFF)

/-- A message's numbers are kept. -/
def keepNumbers (s : State) (n : Nat) (m : GooseMsg) : State :=
  ((s.setReg (A.NET_GS_STNUM n) m.stNum).setReg (A.NET_GS_SQNUM n) m.sqNum).setReg (A.NET_GS_STAT n) (acceptedStat m)

/-- A message is accepted (R339, R340): its numbers are kept, its time allowed to live runs. -/
def accept (s : State) (n : Nat) (m : GooseMsg) : State :=
  (keepNumbers s n m).setSub n
    { deadline := some ((keepNumbers s n m).tim.up + (if m.tal = 0 then 2000 else m.tal) * 1000000)
      arrived := (keepNumbers s n m).tim.now }

/-- The distance of two sequence numbers modulo 2³². -/
theorem seqDiff_eq_toNat_sub (a b : Word) : (a.toNat + 2 ^ 32 - b.toNat) % 2 ^ 32 = (a - b).toNat := by
  have hb := b.isLt
  rw [BitVec.toNat_sub]
  congr 1
  omega

theorem duplicate_iff {n : Nat} {m : GooseMsg} :
    ((s.gsSub n).deadline.isSome && s.reg (A.NET_GS_STNUM n) == m.stNum &&
      ((m.sqNum.toNat + 2 ^ 32 - (s.reg (A.NET_GS_SQNUM n)).toNat) % 2 ^ 32 == 0 ||
        Nat.ble (2 ^ 31) ((m.sqNum.toNat + 2 ^ 32 - (s.reg (A.NET_GS_SQNUM n)).toNat) % 2 ^ 32))) = true ↔ Duplicate s n m := by
  rw [seqDiff_eq_toNat_sub]
  simp only [Duplicate, Bool.and_eq_true, Bool.or_eq_true, beq_iff_eq, Nat.ble_eq, Option.isSome_iff_ne_none, and_assoc]

/-- A fitting message is counted where it is a duplicate, and accepted otherwise. -/
theorem gooseTake_fits {n : Nat} {b : SubBlock} {m : GooseMsg} (hf : Fits b m) :
    (Duplicate s n m → s.gooseTake n b m = s.incSat (A.NET_GS_CNT n) F.NET_GS_CNT_DUPS Ev.NET_CNT_SAT noIndex) ∧
    (¬ Duplicate s n m → s.gooseTake n b m = (makeValid (accept s n m) n).applyMsg n b m) := by
  obtain ⟨hsim, htest, hdat, hconf, hnds, htypes⟩ := hf
  have hbad : (decide (m.datSet ≠ b.datSet) || decide (m.confRev ≠ b.confRev) || m.ndsCom ||
      decide (m.vals.map valType ≠ b.types)) = false := by simp [hdat, hconf, hnds, htypes]
  have hskip : ¬ ((m.simulation && !s.bit (A.NET_GS_CFG n) 30) || (m.test && !s.bit (A.NET_GS_CFG n) 29)) = true := by
    simp [hsim, htest]
  rw [← duplicate_iff, State.gooseTake]
  extract_lets d ms s1 s2 s3 s4
  rw [if_neg hskip, if_neg (ne_true_of_eq_false hbad)]
  constructor
  · intro hd
    exact if_pos hd
  · intro hd
    rw [if_neg hd]
    rfl

/-! ### What an accepted message leaves -/

theorem reg_setSub (s : State) (n a : Nat) (x : SubSt) : (s.setSub n x).reg a = s.reg a := rfl

theorem gsSub_setSub_same (s : State) (n : Nat) (x : SubSt) : (s.setSub n x).gsSub n = x := sparseGet_put_same _ _ _ _

theorem keepNumbers_tim (s : State) (n : Nat) (m : GooseMsg) : (keepNumbers s n m).tim = s.tim :=
  (setReg_tim _ _ _).trans ((setReg_tim _ _ _).trans (setReg_tim _ _ _))

theorem accept_gsSub (s : State) (n : Nat) (m : GooseMsg) : (accept s n m).gsSub n =
    { deadline := some (s.tim.up + (if m.tal = 0 then 2000 else m.tal) * 1000000), arrived := s.tim.now } := by
  rw [accept, gsSub_setSub_same, keepNumbers_tim]

theorem accept_reg (s : State) (n : Nat) (m : GooseMsg) (a : Nat) : (accept s n m).reg a = (keepNumbers s n m).reg a :=
  reg_setSub _ _ _ _

theorem keepNumbers_reg (s : State) (n : Nat) (m : GooseMsg) :
    (keepNumbers s n m).reg (A.NET_GS_STNUM n) = m.stNum ∧ (keepNumbers s n m).reg (A.NET_GS_SQNUM n) = m.sqNum ∧
      (keepNumbers s n m).reg (A.NET_GS_STAT n) = acceptedStat m := by
  obtain ⟨h1, h2, h3, -⟩ := gs_addresses_ne n
  simp only [keepNumbers, reg_setReg_same, reg_setReg_ne _ _ h1, reg_setReg_ne _ _ h2, reg_setReg_ne _ _ h3, and_self]

/-- The state word of an accepted message that is no test shows state 1. -/
theorem acceptedStat_state {m : GooseMsg} (ht : m.test = false) : fldGet F.NET_GS_STAT_STATE (acceptedStat m) = 1 := by
  have hmin : min m.tal 0xFFFF ≤ 0xFFFF := Nat.min_le_right _ _
  rw [fldGet, acceptedStat, ht, BitVec.toNat_ofNat]
  simp only [F.NET_GS_STAT_STATE, Bool.toNat_false]
  omega

/-- Announcing and applying an accepted message keeps its numbers and leaves the subscription valid. -/
theorem accepted_kept (s : State) {n : Nat} (b : SubBlock) (m : GooseMsg) (hn : n < 128) :
    Kept 0x603000 s ((makeValid s n).applyMsg n b m) ∧ ((makeValid s n).applyMsg n b m).gooseValid n = true :=
  have happly := applyMsg_keptBelow (makeValid s n) n b m
  ⟨(makeValid_kept s n).trans happly.toKept, (happly.gooseValid_kept hn).trans (gooseValid_makeValid s n)⟩

/-! ### Reception (R337) -/

theorem Kept.duplicate_iff {n : Nat} {m : GooseMsg} (h : Kept 0x603000 s t) (hn : n < 128) :
    Duplicate t n m ↔ Duplicate s n m := by
  obtain ⟨-, hst, hsq, -⟩ := h.gs_regs hn
  simp only [Duplicate, hst, hsq, h.gsSub_eq]

theorem subMatches_of_kept (h : ∀ top, Kept top s t) (process : Bool) (m : GooseMsg) :
    t.subMatches process m = s.subMatches process m := by
  have hcfg : ∀ n, t.reg (A.NET_GS_CFG n) = s.reg (A.NET_GS_CFG n) := fun n =>
    (h (A.NET_GS_CFG n + 1)).reg _ (by simp only [A.NET_GS_CFG]; omega) (Nat.lt_succ_self _)
  simp only [State.subMatches, State.bit, State.fld, hcfg, (h 0).image]

/-- A message accepted on its port that one subscription matches is taken by it; what follows is quiet. -/
theorem doGooseReceive_one {p : Fin 4} {m : GooseMsg} {b : SubBlock}
    (hrx : (s.rxAccept p m.lenOk (s.dstKnown (p.val / 2 == 1) m.dst) m.prp).1 = true) (hsw : s.cfg.switched ≠ none)
    (hm : s.subMatches (p.val / 2 == 1) m = [b]) :
    ∃ s1, (∀ top, Quiet top s s1) ∧ ∀ top, Quiet top (s1.gooseTake b.s b m) (doGooseReceive p m s) := by
  have hq : ∀ top, Quiet top s (s.rxAccept p m.lenOk (s.dstKnown (p.val / 2 == 1) m.dst) m.prp).2 :=
    fun top => rxAccept_quiet p.isLt (.refl s)
  refine ⟨_, hq, fun top => ?_⟩
  have hgoose : s.gooseOn p m =
      (s.rxAccept p m.lenOk (s.dstKnown (p.val / 2 == 1) m.dst) m.prp).2.gooseTake b.s b m := by
    have hsw1 := Option.isNone_eq_false_iff.2 (Option.isSome_iff_ne_none.2 ((hq 0).switched ▸ hsw))
    simp only [State.gooseOn, hrx, hsw1, subMatches_of_kept (fun top => (hq top).toKept), hm, Bool.not_true, Bool.or_self,
      Bool.false_eq_true, if_false]
    rfl
  rw [doGooseReceive, hgoose]
  exact ringForward_quiet (.refl _)

/-! ### Loss (R340) -/

/-- The subscription shows state 2 and the loss is counted. -/
def markLost (s : State) (n : Nat) : State :=
  (s.setFld (A.NET_GS_STAT n) F.NET_GS_STAT_STATE 2).incSat (A.NET_GS_CNT n) F.NET_GS_CNT_LOSSES Ev.NET_CNT_SAT noIndex

theorem markLost_gsState (s : State) {n : Nat} (hn : n < 128) : (markLost s n).gsState n = 2 := by
  obtain ⟨-, -, -, hne, -⟩ := gs_addresses_ne n
  rw [markLost, (incSat_counts).toKept.gsState_eq hn, State.gsState, State.fld, reg_setFld_ne _ _ _ hne, reg_setFld_same,
    fldGet_put_same _ _ _ (by decide) (by decide)]
  rfl

/-- A valid subscription whose time has passed is lost; after that only its inputs change, by their defaults. -/
theorem doGooseSubLost_due {n : Fin 128} {v : Nat} (hd : (s.gsSub n).deadline = some v) (hv : v ≤ s.tim.up)
    (hg : s.gooseValid n = true) :
    KeptBelow (((markLost s n).setGooseValid n false).raise Ev.NET_GOOSE_LOST n) (doGooseSubLost n s) := by
  have hrun : ¬ (decide (s.tim.up < v) || !s.gooseValid n) = true := by
    simp [hg, hv]
  rw [doGooseSubLost, hd]
  dsimp only
  rw [if_neg hrun]
  split
  · exact applyMaps_keptBelow _ _ _
  · exact .refl _

/-! ### What reception leaves -/

theorem fld_setFld_same {a v : Nat} {f : Fld} (h : f.lo ≤ f.hi) (h2 : f.hi < 32) (hv : v ≤ fldMax f) :
    (s.setFld a f v).fld a f = v := by
  have hpos : 0 < 2 ^ (f.hi + 1 - f.lo) := by positivity
  rw [State.fld, reg_setFld_same, fldGet_put_same _ _ _ h h2]
  exact Nat.mod_eq_of_lt (by unfold fldMax at hv; omega)

section

variable {p : Fin 4} {m : GooseMsg} {n : Nat} {b : SubBlock} (hn : n < 128)
  (hrx : (s.rxAccept p m.lenOk (s.dstKnown (p.val / 2 == 1) m.dst) m.prp).1 = true) (hsw : s.cfg.switched ≠ none)
  (hm : s.subMatches (p.val / 2 == 1) m = [b]) (hb : b.s = n) (hf : Fits b m)
include hn hrx hsw hm hb hf

/-- A duplicate is counted in DUPS and otherwise quiet (R339). -/
theorem gooseReceive_duplicate (hd : Duplicate s n m) :
    Quiet 0x603000 (s.setFld (A.NET_GS_CNT n) F.NET_GS_CNT_DUPS
      (min (s.fld (A.NET_GS_CNT n) F.NET_GS_CNT_DUPS + 1) (fldMax F.NET_GS_CNT_DUPS))) (doGooseReceive p m s) := by
  obtain ⟨s1, h1, h2⟩ := doGooseReceive_one hrx hsw hm
  have hd1 : Duplicate s1 n m := ((h1 _).toKept.duplicate_iff hn).2 hd
  have h3 := h2 0x603000
  rw [hb, (gooseTake_fits hf).1 hd1] at h3
  obtain ⟨-, -, -, hcnt⟩ := (h1 0x603000).toKept.gs_regs hn
  have hfld : s1.fld (A.NET_GS_CNT n) F.NET_GS_CNT_DUPS = s.fld (A.NET_GS_CNT n) F.NET_GS_CNT_DUPS := congrArg (fldGet _) hcnt
  have h4 := (incSat_counts).trans h3
  rw [hfld] at h4
  refine ((h1 0x603000).setFld ?_ ?_).trans h4 <;> simp only [A.NET_GS_CNT] <;> omega

/-- Every other fitting message is accepted (R339): its numbers are kept, and its subscription is valid until its time has passed. -/
theorem gooseReceive_accepted (hd : ¬ Duplicate s n m) :
    ∃ s1, s1.tim = s.tim ∧ Kept 0x603000 (accept s1 n m) (doGooseReceive p m s) ∧ (doGooseReceive p m s).gooseValid n = true := by
  obtain ⟨s1, h1, h2⟩ := doGooseReceive_one hrx hsw hm
  have hd1 : ¬ Duplicate s1 n m := fun h => hd (((h1 _).toKept.duplicate_iff hn).1 h)
  have h3 := h2 0x603000
  rw [hb, (gooseTake_fits hf).2 hd1] at h3
  obtain ⟨hkept, hvalid⟩ := accepted_kept (accept s1 n m) b m hn
  exact ⟨s1, (h1 0).tim, hkept.trans h3.toKept, (h3.gooseValid_kept n).trans hvalid⟩

end

/-- What a duplicate leaves of its subscription: the count one up, up to its largest value, and all else. -/
theorem counted_duplicate {n : Nat} (hn : n < 128) (h : Quiet 0x603000 (s.setFld (A.NET_GS_CNT n) F.NET_GS_CNT_DUPS
      (min (s.fld (A.NET_GS_CNT n) F.NET_GS_CNT_DUPS + 1) (fldMax F.NET_GS_CNT_DUPS))) t) :
    t.fld (A.NET_GS_CNT n) F.NET_GS_CNT_DUPS = min (s.fld (A.NET_GS_CNT n) F.NET_GS_CNT_DUPS + 1) (fldMax F.NET_GS_CNT_DUPS) ∧
      t.mem = s.mem ∧ t.reg (A.NET_GS_STNUM n) = s.reg (A.NET_GS_STNUM n) ∧ t.reg (A.NET_GS_SQNUM n) = s.reg (A.NET_GS_SQNUM n) ∧
      t.reg (A.NET_GS_STAT n) = s.reg (A.NET_GS_STAT n) ∧ t.gsSub n = s.gsSub n := by
  obtain ⟨hstat, hst, hsq, hcnt⟩ := h.toKept.gs_regs hn
  obtain ⟨-, -, -, h1, h2, h3⟩ := gs_addresses_ne n
  refine ⟨(congrArg (fldGet _) hcnt).trans (fld_setFld_same (by decide) (by decide) (Nat.min_le_right _ _)), h.mem,
    hst.trans (reg_setFld_ne _ _ _ h2), hsq.trans (reg_setFld_ne _ _ _ h3), hstat.trans (reg_setFld_ne _ _ _ h1), h.toKept.gsSub_eq n⟩

/-- What an accepted message that is no test leaves of its subscription. -/
theorem kept_accept {n : Nat} {m : GooseMsg} (hn : n < 128) (ht : m.test = false) (h : Kept 0x603000 (accept s n m) t) :
    t.reg (A.NET_GS_STNUM n) = m.stNum ∧ t.reg (A.NET_GS_SQNUM n) = m.sqNum ∧ t.gsState n = 1 ∧
      (t.gsSub n).deadline = some (s.tim.up + (if m.tal = 0 then 2000 else m.tal) * 1000000) := by
  obtain ⟨hstat, hst, hsq, -⟩ := h.gs_regs hn
  obtain ⟨kst, ksq, kstat⟩ := keepNumbers_reg s n m
  rw [accept_reg, kstat] at hstat
  refine ⟨hst.trans ((accept_reg _ _ _ _).trans kst), hsq.trans ((accept_reg _ _ _ _).trans ksq), ?_, ?_⟩
  · rw [State.gsState, State.fld, hstat, acceptedStat_state ht]
  · rw [h.gsSub_eq, accept_gsSub]

/-! ### The obligation -/

/-- Settles O34: publication by what a new state and a retransmission send, reception by the one test for a duplicate, loss by what it
marks; in each the shared operations that follow are quiet. -/
theorem goosePublishSubscribe : Obligations.GoosePublishSubscribe := by
  unfold Obligations.GoosePublishSubscribe
  intro s hs
  have run : ∀ f : State → State, (Host.Outcome.next (s.awake f) : Host.Outcome State Fault Refusal) = .next (f s) :=
    fun f => congrArg _ (awake_of_live hs f)
  refine ⟨fun g b hb hon => ⟨fun hh hc => ?_, fun u hu hst hd => ?_, fun u hu hd => ?_⟩,
    fun p m n b hrx hsw hm hbn hsim htest hdat hconf hnds htypes d hd => ⟨fun hdl hst hseq => ?_, fun hnew => ?_⟩,
    fun n u hu hd hg => ?_⟩
  · have hnew := doGooseStateBuild_new hb hon hh hc
    obtain ⟨hst, hcore, hint, -⟩ := newState_pub s g b 0
    exact ⟨_, (run _).trans (congrArg _ hnew), hst, hcore, newState_sqNum g.isLt b 0, hint, newState_stNum g.isLt b 0⟩
  · obtain ⟨hsq, hstn, hpub⟩ := doGooseRetransmit_due hb hon hu hst hd
    exact ⟨_, run _, hsq, hstn, by rw [hpub], by rw [hpub]⟩
  · exact ⟨_, run _, doGooseLaunchTimeReached_due hb hon hu hd⟩
  · have hq := gooseReceive_duplicate n.isLt hrx hsw hm hbn ⟨hsim, htest, hdat, hconf, hnds, htypes⟩ ⟨hdl, hst, hd ▸ hseq⟩
    exact ⟨_, run _, counted_duplicate n.isLt hq⟩
  · have hnot : ¬ Duplicate s n m := by
      rintro ⟨hdl, hst, hseq⟩
      rw [← hd] at hseq
      rcases hnew with h | h | h
      · exact hdl h
      · exact h hst
      · omega
    obtain ⟨s1, htim, hk, hvalid⟩ :=
      gooseReceive_accepted n.isLt hrx hsw hm hbn ⟨hsim, htest, hdat, hconf, hnds, htypes⟩ hnot
    obtain ⟨hstn, hsq, hstate, hdeadline⟩ := kept_accept n.isLt htest hk
    exact ⟨_, run _, hstn, hsq, hvalid, hstate, htim ▸ hdeadline⟩
  · have hk := doGooseSubLost_due hu hd hg
    refine ⟨_, run _, ?_, ?_⟩
    · rw [hk.gooseValid_kept n.isLt, (raise_quiet (top := 0) (.refl _)).gooseValid_kept, gooseValid_setGooseValid]
    · rw [hk.toKept.gsState_eq n.isLt, (raise_quiet (.refl _)).toKept.gsState_eq n.isLt, (setGooseValid_kept _ _ _).gsState_eq n.isLt,
        markLost_gsState s n.isLt]

end Sys2Proof.Proofs
